-- ==== Sys2Proof/Word.lean ====
section
/-! DEFINITION. The word types of the machine and nothing more (R5): a word of an x register, a vector register, a slot, a byte. -/

namespace Sys2Proof

/-- A 64-bit word: the width of an x register (R5, R61). -/
abbrev Word := BitVec 64

/-- A 128-bit vector register or latch (R61). -/
abbrev Vec := BitVec 128

/-- A 32-bit instruction slot (R5). -/
abbrev SlotWord := BitVec 32

/-- A byte of memory (R5). -/
abbrev Byte := BitVec 8

end Sys2Proof
end

