-- ==== Sys2Proof/Machine/Bits.lean ====
section
/-! DEFINITION. Bit fields, sign extension and byte order (R4, R5, R286, R290): the helpers that the decoder and the
instructions' meanings share. -/

namespace Sys2Proof.Machine

/-- A list with each value once, in the places of their last occurrences. -/
def uniq : List Nat → List Nat
  | [] => []
  | a :: l => if l.contains a then uniq l else a :: uniq l

/-- Bits [lo+n-1:lo] of a value as a natural number (R4). -/
def bitsN {w : Nat} (x : BitVec w) (lo n : Nat) : Nat := x.toNat / 2 ^ lo % 2 ^ n

/-- Bits [lo+n-1:lo] of a value (R4). -/
def field {w : Nat} (x : BitVec w) (lo n : Nat) : BitVec n := x.extractLsb' lo n

/-- Replaces bits [lo+n-1:lo] of a value. -/
def setField {w n : Nat} (x : BitVec w) (lo : Nat) (v : BitVec n) : BitVec w :=
  (x &&& ~~~(((1#w <<< n) - 1#w) <<< lo)) ||| ((v.setWidth w) <<< lo)

/-- Bit i of a value. -/
def bit {w : Nat} (x : BitVec w) (i : Nat) : Bool := x.getLsbD i

/-- One bit as a 64-bit value. -/
def ofBool64 (b : Bool) : Word := if b then 1#64 else 0#64

/-- Major opcode, bits [30:24] (R286). -/
def fMajor (w : SlotWord) : BitVec 7 := w.extractLsb' 24 7
/-- The `E` bit (R279). -/
def fE (w : SlotWord) : Bool := w.getLsbD 31
/-- Field d, bits [23:18] (R286). -/
def fD (w : SlotWord) : BitVec 6 := w.extractLsb' 18 6
/-- Tile field, bits [22:18] (R378). -/
def fT (w : SlotWord) : BitVec 5 := w.extractLsb' 18 5
/-- Field a, bits [17:12]. -/
def fA (w : SlotWord) : BitVec 6 := w.extractLsb' 12 6
/-- Field b, bits [11:6]. -/
def fB (w : SlotWord) : BitVec 6 := w.extractLsb' 6 6
/-- Minor f, bits [5:3]. -/
def fMinor (w : SlotWord) : BitVec 3 := w.extractLsb' 3 3
/-- The low two bits of the minor. -/
def fMinor2 (w : SlotWord) : BitVec 2 := w.extractLsb' 3 2
/-- Guard g, bits [2:0]. -/
def fG (w : SlotWord) : BitVec 3 := w.extractLsb' 0 3
/-- imm9, bits [11:3]. -/
def fI9 (w : SlotWord) : BitVec 9 := w.extractLsb' 3 9
/-- imm18, bits [17:0]. -/
def fI18 (w : SlotWord) : BitVec 18 := w.extractLsb' 0 18
/-- imm24 of an X slot, bits [23:0]. -/
def fI24 (w : SlotWord) : BitVec 24 := w.extractLsb' 0 24
/-- Condition predicate of a B slot, bits [23:21]. -/
def fC (w : SlotWord) : BitVec 3 := w.extractLsb' 21 3
/-- off20 of a B slot, bits [19:0]. -/
def fO20 (w : SlotWord) : BitVec 20 := w.extractLsb' 0 20

/-- An R slot with `E` = 1 (R286). -/
def packR (maj : BitVec 7) (d a b : BitVec 6) (f g : BitVec 3) : SlotWord := 1#1 ++ maj ++ d ++ a ++ b ++ f ++ g
/-- An I slot with `E` = 1. -/
def packI (maj : BitVec 7) (d a : BitVec 6) (i : BitVec 9) (g : BitVec 3) : SlotWord := 1#1 ++ maj ++ d ++ a ++ i ++ g
/-- An L slot with `E` = 1. -/
def packL (maj : BitVec 7) (d : BitVec 6) (i : BitVec 18) : SlotWord := 1#1 ++ maj ++ d ++ i
/-- A B slot with `E` = 1. -/
def packB (maj : BitVec 7) (c : BitVec 3) (n : BitVec 1) (o : BitVec 20) : SlotWord := 1#1 ++ maj ++ c ++ n ++ o
/-- An X slot (R291). -/
def packX (e : BitVec 1) (i : BitVec 24) : SlotWord := e ++ 0x7F#7 ++ i

/-- The n low bytes of a value, lowest first (R5). -/
def toBytes : Nat → Nat → List Byte
  | 0, _ => []
  | n + 1, x => BitVec.ofNat 8 x :: toBytes n (x / 256)

/-- The number that bytes hold, lowest first (R5). -/
def ofBytes : List Byte → Nat
  | [] => 0
  | b :: bs => b.toNat + 256 * ofBytes bs

end Sys2Proof.Machine
end

