-- ==== Sys2Proof/Machine/Mesh.lean ====
section
/-! DEFINITION. The plan of the package: dies, clusters, routers and ports, and the ways of packets through the mesh (R11, R12,
R14, R16 to R18). -/

namespace Sys2Proof.Machine

/-! ### Numbers and places (R11, R12, R14, R16) -/

/-- Package cluster of a core (R12); a service core joins the router of cluster 0 of its die (R14). -/
def clusterOf (c : Nat) : Nat := if c < 4096 then c / 8 else 64 * (c - 4096)

/-- Die of a core (R12); service core d is 4096 + d (R14). -/
def dieOf (c : Nat) : Nat := if c < 4096 then c / 512 else c - 4096

/-- Column of a die: 0 is the west one (R11). -/
def dieColumn (d : Nat) : Nat := d % 2
/-- Row of a die: 0 is the south one (R11). -/
def dieRow (d : Nat) : Nat := d / 2

/-- Mesh column X of a package cluster (R12). -/
def meshX (k : Nat) : Nat := 8 * dieColumn (k / 64) + k % 8
/-- Mesh row Y of a package cluster (R12). -/
def meshY (k : Nat) : Nat := 8 * dieRow (k / 64) + k % 64 / 8

/-- Die of Gomond port p: five on dies 0, 1, 6 and 7, four on dies 2 to 5 (R16). -/
def portDie (p : Nat) : Nat := if p < 10 then p / 5 else if p < 26 then 2 + (p - 10) / 4 else 6 + (p - 26) / 5

/-- Die of HBM4E stack n (R16). -/
def stackDie (n : Nat) : Nat := n

/-- Die of the host port (R16). -/
def hostDie : Nat := 0

/-! ### Ways through the mesh (R17, R18) -/

/-- Distance of two coordinates. -/
def gap (x y : Nat) : Nat := if x ≤ y then y - x else x - y

/-- Mesh hops between the routers of two clusters (R17, R18). -/
def meshHops (a b : Nat) : Nat := gap (meshX a) (meshX b) + gap (meshY a) (meshY b)

/-- Input port of router b by which a packet of router a comes: it travels along its row first, and then along its column (R17,
R18). -/
def inputPort (a b : Nat) : Nat :=
  if meshY b < meshY a then 1 else if meshY a < meshY b then 3
  else if meshX b < meshX a then 2 else if meshX a < meshX b then 4 else 0

/-- Source number of the host port. -/
def srcHost : Nat := 16384
/-- Destination number of cluster k, and the source number of its engines. -/
def dstCluster (k : Nat) : Nat := 8192 + k

/-- The router that the holder of a source number injects at: its cluster's (R14, R17). -/
def routerOfSrc (n : Nat) : Option Nat :=
  if n < 4104 then some (clusterOf n) else if 8192 ≤ n ∧ n < 8704 then some (n - 8192) else none

/-- Input port of router b by which the packets of a source number come: the service core of the die has a port of its own (R17). What is
at no cluster's router has none (DESIGN CHOICE, log 106). -/
def arrivalPort (src b : Nat) : Option Nat :=
  match routerOfSrc src with
  | none => none
  | some a => if a = b ∧ 4096 ≤ src ∧ src < 4104 then some 5 else some (inputPort a b)

end Sys2Proof.Machine
end

