-- ==== Sys2Proof/Machine/Shake.lean ====
section
/-! DEFINITION. SHAKE256, which links the Chronograph's records (R446) and forms the measurement register (R465): the sponge
over Keccak-f[1600] of FIPS 202 with rate 136 bytes. PRESUMED (log 12): the spec names the function and does not write it out. -/

namespace Sys2Proof.Machine.Shake

/-- Lane i of a state of 25 lanes. -/
def lane (a : List Word) (i : Nat) : Word := a.getD i 0

/-- Round constants of Keccak-f[1600]. -/
def roundConsts : List Word :=
  [0x0000000000000001, 0x0000000000008082, 0x800000000000808A, 0x8000000080008000, 0x000000000000808B, 0x0000000080000001,
   0x8000000080008081, 0x8000000000008009, 0x000000000000008A, 0x0000000000000088, 0x0000000080008009, 0x000000008000000A]
  ++ [0x000000008000808B, 0x800000000000008B, 0x8000000000008089, 0x8000000000008003, 0x8000000000008002, 0x8000000000000080,
   0x000000000000800A, 0x800000008000000A, 0x8000000080008081, 0x8000000000008080, 0x0000000080000001, 0x8000000080008008]

/-- Rotation of lane x + 5 y. -/
def rotations : List Nat :=
  [0, 1, 62, 28, 27, 36, 44, 6, 55, 20, 3, 10, 43, 25, 39, 41, 45, 15, 21, 8, 18, 2, 61, 56, 14]

/-- One round: theta, rho, pi, chi, iota. -/
def round (a : List Word) (rc : Word) : List Word :=
  let col (x : Nat) : Word := lane a x ^^^ lane a (x + 5) ^^^ lane a (x + 10) ^^^ lane a (x + 15) ^^^ lane a (x + 20)
  let cols := (List.range 5).map col
  let d (x : Nat) : Word := lane cols ((x + 4) % 5) ^^^ (lane cols ((x + 1) % 5)).rotateLeft 1
  let ds := (List.range 5).map d
  let th := (List.range 25).map (fun i => (lane a i ^^^ lane ds (i % 5)).rotateLeft (rotations.getD i 0))
  -- B[y, 2x + 3y] = A[x, y]: the lane at (u, v) comes from x with y = u, 2x + 3u = v mod 5
  let b := (List.range 25).map (fun i => let u := i % 5; let v := i / 5; let x := (u + 3 * v) % 5; lane th (x + 5 * u))
  let ch := (List.range 25).map (fun i =>
    let x := i % 5; let y := i / 5
    lane b i ^^^ (~~~(lane b ((x + 1) % 5 + 5 * y)) &&& lane b ((x + 2) % 5 + 5 * y)))
  match ch with
  | h :: t => (h ^^^ rc) :: t
  | [] => []

/-- Keccak-f[1600]. -/
def permute (a : List Word) : List Word := roundConsts.foldl round a

/-- Bytes to lanes. -/
def lanes (bs : List Byte) (n : Nat) : List Word :=
  (List.range n).map (fun i => BitVec.ofNat 64 (ofBytes ((bs.drop (8 * i)).take 8)))

/-- Absorbs padded blocks of 136 bytes. -/
def absorb : Nat → List Byte → List Word → List Word
  | 0, _, a => a
  | n + 1, bs, a =>
    let l := lanes (bs.take 136) 17
    absorb n (bs.drop 136) (permute ((List.range 25).map (fun i => lane a i ^^^ (if i < 17 then lane l i else 0))))

/-- SHAKE256 with at most 136 bytes of output. -/
def shake256 (msg : List Byte) (out : Nat) : List Byte :=
  let n := msg.length / 136 + 1
  let pad := n * 136 - msg.length
  let tail : List Byte := if pad = 1 then [0x9F] else 0x1F :: (List.replicate (pad - 2) 0 ++ [0x80])
  let a := absorb n (msg ++ tail) (List.replicate 25 0)
  ((a.map (fun w => toBytes 8 w.toNat)).flatten).take out

end Sys2Proof.Machine.Shake
end

