-- ==== Sys2Proof/Config.lean ====
section
/-! DEFINITION. What an implementation fixes and the values that the spec leaves open. A free value is an opaque function:
nothing can evaluate it, so whatever is proved holds for every value of it. -/

namespace Sys2Proof.Config

/-- Nanoseconds of `time` that pass in the n-th step of the machine (R88, R275: the spec gives no count for one cycle, only
that the count never goes back). Free value, log entry 6. -/
opaque nsPerStep : Nat → Nat

/-- The first value of `time`, which firmware chooses (R275). Free value, log entry 6. -/
opaque timeStart : Nat

/-- The package number that firmware writes from the fabric configuration (R86). Free value, log entry 7. -/
opaque pkgNumber : BitVec 18

/-- Silicon revision: true B0, false A1 (R1, R451). Free value, log entry 7. -/
opaque revB0 : Bool

/-- Whether the vendor key in fuses accepts the XMSS signature of an image, given the image's bytes (R462). Free value, log
entry 8: the key is a fuse value that the spec does not give. -/
opaque vendorSignatureOk : List Byte → Bool

/-- Body number in an image's header, given the image's bytes (R462). Free value, log entry 8: the spec lists what the header
holds and does not lay it out. -/
opaque imageBody : List Byte → Nat

/-- Security version in an image's header (R462). Free value, log entry 8. -/
opaque imageVersion : List Byte → BitVec 32

/-- Whether an image can import the state blocks of the image that it replaces (R463). Free value, log entry 8. -/
opaque imageImports : List Byte → Bool

/-- The address at which an image starts (R463). Free value, log entry 8. -/
opaque imageStart : List Byte → BitVec 60

/-- SHAKE256 of the image of a body that boots (R465): 0 management, 1 scheduler, 2 fabric. Free value, log entry 8. -/
opaque bootDigest : Nat → BitVec 256

/-- The XMSS signature bytes that the attestation key's leaf gives for a message (R467). Free value, log entry 8. -/
opaque attestationSignature : Nat → List Byte → List Byte

/-- A value that the spec leaves open, one for each reading of the state's counter (log entry 9). -/
opaque freeValue : Nat → BitVec 64

end Sys2Proof.Config
end

