-- ==== Sys2Proof/Syntax.lean ====
section
/-! DEFINITION. The instructions: one constructor of `Instr` for each row of the opcode table (R286 to R297), in the table's
order. A slot carries its encoded fields as the spec numbers them, and in `p` the 24-bit word of an X prefix that stands
before it (R291), if there is one. The rows after the X prefix have no encoding: they are the events of the machine, each
with the numbers that say where it takes place. -/

namespace Sys2Proof

/-- Operand fields of a slot: d (6 bits), a (6 bits), b (6 bits), g (3 bits); `p` is the preceding X prefix (R286, R291). -/
structure OpDab where
  /-- the preceding X prefix, imm24 -/
  p : Option (BitVec 24) := none
  /-- destination field [23:18] (or tile number [22:18]) -/
  d : BitVec 6
  /-- field a [17:12] -/
  a : BitVec 6
  /-- field b [11:6] -/
  b : BitVec 6
  /-- guard predicate [2:0] -/
  g : BitVec 3
deriving DecidableEq, Repr

/-- Operand fields of a slot: d (6 bits), a (6 bits), g (3 bits); `p` is the preceding X prefix (R286, R291). -/
structure OpDa where
  /-- the preceding X prefix, imm24 -/
  p : Option (BitVec 24) := none
  /-- destination field [23:18] (or tile number [22:18]) -/
  d : BitVec 6
  /-- field a [17:12] -/
  a : BitVec 6
  /-- guard predicate [2:0] -/
  g : BitVec 3
deriving DecidableEq, Repr

/-- Operand fields of a slot: d (6 bits), a (6 bits), i (9 bits), g (3 bits); `p` is the preceding X prefix (R286, R291). -/
structure OpDai where
  /-- the preceding X prefix, imm24 -/
  p : Option (BitVec 24) := none
  /-- destination field [23:18] (or tile number [22:18]) -/
  d : BitVec 6
  /-- field a [17:12] -/
  a : BitVec 6
  /-- immediate -/
  i : BitVec 9
  /-- guard predicate [2:0] -/
  g : BitVec 3
deriving DecidableEq, Repr

/-- Operand fields of a slot: d (6 bits), i (18 bits); `p` is the preceding X prefix (R286, R291). -/
structure OpL where
  /-- the preceding X prefix, imm24 -/
  p : Option (BitVec 24) := none
  /-- destination field [23:18] (or tile number [22:18]) -/
  d : BitVec 6
  /-- immediate -/
  i : BitVec 18
deriving DecidableEq, Repr

/-- Operand fields of a slot: c (3 bits), o (20 bits); `p` is the preceding X prefix (R286, R291). -/
structure OpB where
  /-- the preceding X prefix, imm24 -/
  p : Option (BitVec 24) := none
  /-- condition predicate [23:21] -/
  c : BitVec 3
  /-- off20 [19:0] -/
  o : BitVec 20
deriving DecidableEq, Repr

/-- Operand fields of a slot: a (6 bits), g (3 bits); `p` is the preceding X prefix (R286, R291). -/
structure OpA where
  /-- the preceding X prefix, imm24 -/
  p : Option (BitVec 24) := none
  /-- field a [17:12] -/
  a : BitVec 6
  /-- guard predicate [2:0] -/
  g : BitVec 3
deriving DecidableEq, Repr

/-- Operand fields of a slot: d (6 bits), i (9 bits), g (3 bits); `p` is the preceding X prefix (R286, R291). -/
structure OpDi where
  /-- the preceding X prefix, imm24 -/
  p : Option (BitVec 24) := none
  /-- destination field [23:18] (or tile number [22:18]) -/
  d : BitVec 6
  /-- immediate -/
  i : BitVec 9
  /-- guard predicate [2:0] -/
  g : BitVec 3
deriving DecidableEq, Repr

/-- Operand fields of a slot: a (6 bits), i (9 bits), g (3 bits); `p` is the preceding X prefix (R286, R291). -/
structure OpAi where
  /-- the preceding X prefix, imm24 -/
  p : Option (BitVec 24) := none
  /-- field a [17:12] -/
  a : BitVec 6
  /-- immediate -/
  i : BitVec 9
  /-- guard predicate [2:0] -/
  g : BitVec 3
deriving DecidableEq, Repr

/-- Operand fields of a slot: g (3 bits); `p` is the preceding X prefix (R286, R291). -/
structure Op0 where
  /-- the preceding X prefix, imm24 -/
  p : Option (BitVec 24) := none
  /-- guard predicate [2:0] -/
  g : BitVec 3
deriving DecidableEq, Repr

/-- Operand fields of a slot: i (9 bits), g (3 bits); `p` is the preceding X prefix (R286, R291). -/
structure OpI where
  /-- the preceding X prefix, imm24 -/
  p : Option (BitVec 24) := none
  /-- immediate -/
  i : BitVec 9
  /-- guard predicate [2:0] -/
  g : BitVec 3
deriving DecidableEq, Repr

/-- Operand fields of a slot: a (6 bits), t (2 bits), g (3 bits); `p` is the preceding X prefix (R286, R291). -/
structure OpAT2 where
  /-- the preceding X prefix, imm24 -/
  p : Option (BitVec 24) := none
  /-- field a [17:12] -/
  a : BitVec 6
  /-- type or table number -/
  t : BitVec 2
  /-- guard predicate [2:0] -/
  g : BitVec 3
deriving DecidableEq, Repr

/-- Operand fields of a slot: d (6 bits), a (6 bits), b (6 bits), t (3 bits), g (3 bits); `p` is the preceding X prefix (R286, R291). -/
structure OpDabT3 where
  /-- the preceding X prefix, imm24 -/
  p : Option (BitVec 24) := none
  /-- destination field [23:18] (or tile number [22:18]) -/
  d : BitVec 6
  /-- field a [17:12] -/
  a : BitVec 6
  /-- field b [11:6] -/
  b : BitVec 6
  /-- type or table number -/
  t : BitVec 3
  /-- guard predicate [2:0] -/
  g : BitVec 3
deriving DecidableEq, Repr

/-- Operand fields of a slot: d (6 bits), a (6 bits), b (6 bits), t (2 bits), g (3 bits); `p` is the preceding X prefix (R286, R291). -/
structure OpDabT2 where
  /-- the preceding X prefix, imm24 -/
  p : Option (BitVec 24) := none
  /-- destination field [23:18] (or tile number [22:18]) -/
  d : BitVec 6
  /-- field a [17:12] -/
  a : BitVec 6
  /-- field b [11:6] -/
  b : BitVec 6
  /-- type or table number -/
  t : BitVec 2
  /-- guard predicate [2:0] -/
  g : BitVec 3
deriving DecidableEq, Repr

/-- Operand fields of a slot: d (6 bits), a (6 bits), t (2 bits), g (3 bits); `p` is the preceding X prefix (R286, R291). -/
structure OpDaT2 where
  /-- the preceding X prefix, imm24 -/
  p : Option (BitVec 24) := none
  /-- destination field [23:18] (or tile number [22:18]) -/
  d : BitVec 6
  /-- field a [17:12] -/
  a : BitVec 6
  /-- type or table number -/
  t : BitVec 2
  /-- guard predicate [2:0] -/
  g : BitVec 3
deriving DecidableEq, Repr

/-- Operand fields of a slot: d (6 bits), g (3 bits); `p` is the preceding X prefix (R286, R291). -/
structure OpD where
  /-- the preceding X prefix, imm24 -/
  p : Option (BitVec 24) := none
  /-- destination field [23:18] (or tile number [22:18]) -/
  d : BitVec 6
  /-- guard predicate [2:0] -/
  g : BitVec 3
deriving DecidableEq, Repr

/-- Operand fields of a slot: a (6 bits), b (6 bits), g (3 bits); `p` is the preceding X prefix (R286, R291). -/
structure OpAb where
  /-- the preceding X prefix, imm24 -/
  p : Option (BitVec 24) := none
  /-- field a [17:12] -/
  a : BitVec 6
  /-- field b [11:6] -/
  b : BitVec 6
  /-- guard predicate [2:0] -/
  g : BitVec 3
deriving DecidableEq, Repr

/-- Operand fields of a slot: d (6 bits), a (6 bits), b (6 bits), n (2 bits), g (3 bits); `p` is the preceding X prefix (R286, R291). -/
structure OpDabN2 where
  /-- the preceding X prefix, imm24 -/
  p : Option (BitVec 24) := none
  /-- destination field [23:18] (or tile number [22:18]) -/
  d : BitVec 6
  /-- field a [17:12] -/
  a : BitVec 6
  /-- field b [11:6] -/
  b : BitVec 6
  /-- plane count minus one -/
  n : BitVec 2
  /-- guard predicate [2:0] -/
  g : BitVec 3
deriving DecidableEq, Repr

/-- Operand fields of a slot: d (5 bits), a (6 bits), b (6 bits), g (3 bits); `p` is the preceding X prefix (R286, R291). -/
structure OpTab where
  /-- the preceding X prefix, imm24 -/
  p : Option (BitVec 24) := none
  /-- destination field [23:18] (or tile number [22:18]) -/
  d : BitVec 5
  /-- field a [17:12] -/
  a : BitVec 6
  /-- field b [11:6] -/
  b : BitVec 6
  /-- guard predicate [2:0] -/
  g : BitVec 3
deriving DecidableEq, Repr

/-- Operand fields of a slot: d (5 bits), g (3 bits); `p` is the preceding X prefix (R286, R291). -/
structure OpT where
  /-- the preceding X prefix, imm24 -/
  p : Option (BitVec 24) := none
  /-- destination field [23:18] (or tile number [22:18]) -/
  d : BitVec 5
  /-- guard predicate [2:0] -/
  g : BitVec 3
deriving DecidableEq, Repr

/-- Operand fields of a slot: d (5 bits), a (6 bits), g (3 bits); `p` is the preceding X prefix (R286, R291). -/
structure OpTa where
  /-- the preceding X prefix, imm24 -/
  p : Option (BitVec 24) := none
  /-- destination field [23:18] (or tile number [22:18]) -/
  d : BitVec 5
  /-- field a [17:12] -/
  a : BitVec 6
  /-- guard predicate [2:0] -/
  g : BitVec 3
deriving DecidableEq, Repr

/-- One change that the Orrery may make at a placement point (R242). -/
inductive PlaceChange where
  /-- new `NREP` and replica words of an expert (R238, R242) -/
  | replicas (layer expert : Nat) (nrep : BitVec 2) (reps : List (BitVec 39))
  /-- new `RES` of an expert (R238, R242) -/
  | residence (layer expert : Nat) (res : Bool)
  /-- new frame and owner of a managed page (R114, R242) -/
  | page (va : BitVec 60) (frame : BitVec 52) (owner : BitVec 12)
  /-- withdrawal of a retired core's budget shares (R13, R242) -/
  | withdraw (core : Nat)
deriving DecidableEq, Repr

/-- The instructions and events of the machine, one constructor per row of the opcode table. -/
inductive Instr where
  /-- Adds two x operands modulo 2^64 (R304). -/
  | add (o : OpDab)
  /-- Subtracts xb from xa modulo 2^64 (R304). -/
  | sub (o : OpDab)
  /-- Bitwise AND of two x operands (R304). -/
  | and (o : OpDab)
  /-- Bitwise OR of two x operands (R304). -/
  | or (o : OpDab)
  /-- Bitwise XOR of two x operands (R304). -/
  | xor (o : OpDab)
  /-- Computes xa AND NOT xb (R304). -/
  | andn (o : OpDab)
  /-- Logical left shift by an unreduced register amount (R306). -/
  | sll (o : OpDab)
  /-- Logical right shift by an unreduced register amount (R306). -/
  | srl (o : OpDab)
  /-- Arithmetic right shift by an unreduced register amount (R306). -/
  | sra (o : OpDab)
  /-- Low 64 bits of the product (R304). -/
  | mul (o : OpDab)
  /-- High 64 bits of the signed product (R304). -/
  | mulh (o : OpDab)
  /-- High 64 bits of the unsigned product (R304). -/
  | mulhu (o : OpDab)
  /-- Signed quotient under R31, never trapping (R304). -/
  | div (o : OpDab)
  /-- Unsigned quotient under R31 (R304). -/
  | divu (o : OpDab)
  /-- Signed remainder under R31 (R304). -/
  | rem (o : OpDab)
  /-- Unsigned remainder under R31 (R304). -/
  | remu (o : OpDab)
  /-- Signed minimum of two x operands (R304). -/
  | min (o : OpDab)
  /-- Signed maximum of two x operands (R304). -/
  | max (o : OpDab)
  /-- Unsigned minimum of two x operands (R304). -/
  | minu (o : OpDab)
  /-- Unsigned maximum of two x operands (R304). -/
  | maxu (o : OpDab)
  /-- Counts leading zero bits (R307). -/
  | clz (o : OpDa)
  /-- Counts trailing zero bits (R307). -/
  | ctz (o : OpDa)
  /-- Counts one bits (R307). -/
  | popc (o : OpDa)
  /-- Extracts a sign-extended bit field (R308). -/
  | bext (o : OpDab)
  /-- Extracts a zero-extended bit field (R308). -/
  | bextu (o : OpDab)
  /-- Inserts a bit field into the old destination value (R308). -/
  | bins (o : OpDab)
  /-- Compares for equality into a predicate pair (R309). -/
  | cmpeq (o : OpDab)
  /-- Compares for inequality into a predicate pair (R309). -/
  | cmpne (o : OpDab)
  /-- Signed less-than into a predicate pair (R309). -/
  | cmplt (o : OpDab)
  /-- Signed greater-or-equal into a predicate pair (R309). -/
  | cmpge (o : OpDab)
  /-- Unsigned less-than into a predicate pair (R309). -/
  | cmpltu (o : OpDab)
  /-- Unsigned greater-or-equal into a predicate pair (R309). -/
  | cmpgeu (o : OpDab)
  /-- AND of two predicates (R310). -/
  | pand (o : OpDab)
  /-- OR of two predicates (R310). -/
  | por (o : OpDab)
  /-- XOR of two predicates (R310). -/
  | pxor (o : OpDab)
  /-- pa AND NOT pb (R310). -/
  | pandn (o : OpDab)
  /-- Scalar FP32 addition rounded by frm (R311). -/
  | faddF32 (o : OpDab)
  /-- Scalar FP32 subtraction (R311). -/
  | fsubF32 (o : OpDab)
  /-- Scalar FP32 multiplication (R311). -/
  | fmulF32 (o : OpDab)
  /-- Scalar FP32 division (R311). -/
  | fdivF32 (o : OpDab)
  /-- Scalar FP32 IEEE minimum (R311). -/
  | fminF32 (o : OpDab)
  /-- Scalar FP32 IEEE maximum (R311). -/
  | fmaxF32 (o : OpDab)
  /-- Scalar FP32 square root (R311). -/
  | fsqrtF32 (o : OpDa)
  /-- FP32 equality compare into a predicate pair (R312). -/
  | fcmpeqF32 (o : OpDab)
  /-- FP32 less-than compare (R312). -/
  | fcmpltF32 (o : OpDab)
  /-- FP32 less-or-equal compare (R312). -/
  | fcmpleF32 (o : OpDab)
  /-- FP32 unordered compare (R312). -/
  | fcmpunF32 (o : OpDab)
  /-- Fused A*B + old destination (R311). -/
  | fmaddF32 (o : OpDab)
  /-- Fused A*B - old destination (R311). -/
  | fmsubF32 (o : OpDab)
  /-- Fused -(A*B) - old destination (R311). -/
  | fnmaddF32 (o : OpDab)
  /-- Fused -(A*B) + old destination (R311). -/
  | fnmsubF32 (o : OpDab)
  /-- Converts signed 64-bit integer to FP32 (R313). -/
  | fcvtF32I64 (o : OpDa)
  /-- Converts unsigned 64-bit integer to FP32 (R313). -/
  | fcvtF32U64 (o : OpDa)
  /-- Converts FP32 to signed 64-bit integer (R313). -/
  | fcvtI64F32 (o : OpDa)
  /-- Converts FP32 to unsigned 64-bit integer (R313). -/
  | fcvtU64F32 (o : OpDa)
  /-- Converts FP32 to BF16 (R313). -/
  | fcvtBf16F32 (o : OpDa)
  /-- Converts BF16 to FP32 exactly (R313). -/
  | fcvtF32Bf16 (o : OpDa)
  /-- Converts FP32 to FP16 (R313). -/
  | fcvtF16F32 (o : OpDa)
  /-- Converts FP16 to FP32 exactly (R313). -/
  | fcvtF32F16 (o : OpDa)
  /-- Adds a sign-extended immediate (R305). -/
  | addi (o : OpDai)
  /-- ANDs a sign-extended immediate (R305). -/
  | andi (o : OpDai)
  /-- ORs a sign-extended immediate (R305). -/
  | ori (o : OpDai)
  /-- XORs a sign-extended immediate (R305). -/
  | xori (o : OpDai)
  /-- Logical left shift by immediate (R306). -/
  | slli (o : OpDai)
  /-- Logical right shift by immediate (R306). -/
  | srli (o : OpDai)
  /-- Arithmetic right shift by immediate (R306). -/
  | srai (o : OpDai)
  /-- Equality compare against an immediate (R309). -/
  | cmpeqi (o : OpDai)
  /-- Signed less-than against an immediate (R309). -/
  | cmplti (o : OpDai)
  /-- Unsigned less-than against a sign-extended immediate (R309). -/
  | cmpltui (o : OpDai)
  /-- Loads a sign-extended immediate constant (R314). -/
  | li (o : OpL)
  /-- Forms a bundle-relative address (R314). -/
  | adr (o : OpL)
  /-- Starts a zero-overhead loop setting lc, ls and le (R318). -/
  | loop (o : OpL)
  /-- Branches when the named predicate is true (R315). -/
  | br (o : OpB)
  /-- Branches when the named predicate is false (R315). -/
  | brn (o : OpB)
  /-- Calls when the predicate is true, writing x31 (R315). -/
  | call (o : OpB)
  /-- Calls when the predicate is false, writing x31 (R315). -/
  | calln (o : OpB)
  /-- Jumps to a register address (R316). -/
  | jr (o : OpA)
  /-- Calls a register address, writing x31 (R316). -/
  | callr (o : OpA)
  /-- Reads a control register (R319). -/
  | crr (o : OpDi)
  /-- Writes a control register subject to its field map (R319). -/
  | crw (o : OpAi)
  /-- Suspends the continuation back into its own arrival queue (R419). -/
  | yield (o : Op0)
  /-- Ends the continuation and idles the context (R419). -/
  | waitw (o : Op0)
  /-- Suspends and sends the record to the home core of an address (R199). -/
  | migr (o : OpA)
  /-- Holds the context until n contexts meet or 64 issue cycles pass (R185). -/
  | realign (o : OpI)
  /-- Traps with cause break (R426). -/
  | brk (o : OpI)
  /-- Traps with cause syscall (R426). -/
  | sys (o : OpI)
  /-- Returns from the trap handler to epc (R97). -/
  | tret (o : Op0)
  /-- Returns from a user-level handler to uepc (R106). -/
  | uiret (o : Op0)
  /-- Starts or resumes a worker context (R187). -/
  | start (o : OpA)
  /-- Reaps a worker context, possibly deferred (R187). -/
  | reap (o : OpA)
  /-- Couples the thread with a twin on its buddy core (R427). -/
  | pairon (o : Op0)
  /-- Ends pairing after an agreement (R427). -/
  | pairoff (o : Op0)
  /-- Marks a placement point and parks until it ends (R428). -/
  | placept (o : Op0)
  /-- Loads a decode table from an image (R430). -/
  | ldtab (o : OpAT2)
  /-- Loads a curve table from an image (R430). -/
  | ldcurve (o : OpAT2)
  /-- Invalidates one line in every instruction cache (R431). -/
  | iinv (o : OpA)
  /-- Invalidates every instruction cache line of the package (R431). -/
  | iinva (o : Op0)
  /-- Installs a channel table entry at its endpoints (R236). -/
  | chinst (o : OpDab)
  /-- Sends a region command block to the region scheduler (R432). -/
  | rgcmd (o : OpDa)
  /-- Removes a page's entries from this core's micro-TLB (R122). -/
  | xinvl (o : OpA)
  /-- Removes a page's entries from the cluster's TLBs (R122). -/
  | xinvc (o : OpA)
  /-- Removes a page's entries from every TLB of the package (R122). -/
  | xinva (o : OpA)
  /-- Removes every entry of the tenant tag package-wide (R122). -/
  | xinvt (o : Op0)
  /-- Waits for earlier invalidations and their accesses (R123). -/
  | xsync (o : Op0)
  /-- Elementwise add of the minor's type (R325). -/
  | vadd (o : OpDabT3)
  /-- Elementwise subtract (R325). -/
  | vsub (o : OpDabT3)
  /-- Elementwise multiply (R325). -/
  | vmul (o : OpDabT3)
  /-- Integer multiply-accumulate into the old destination (R325). -/
  | vmla (o : OpDabT2)
  /-- Fused multiply-add into the old destination (R325). -/
  | vfma (o : OpDabT2)
  /-- Elementwise FP divide (R325). -/
  | vdiv (o : OpDabT2)
  /-- Elementwise FP square root (R325). -/
  | vsqrt (o : OpDaT2)
  /-- Elementwise minimum (R326). -/
  | vmin (o : OpDabT3)
  /-- Elementwise maximum (R326). -/
  | vmax (o : OpDabT3)
  /-- Elementwise unsigned minimum (R326). -/
  | vminu (o : OpDabT2)
  /-- Elementwise unsigned maximum (R326). -/
  | vmaxu (o : OpDabT2)
  /-- Saturating elementwise add (R326). -/
  | vadds (o : OpDabT3)
  /-- Saturating elementwise subtract (R326). -/
  | vsubs (o : OpDabT3)
  /-- Bytewise AND (R327). -/
  | vand (o : OpDab)
  /-- Bytewise OR (R327). -/
  | vor (o : OpDab)
  /-- Bytewise XOR (R327). -/
  | vxor (o : OpDab)
  /-- Bytewise A AND NOT B (R327). -/
  | vandn (o : OpDab)
  /-- Selects bytes of A or B by a mask (R327). -/
  | vsel (o : OpDab)
  /-- Elementwise logical left shift (R328). -/
  | vsll (o : OpDabT2)
  /-- Elementwise logical right shift (R328). -/
  | vsrl (o : OpDabT2)
  /-- Elementwise arithmetic right shift (R328). -/
  | vsra (o : OpDabT2)
  /-- Elementwise equality compare into a mask (R329). -/
  | vcmpeq (o : OpDabT3)
  /-- Elementwise less-than compare into a mask (R329). -/
  | vcmplt (o : OpDabT3)
  /-- Elementwise unsigned less-than into a mask (R329). -/
  | vcmpltu (o : OpDabT2)
  /-- Elementwise FP less-or-equal into a mask (R329). -/
  | vcmple (o : OpDabT2)
  /-- AND of two masks (R330). -/
  | mand (o : OpDab)
  /-- OR of two masks (R330). -/
  | mor (o : OpDab)
  /-- XOR of two masks (R330). -/
  | mxor (o : OpDab)
  /-- ma AND NOT mb (R330). -/
  | mandn (o : OpDab)
  /-- Sets a mask from x bits [15:0] (R330). -/
  | mset (o : OpDa)
  /-- Byte shuffle by index vector (R331). -/
  | vshuf (o : OpDab)
  /-- Interleaves the low 32-bit elements (R331). -/
  | vzipl (o : OpDab)
  /-- Interleaves the high 32-bit elements (R331). -/
  | vziph (o : OpDab)
  /-- Gathers even 32-bit elements (R331). -/
  | vuzpe (o : OpDab)
  /-- Gathers odd 32-bit elements (R331). -/
  | vuzpo (o : OpDab)
  /-- Broadcasts an x value into every element (R332). -/
  | vsplat (o : OpDaT2)
  /-- Moves a 64-bit vector element into x (R332). -/
  | vget (o : OpDai)
  /-- Replaces a 64-bit vector element from x (R332). -/
  | vput (o : OpDai)
  /-- Narrows eight FP32 values to BF16 (R333). -/
  | vcvtBf16F32 (o : OpDab)
  /-- Widens four BF16 values to FP32 (R333). -/
  | vcvtF32Bf16 (o : OpDab)
  /-- Narrows eight FP32 values to FP16 (R333). -/
  | vcvtF16F32 (o : OpDab)
  /-- Widens four FP16 values to FP32 (R333). -/
  | vcvtF32F16 (o : OpDab)
  /-- Converts FP32 elements to i32 (R333). -/
  | vcvtI32F32 (o : OpDa)
  /-- Converts i32 elements to FP32 (R333). -/
  | vcvtF32I32 (o : OpDa)
  /-- Widens two FP32 values to FP64 (R333). -/
  | vcvtF64F32 (o : OpDab)
  /-- Narrows four FP64 values to FP32 (R333). -/
  | vcvtF32F64 (o : OpDab)
  /-- Narrows eight FP32 values to E4M3, non-SAT (R334). -/
  | vcvtE4m3F32 (o : OpDab)
  /-- Narrows eight FP32 values to E4M3, saturating (R334). -/
  | vcvtsE4m3F32 (o : OpDab)
  /-- Narrows eight FP32 values to E5M2 (R334). -/
  | vcvtE5m2F32 (o : OpDab)
  /-- Narrows eight FP32 values to packed E2M1 (R334). -/
  | vcvtE2m1F32 (o : OpDab)
  /-- Widens four E4M3 codes to FP32 (R334). -/
  | vcvtF32E4m3 (o : OpDab)
  /-- Widens four E5M2 codes to FP32 (R334). -/
  | vcvtF32E5m2 (o : OpDab)
  /-- Widens four E2M1 codes to FP32 (R334). -/
  | vcvtF32E2m1 (o : OpDab)
  /-- Decodes four codes through a decode table (R335). -/
  | vdec (o : OpDabT2)
  /-- Encodes eight FP32 values through a decode table (R335). -/
  | vquant (o : OpDabT2)
  /-- Applies block and tensor scales to four elements (R336). -/
  | vbsc (o : OpDab)
  /-- E2M1 narrow dot product per 32-bit lane (R337). -/
  | vdotE2m1 (o : OpDab)
  /-- E4M3 narrow dot product per lane (R337). -/
  | vdotE4m3 (o : OpDab)
  /-- E5M2 narrow dot product per lane (R337). -/
  | vdotE5m2 (o : OpDab)
  /-- i8 dot product per lane, wrapping (R337). -/
  | vdotI8 (o : OpDab)
  /-- BF16 dot product per lane (R337). -/
  | vdotBf16 (o : OpDab)
  /-- FP16 dot product per lane (R337). -/
  | vdotF16 (o : OpDab)
  /-- Forms scaled per-block partial products (R338). -/
  | vdotb (o : OpDab)
  /-- Pairwise-tree FP32 horizontal sum (R339). -/
  | vhsumF32 (o : OpDa)
  /-- Horizontal FP32 minimum (R339). -/
  | vhminF32 (o : OpDa)
  /-- Horizontal FP32 maximum (R339). -/
  | vhmaxF32 (o : OpDa)
  /-- Horizontal FP32 absolute maximum (R339). -/
  | vhamaxF32 (o : OpDa)
  /-- Horizontal i32 sum modulo 2^32 (R339). -/
  | vhsumI32 (o : OpDa)
  /-- Horizontal FP16 sum (R339). -/
  | vhsumF16 (o : OpDa)
  /-- Horizontal BF16 sum (R339). -/
  | vhsumBf16 (o : OpDa)
  /-- Horizontal FP64 sum (R339). -/
  | vhsumF64 (o : OpDa)
  /-- Keeps the two highest FP32-scored entries of four (R340). -/
  | vtopkF32 (o : OpDab)
  /-- Keeps the four highest BF16-scored entries of eight (R340). -/
  | vtopkBf16 (o : OpDab)
  /-- Running FP32 absolute maximum (R341). -/
  | vamaxF32 (o : OpDab)
  /-- Running BF16 absolute maximum (R341). -/
  | vamaxBf16 (o : OpDab)
  /-- Running FP16 absolute maximum (R341). -/
  | vamaxF16 (o : OpDab)
  /-- Evaluates a curve table on four FP32 elements (R342). -/
  | vcurve (o : OpDaT2)
  /-- Clears the FP32 sign bits (R343). -/
  | vabsF32 (o : OpDa)
  /-- Inverts the FP32 sign bits (R343). -/
  | vnegF32 (o : OpDa)
  /-- i32 absolute value modulo 2^32 (R343). -/
  | vabsI32 (o : OpDa)
  /-- i32 negation modulo 2^32 (R343). -/
  | vnegI32 (o : OpDa)
  /-- Clears the FP16 sign bits (R343). -/
  | vabsF16 (o : OpDa)
  /-- Inverts the FP16 sign bits (R343). -/
  | vnegF16 (o : OpDa)
  /-- Clears the FP64 sign bits (R343). -/
  | vabsF64 (o : OpDa)
  /-- Inverts the FP64 sign bits (R343). -/
  | vnegF64 (o : OpDa)
  /-- Zero-extending byte load, register offset (R349). -/
  | ldU8R (o : OpDab)
  /-- Sign-extending byte load, register offset (R349). -/
  | ldI8R (o : OpDab)
  /-- Zero-extending half load, register offset (R349). -/
  | ldU16R (o : OpDab)
  /-- Sign-extending half load, register offset (R349). -/
  | ldI16R (o : OpDab)
  /-- Zero-extending single load, register offset (R349). -/
  | ldU32R (o : OpDab)
  /-- Sign-extending single load, register offset (R349). -/
  | ldI32R (o : OpDab)
  /-- Word load, register offset (R349). -/
  | ldU64R (o : OpDab)
  /-- 16-byte vector load under a mask, register offset (R350). -/
  | vldR (o : OpDab)
  /-- Byte store, register offset (R351). -/
  | stU8R (o : OpDab)
  /-- Half store, register offset (R351). -/
  | stU16R (o : OpDab)
  /-- Single store, register offset (R351). -/
  | stU32R (o : OpDab)
  /-- Word store, register offset (R351). -/
  | stU64R (o : OpDab)
  /-- 16-byte vector store under a mask, register offset (R351). -/
  | vstR (o : OpDab)
  /-- Zero-extending byte load, immediate offset (R349). -/
  | ldU8I (o : OpDai)
  /-- Sign-extending byte load, immediate offset (R349). -/
  | ldI8I (o : OpDai)
  /-- Zero-extending half load, immediate offset (R349). -/
  | ldU16I (o : OpDai)
  /-- Sign-extending half load, immediate offset (R349). -/
  | ldI16I (o : OpDai)
  /-- Zero-extending single load, immediate offset (R349). -/
  | ldU32I (o : OpDai)
  /-- Sign-extending single load, immediate offset (R349). -/
  | ldI32I (o : OpDai)
  /-- Word load, immediate offset (R349). -/
  | ldU64I (o : OpDai)
  /-- Vector load, immediate offset (R350). -/
  | vldI (o : OpDai)
  /-- Byte store, immediate offset (R351). -/
  | stU8I (o : OpDai)
  /-- Half store, immediate offset (R351). -/
  | stU16I (o : OpDai)
  /-- Single store, immediate offset (R351). -/
  | stU32I (o : OpDai)
  /-- Word store, immediate offset (R351). -/
  | stU64I (o : OpDai)
  /-- Vector store, immediate offset (R351). -/
  | vstI (o : OpDai)
  /-- Publishes the context's records and returns the release point (R155). -/
  | rel (o : OpD)
  /-- Acquires the log set read from memory (R163). -/
  | acq (o : OpA)
  /-- Snapshot acquire of every log of the tenant (R165). -/
  | acqall (o : Op0)
  /-- Returns TAIL as a mark (R169). -/
  | lmark (o : OpD)
  /-- Voids the context's unpublished records from a mark (R169). -/
  | ldrop (o : OpA)
  /-- Waits until every earlier access has performed (R177). -/
  | fence (o : Op0)
  /-- Waits until earlier bulk and host direct stores have performed (R135). -/
  | drain (o : Op0)
  /-- Starts a read of a line (R355). -/
  | pref (o : OpAb)
  /-- Adds one element as an add record or in place (R356). -/
  | radd (o : OpDabT3)
  /-- Adds a vector's elements as add records or in place (R356). -/
  | vradd (o : OpDabT3)
  /-- Truncating planed load of n planes (R357). -/
  | ldpt (o : OpDabN2)
  /-- Rounding planed load of n planes (R357). -/
  | ldpn (o : OpDabN2)
  /-- Adds deltas to four planed elements in N32 precision (R360). -/
  | pupd (o : OpDab)
  /-- Applies a decayed step to four planed elements (R360). -/
  | padam (o : OpDab)
  /-- Quantising store with a fold into a scale entry (R362). -/
  | stq (o : OpDab)
  /-- Commits a scale entry's running maximum (R363). -/
  | scommit (o : OpA)
  /-- Computes the next scale of an entry (R363). -/
  | scalc (o : OpDa)
  /-- Writes 64 bytes as the next line of a ring entry (R364). -/
  | rpush (o : OpDa)
  /-- Claims and releases a ring entry without a matrix read (R364). -/
  | rpop (o : OpA)
  /-- Installs a stream binding on v24-v31 (R365). -/
  | sbind (o : OpDa)
  /-- Clears a stream binding (R365). -/
  | sfree (o : OpD)
  /-- Reads a sync cell (R368). -/
  | scld (o : OpDa)
  /-- Writes a sync cell (R368). -/
  | scst (o : OpAb)
  /-- Fetch-add on a sync cell (R368). -/
  | scadd (o : OpDab)
  /-- Swap on a sync cell (R368). -/
  | scswp (o : OpDab)
  /-- Compare-and-swap on a sync cell (R368). -/
  | sccas (o : OpDab)
  /-- Signed minimum on a sync cell (R368). -/
  | scmin (o : OpDab)
  /-- Signed maximum on a sync cell (R368). -/
  | scmax (o : OpDab)
  /-- Unsigned minimum on a sync cell (R368). -/
  | scminu (o : OpDab)
  /-- Unsigned maximum on a sync cell (R368). -/
  | scmaxu (o : OpDab)
  /-- Queues a dense E2M1 matrix step (R380). -/
  | mmE2m1 (o : OpTab)
  /-- Queues a dense E4M3 matrix step (R380). -/
  | mmE4m3 (o : OpTab)
  /-- Queues a dense E5M2 matrix step (R380). -/
  | mmE5m2 (o : OpTab)
  /-- Queues a dense BF16 matrix step (R380). -/
  | mmBf16 (o : OpTab)
  /-- Queues a dense FP16 matrix step (R380). -/
  | mmF16 (o : OpTab)
  /-- Queues a dense decoded matrix step (R380). -/
  | mmd (o : OpTab)
  /-- Queues a dense scaled-block matrix step (R380). -/
  | mmb (o : OpTab)
  /-- Queues a 2:4 sparse E2M1 matrix step (R380). -/
  | mspE2m1 (o : OpTab)
  /-- Queues a sparse E4M3 matrix step (R380). -/
  | mspE4m3 (o : OpTab)
  /-- Queues a sparse E5M2 matrix step (R380). -/
  | mspE5m2 (o : OpTab)
  /-- Queues a sparse BF16 matrix step (R380). -/
  | mspBf16 (o : OpTab)
  /-- Queues a sparse FP16 matrix step (R380). -/
  | mspF16 (o : OpTab)
  /-- Queues a sparse decoded matrix step (R380). -/
  | mspd (o : OpTab)
  /-- Queues a sparse scaled-block matrix step (R380). -/
  | mspb (o : OpTab)
  /-- Starts a grouped E2M1 multiply over a bin half (R383). -/
  | mmgE2m1 (o : OpTab)
  /-- Starts a grouped E4M3 multiply over a bin half (R383). -/
  | mmgE4m3 (o : OpTab)
  /-- Starts a grouped E5M2 multiply over a bin half (R383). -/
  | mmgE5m2 (o : OpTab)
  /-- Starts a grouped BF16 multiply over a bin half (R383). -/
  | mmgBf16 (o : OpTab)
  /-- Starts a grouped FP16 multiply over a bin half (R383). -/
  | mmgF16 (o : OpTab)
  /-- Starts a grouped decoded multiply over a bin half (R383). -/
  | mmgd (o : OpTab)
  /-- Starts a grouped scaled-block multiply over a bin half (R383). -/
  | mmgb (o : OpTab)
  /-- Zeroes a tile in the issue cycle (R385). -/
  | mzero (o : OpT)
  /-- Loads a tile from memory through the epilogue queue (R385). -/
  | mtld (o : OpTab)
  /-- Stores a tile as FP32 through a plain epilogue (R385). -/
  | mtst (o : OpTab)
  /-- Runs a described epilogue on a tile (R385). -/
  | mepi (o : OpTa)
  /-- Forks a one-row copy (R399). -/
  | copy (o : OpDab)
  /-- Forks a 2-D copy from a descriptor (R399). -/
  | copy2 (o : OpDab)
  /-- Forks a copy into an operand ring entry (R401). -/
  | copyr (o : OpDab)
  /-- Cancels the copies with an operation number (R403). -/
  | ccan (o : OpA)
  /-- Sends one channel element, parking without credit (R404). -/
  | send (o : OpDai)
  /-- Receives one channel element, parking when empty (R405). -/
  | recv (o : OpDai)
  /-- Sends the end-of-stream token (R406). -/
  | eos (o : OpI)
  /-- Broadcasts an element down a tree-reduce channel (R408). -/
  | bcast (o : OpDai)
  /-- Hands a routing job to the cluster's token router (R409). -/
  | route (o : OpA)
  /-- Queues the closing counts of a batch half (R413). -/
  | rclose (o : OpA)
  /-- Creates a continuation from a memory image (R420). -/
  | launch (o : OpAb)
  /-- Creates a continuation on a core from the issuer's registers (R420). -/
  | spawn (o : OpAb)
  /-- Creates a continuation at a cluster's dispenser (R420). -/
  | spawnc (o : OpAb)
  /-- Sets an arrival counter's value and region (R421). -/
  | cset (o : OpAb)
  /-- Adds to an arrival counter (R421). -/
  | cadd (o : OpAb)
  /-- Reads an arrival counter (R421). -/
  | crd (o : OpDa)
  /-- Arms a counter trigger (R422). -/
  | carm (o : OpAb)
  /-- Disarms a counter trigger slot (R421). -/
  | cdisarm (o : OpAb)
  /-- Stages an engine command in a slot (R423). -/
  | cstage (o : OpAb)
  /-- Waits for a counter to reach a value (R270). -/
  | waitc (o : OpAb)
  /-- Waits for a counter with a deadline (R421). -/
  | waitct (o : OpDab)
  /-- Posts a mailbox message to a core (R424). -/
  | mpost (o : OpDab)
  /-- Takes a matching mailbox message, parking on no match (R424). -/
  | mtake (o : OpDab)
  /-- Extends the immediate or supplies the modifier word of the next slot (R291): an X slot that nothing follows in its bundle. -/
  | xPrefix (i : BitVec 24)
  /-- Event: Package reset and firmware bring-up before any S or U context runs (R468). -/
  | powerOn
  /-- Event: Host port trains to a PCIe generation and width (R449); CXL 2.0, 3.1 or 3.2 is 20, 31 or 32. -/
  | hostLinkTrain (gen : Nat) (width : Nat) (cxlVer : Nat) (cache : Bool)
  /-- Event: Host link goes down; in-flight loads complete poisoned and buffered lines are lost (R138). -/
  | hostLinkDown
  /-- Event: A Gomond port trains at a lane generation (R458). -/
  | gomondPortTrain (port : Nat) (gen : Nat)
  /-- Event: A port whose retries fail for 1 ms goes down (R458). -/
  | gomondPortDown (port : Nat)
  /-- Event: A channel whose receive endpoint has no route for 1 ms goes to error (R459). -/
  | channelRouteLoss (region : Nat) (ch : Nat)
  /-- Event: Firmware stops cluster clocks for power or temperature (R469). -/
  | thermalThrottle (cluster : Nat) (stop : Bool)
  /-- Event: A die at 115 C shuts the package down after host event 0x13 (R469). -/
  | thermalShutdown (die : Nat)
  /-- Event: Once per second the die temperature histogram counts (R278). -/
  | temperatureSample (die : Nat) (celsius : Nat)
  /-- Event: Fabric firmware adjusts a package time base rate (R275). -/
  | timeRateAdjust (ppm : Int)
  /-- Event: Write to a device control register with no behaviour of its own (R6). -/
  | registerWrite (off : BitVec 48) (v : BitVec 64)
  /-- Event: Writes a core's root word, clearing its micro-TLB on a tag or root change (R109). -/
  | translationRootWrite (core : Nat) (v : BitVec 64)
  /-- Event: Writes an operand-ring descriptor, resetting head, tail and tags once matrix users retire (R143). -/
  | ringDescriptorWrite (core : Nat) (ring : Nat) (v : BitVec 64)
  /-- Event: Writes the log descriptor, pending until the ring holds no unshipped record (R147). -/
  | logDescriptorWrite (core : Nat) (v : BitVec 64)
  /-- Event: A pending log or spill descriptor takes effect once drained (R147). -/
  | logDescriptorEffect (core : Nat)
  /-- Event: Writes the log spill descriptor, checking its kind (R148). -/
  | logSpillDescriptorWrite (core : Nat) (v : BitVec 64)
  /-- Event: Writes the arrival spill descriptor once COUNT is 0 (R193). -/
  | arrivalSpillDescriptorWrite (core : Nat) (v : BitVec 64)
  /-- Event: A crw of mhb counts as a firmware heartbeat (R466). -/
  | mhbWrite (svc : Nat) (ctx : Nat) (v : BitVec 64)
  /-- Event: A store to the request word makes firmware fill a filtered record view (R448). -/
  | chronographRequest (core : Nat) (seq : BitVec 64)
  /-- Event: A write of launch record word 0 posts or refuses a host launch (R454). -/
  | hostLaunchPost (fn : Nat) (w0 : BitVec 64)
  /-- Event: Region command OP 1 creates a child region (R432). -/
  | regionCreate
  /-- Event: Region command OP 2 changes a region's fields (R432). -/
  | regionChange
  /-- Event: Region command OP 3 destroys a subtree as R234 steps 1-6 (R432). -/
  | regionDestroy
  /-- Event: Region command OP 4 sets a region's pre-empted state (R208). -/
  | regionPreempt
  /-- Event: Region command OP 5 clears the pre-empted state and restores state (R211). -/
  | regionResume
  /-- Event: Region command OP 6 launches a record image into a region (R432). -/
  | regionLaunch
  /-- Event: PF command OP 7 returns a signed quote (R467). -/
  | attestationQuote
  /-- Event: PF command OP 8 verifies and starts a hand-over of the staged image (R463). -/
  | handOver
  /-- Event: PF command OP 9 sets up the host event queue (R456). -/
  | hostEventQueueSetup
  /-- Event: PF command OP 10 stages part of a firmware image (R462). -/
  | stageImagePart
  /-- Event: At the end of 50 ms probation the new image commits and measurement is extended (R463). -/
  | probationCommit (body : Nat)
  /-- Event: Three missed heartbeat slots restore the old image (R464). -/
  | heartbeatFallback (body : Nat)
  /-- Event: A faulted firmware body is restarted from its other flash slot (R99). -/
  | bodyRestart (body : Nat)
  /-- Event: A cluster TLB lookup completes within 16 cycles (R120). -/
  | clusterTlbLookup (core : Nat) (ctx : Nat)
  /-- Event: A page walk ends in a leaf or fault and releases waiting bundles (R120). -/
  | walkComplete (cluster : Nat) (idx : Nat)
  /-- Event: A translation invalidation completes in its scope (R123). -/
  | invalidationComplete (idx : Nat)
  /-- Event: The cluster fetch port serves one line address per cycle (R183). -/
  | fetchPortServe (cluster : Nat)
  /-- Event: A served line reaches the fetch buffers 6 cycles later (R183). -/
  | fetchLineDeliver (cluster : Nat)
  /-- Event: An instruction cache miss fill completes (R183). -/
  | icacheFillComplete (cluster : Nat)
  /-- Event: A remote or engine result is written and the pending mark clears (R64). -/
  | pendingResultArrive (idx : Nat)
  /-- Event: Contexts waiting at a realign are released by count or by 64 issue cycles (R185). -/
  | realignRelease (core : Nat) (ctx : Nat)
  /-- Event: After pending results, a trapped worker's frame is written and a notice posted (R95). -/
  | workerTrapStop (core : Nat) (ctx : Nat)
  /-- Event: Context 0 enters its handler at tvec from a queued notice (R97). -/
  | trapHandlerEntry (core : Nat)
  /-- Event: A context enters its user-level handler at ulvec (R105). -/
  | userInterruptEntry (core : Nat) (ctx : Nat)
  /-- Event: A post-issue matrix fault stops the issuing context at its next boundary or posts an event (R100). -/
  | matrixFaultStop (core : Nat)
  /-- Event: At the end of a freeze, held increments and timeouts are applied (R130). -/
  | freezeEnd (core : Nat)
  /-- Event: A buffered host line is written back on eviction (R137). -/
  | hostLineWriteback (line : Nat)
  /-- Event: A host snoop of a buffered line is answered with merged data (R137). -/
  | hostSnoop (line : Nat)
  /-- Event: A host access to the managed window performs at its controller (R452). -/
  | hostCxlMemAccess (line : Nat) (write : Bool) (data : BitVec 512)
  /-- Event: The shipper sends the next published record to its home (R157). -/
  | shipperSend (core : Nat)
  /-- Event: A log record arrives at a home pending store (R158). -/
  | homeRecordArrive (idx : Nat)
  /-- Event: A home applies a batch of records in canonical order (R159). -/
  | batchApply (core : Nat) (ctx : Nat) (home : Nat)
  /-- Event: Above 6,144 pending records the home applies all non-exempt records (R160). -/
  | forcedCompaction (core : Nat)
  /-- Event: A continuation record arrives at an arrival queue or spills (R194). -/
  | recordArrival (idx : Nat)
  /-- Event: The oldest spilled record moves back into the queue (R195). -/
  | spillRefill (core : Nat)
  /-- Event: The dispatcher assigns a queued record to the lowest idle context (R192). -/
  | dispatch (core : Nat)
  /-- Event: A loaded record's carried acquire completes and the context becomes running (R192). -/
  | loadComplete (core : Nat) (ctx : Nat)
  /-- Event: The dispenser forwards a record to the least-loaded qualifying core (R198). -/
  | dispenserPlace (cluster : Nat)
  /-- Event: A bundle needing a missing extension writes its frame and moves to a target core (R200). -/
  | extensionMigrate (core : Nat) (ctx : Nat)
  /-- Event: A migrated frame in the frame queue is restored into an idle context (R201). -/
  | frameRestoreDispatch (core : Nat)
  /-- Event: A frame that found a full frame queue is moved again when an entry frees (R201). -/
  | frameMoveRetry (core : Nat) (ctx : Nat)
  /-- Event: After a 38,550 ns idle window the region's handler is launched (R207). -/
  | deadlockDetect (region : Nat)
  /-- Event: A pre-emption request reaches a core and halts the region's issue (R208). -/
  | preemptArrive (core : Nat)
  /-- Event: After the halt, frames, drained matrix work, epilogues and region state are saved (R209). -/
  | preemptSave (core : Nat)
  /-- Event: On resume the region's state is restored in fixed order (R211). -/
  | resumeRestore (core : Nat)
  /-- Event: A region fault kills a fault-domain subtree and dispatches the parent's handler (R234). -/
  | regionFaultKill
  /-- Event: The Orrery changes placement at a reached point and wakes parked continuations (R242). -/
  | placementApply (region : Nat) (chg : List PlaceChange)
  /-- Event: A cycle's set, summed increment, triggers, arms and waits act on a counter (R266). -/
  | counterCycleUpdate (core : Nat) (ctr : Nat)
  /-- Event: A trigger action waiting for mailbox or queue room proceeds (R268). -/
  | triggerActionResume (core : Nat)
  /-- Event: A timed wait's deadline passes and the wait completes with p1 false (R270). -/
  | waitcTimeout (core : Nat) (idx : Nat)
  /-- Event: A pushed packet's acknowledgement increments the issue-tag counter (R264). -/
  | packetAcknowledge (idx : Nat)
  /-- Event: A copy packet lands at its destination and is counted (R399). -/
  | copyPacketLand (core : Nat) (idx : Nat) (pkt : Nat)
  /-- Event: A copy ends and posts its mailbox message and completion record (R402). -/
  | copyEnd (core : Nat) (idx : Nat)
  /-- Event: A cancellation reaches a copy's streamers (R403). -/
  | copyCancelArrive (core : Nat) (idx : Nat) (pkts : List Nat)
  /-- Event: A copy's TMO expires and it is cancelled with STAT 5 (R403). -/
  | copyTimeout (core : Nat) (idx : Nat)
  /-- Event: The engine reads a send's element, encodes it and injects packets (R404). -/
  | sendEngineInject (core : Nat)
  /-- Event: A channel element finishes landing in the receive buffer (R404). -/
  | channelElementLand (idx : Nat)
  /-- Event: A popped element's credit returns to its send endpoint (R213). -/
  | creditReturn (idx : Nat)
  /-- Event: A receive's copy performs, writing the receipt and returning the credit (R405). -/
  | recvCopyComplete (idx : Nat)
  /-- Event: A tree node combines a contribution set once all inputs arrive (R218). -/
  | treeNodeCombine (region : Nat) (ch : Nat) (node : Nat)
  /-- Event: A broadcast element lands at a member's slot (R408). -/
  | broadcastLand (idx : Nat)
  /-- Event: A message enters a mailbox and wakes the earliest matching waiter (R222). -/
  | mailboxArrive (idx : Nat)
  /-- Event: A poster writes a completion record once the queue has room (R228). -/
  | completionRecordPost (idx : Nat)
  /-- Event: A fold, commit or scalc performs at the entry's home (R255). -/
  | scaleOpPerform (idx : Nat)
  /-- Event: A sync-cell operation performs at its cluster (R272). -/
  | syncCellPerform (idx : Nat)
  /-- Event: A decode or curve table load takes effect after earlier users retire (R252). -/
  | tableLoadEffect (core : Nat) (ctx : Nat)
  /-- Event: A pattern binding reads an element ahead of the pops (R367). -/
  | patternReadahead (core : Nat) (ctx : Nat) (reg : Nat)
  /-- Event: The token router starts a job and sends its round's permit requests (R411). -/
  | routeJobStart (cluster : Nat)
  /-- Event: A permit request reaches the primary owner's reservoir (R239). -/
  | permitRequestArrive (idx : Nat)
  /-- Event: A round-close reaches an owner, which grants the round once all sources close (R240). -/
  | roundCloseArrive (idx : Nat)
  /-- Event: A grant or refusal returns to the router, which sends the row or reroutes (R411). -/
  | permitAnswer (idx : Nat)
  /-- Event: A token row lands at its bin slot and increments CNTR (R226). -/
  | binRowLand (idx : Nat)
  /-- Event: A job ends once records performed and rows landed (R412). -/
  | routeJobEnd (cluster : Nat)
  /-- Event: An rclose runs in the route queue and sends closing counts (R413). -/
  | rcloseRun (cluster : Nat)
  /-- Event: A closing count arrives at a bin (R226). -/
  | closingCountArrive (idx : Nat)
  /-- Event: The array starts the next ready step under queue arbitration (R372). -/
  | matrixStepStart (core : Nat)
  /-- Event: A step retires, replacing the tile and freeing entries (R371). -/
  | matrixStepRetire (core : Nat)
  /-- Event: A grouped multiply takes a landed group of 16 slots (R383). -/
  | mmgGroupTake (core : Nat) (idx : Nat)
  /-- Event: A grouped multiply completes, optionally idling the half and raising CNT (R383). -/
  | mmgComplete (core : Nat) (idx : Nat)
  /-- Event: An epilogue at the queue head reads its tile (R388). -/
  | epilogueStart (core : Nat)
  /-- Event: An epilogue emits one output row when its store is accepted (R389). -/
  | epilogueRowEmit (core : Nat)
  /-- Event: Every row has performed and CNT is incremented (R389). -/
  | epilogueComplete (core : Nat)
  /-- Event: An mtld's rows are read and the tile written (R385). -/
  | mtldComplete (core : Nat)
  /-- Event: Paired twins exchange fingerprints and agree or roll back (R435). -/
  | comparePoint (core : Nat) (ctx : Nat)
  /-- Event: A third run's fingerprints decide the suspect core (R438). -/
  | tieBreakResult (core : Nat) (ctx : Nat)
  /-- Event: Firmware moves a suspect or marginal core to another operating bin (R444). -/
  | binMove (core : Nat)
  /-- Event: The built-in self-test readmits or retires a core (R444). -/
  | selfTestResult (core : Nat) (pass : Bool) (unit : BitVec 64)
  /-- Event: After 30 days without an event a core moves back one bin (R444). -/
  | binRecovery (core : Nat)
  /-- Event: An owner's direct store to a bulk or host line takes effect at its home controller or host-port line buffer some time after it issued (R134). -/
  | directStorePerform (idx : Nat)
deriving DecidableEq, Repr

end Sys2Proof
end

