-- ==== Sys2Proof/Machine/State.lean ====
section
/-! DEFINITION. The state of the package: every piece of state that the spec gives the machine, as plain data. Each field's
comment begins with [width; file and rule; reset value]. Many like things (cores, clusters, regions, channels) stand in
tables: sorted lists of number and value, in which a number that is not listed has the value after reset. -/

namespace Sys2Proof.Machine

/-- A sparse table: entries in ascending order of their numbers. -/
abbrev Tab (α : Type) := List (Nat × α)

/-- The entry of number k, if listed. -/
def Tab.get? {α : Type} : Tab α → Nat → Option α
  | [], _ => none
  | (j, a) :: t, k => if j = k then some a else Tab.get? t k

/-- The entry of number k, or the value d of entries not listed. -/
def Tab.getD {α : Type} (t : Tab α) (k : Nat) (d : α) : α := (t.get? k).getD d

/-- Sets entry k. -/
def Tab.set {α : Type} : Tab α → Nat → α → Tab α
  | [], k, a => [(k, a)]
  | (j, b) :: t, k, a =>
    if k = j then (k, a) :: t else if k < j then (k, a) :: (j, b) :: t else (j, b) :: Tab.set t k a

/-- Removes entry k. -/
def Tab.erase {α : Type} (t : Tab α) (k : Nat) : Tab α := t.filter (fun e => e.1 != k)

/-- Why a run of the machine stops with a fault. No step of this model ends in one: the spec gives every failure of the
hardware an effect (a trap, an event or a completion record). -/
inductive Fault where
  /-- Raised by no meaning. Safe. -/
  | none
deriving DecidableEq, Repr

/-- Why the model gives no meaning. -/
inductive Refusal where
  /-- An instruction that the model does not give a meaning yet; raised by the dispatch only. Safe. -/
  | notModelled (mnemonic : String)
deriving DecidableEq, Repr

/-- State of a hardware context (R186). -/
inductive CtxMode where
  | off | idle | loading | running | stopped
deriving DecidableEq, Repr

/-- A context's fetch buffer (R182, R183): nothing, one 64-byte line, or the cause that its fetch met. -/
inductive FetchBuf where
  | empty
  | line (va : Nat) (data : List SlotWord)
  | bad (va : Nat) (code : BitVec 8) (tval : Word)
deriving DecidableEq, Repr

/-- Where a context's translation miss stands (R120). -/
inductive TlbWait where
  | none
  | lookup (va : Nat)
  | walk (va : Nat)
  | failed (va : Nat) (code : BitVec 8) (tval : Word)
deriving DecidableEq, Repr

/-- A continuation record (R78). The reserved bits of its words read zero. -/
structure Rec where
  /-- [1; 08 R78; -] passed through `migr` -/
  m : Bool := false
  /-- [1; 08 R78; -] lies in a spill ring -/
  s : Bool := false
  /-- [1; 08 R78; -] suspended on a core reached by extension migration -/
  ext : Bool := false
  pc : BitVec 60
  hop : BitVec 8 := 0
  p : BitVec 7 := 0
  prio : BitVec 4 := 0
  region : BitVec 24
  xs : Vector Word 6 := Vector.replicate 6 0
deriving DecidableEq, Repr

/-- The outcome that a wake carries to the bundle that parked (R416). -/
inductive Wake where
  /-- no wake: the bundle is evaluated as any other -/
  | none
  /-- the element in a buffer slot of the channel is reserved for the receiver, whose destination was a (R214) -/
  | element (a : Word) (slot : Nat)
  /-- a credit is reserved for the sender, whose source and tag word were a and d (R214) -/
  | credit (a d : Word)
  /-- the value of the message taken (R222) -/
  | message (v : Word)
  /-- the status predicate of a `waitc` (R268, R270) -/
  | status (b : Bool)
  /-- the placement point has ended (R242) -/
  | placed
deriving DecidableEq, Repr

/-- A (core, release point) pair (R178). -/
structure Point where
  core : Nat
  point : BitVec 48
deriving DecidableEq, Repr

/-- A continuation outside a context: its record, its carried pair, its wake's outcome (R188, R191). -/
structure Cont where
  rcd : Rec
  pair : Option Point := none
  wake : Wake := .none
  /-- the entry cycle of R191 -/
  entry : Nat := 0
  /-- the context that loads the record (R192) -/
  loading : Option Nat := none
  /-- the target core or cluster of a record in transit -/
  toCluster : Bool := false
deriving DecidableEq, Repr

/-- What a parked continuation of the wait list waits for (R203). -/
inductive WaitFor where
  /-- counter, expected value, deadline in ns of `time` (R270) -/
  | counter (c : Nat) (val : BitVec 32) (deadline : Option Nat)
  /-- mailbox tag and mask (R222) -/
  | mail (tag mask : BitVec 32)
  /-- the end of the region's placement point (R242) -/
  | place
deriving DecidableEq, Repr

/-- An entry of a core's wait list (R203). -/
structure WaitEntry where
  cont : Cont
  ctx : Nat
  cond : WaitFor
deriving DecidableEq, Repr

/-- A stop that waits for the context's pending results (R81, R95). -/
structure StopReq where
  code : BitVec 8
  slot : BitVec 3 := 0
  tval : Word
  /-- PC of the frame: the bundle to execute on restore -/
  framePc : BitVec 60
  /-- PC that the notice carries -/
  npc : BitVec 60
deriving DecidableEq, Repr

/-- State of a log record (R154). -/
inductive RecState where
  | unpublished | published | void
deriving DecidableEq, Repr

/-- A log record (R151) with the state that the core holds beside it (R154, R158). -/
structure LogRec where
  kind : BitVec 4
  size : BitVec 4
  fmt : BitVec 8 := 0
  pa : BitVec 52
  rm : Bool := false
  ctx : BitVec 4
  seq : BitVec 48
  data : Vec
  st : RecState := .unpublished
  /-- appended in paired mode and not yet agreed (R172) -/
  held : Bool := false
  /-- home core, fixed when the record is appended (R158) -/
  home : Nat
  /-- a paired-mode record to a direct page (R173) -/
  direct : Bool := false
  /-- lies in the spill area and not in the ring (R170) -/
  spilled : Bool := false
deriving DecidableEq, Repr

/-- A log record away from its core: origin core and tenant tag (R159). -/
structure HomeRec where
  core : Nat
  tag : BitVec 7
  r : LogRec
deriving DecidableEq, Repr

/-- The active log of a core (R145 to R156). -/
structure Log where
  /-- [64; 07 R146; 0x1A0003: firmware writes BASE 0x68 and SIZE 3] log descriptor in force, offset 0x500 -/
  desc : Word := 0x1A0003
  /-- [64; 07 R147; none] accepted descriptor that waits for the ring to drain -/
  descNext : Option Word := none
  /-- [64; 07 R148; 0] spill descriptor in force, offset 0x508 -/
  spill : Word := 0
  /-- [64; 07 R147; none] accepted spill descriptor that waits for the spill area to drain -/
  spillNext : Option Word := none
  /-- [list; 07 R151, R154; empty] records from SHIP to TAIL, with their states -/
  recs : List LogRec := []
  /-- [48; 07 R149; 0] `TAIL`, offset 0x510 -/
  tail : BitVec 48 := 0
  /-- [48; 07 R149; 0] `FRONT`, offset 0x518 -/
  front : BitVec 48 := 0
  /-- [48; 07 R149; 0] `SHIP`, offset 0x520 -/
  ship : BitVec 48 := 0
  /-- [16 x 48; 07 R155; none] `LastPub` of each context -/
  lastPub : Tab (BitVec 48) := []
deriving DecidableEq, Repr

/-- A notice for context 0 (R95, R96). -/
structure Notice where
  code : BitVec 8
  evt : Bool
  slot : BitVec 3 := 0
  ctx : BitVec 4 := 0
  npc : BitVec 60 := 0
  tval : Word := 0
  tframe : BitVec 60 := 0
  /-- the matrix operation whose issue-queue place the notice keeps (R96, R390) -/
  op : Option Nat := none
  /-- cycle of the core in which it was posted (R96) -/
  cyc : Nat := 0
deriving DecidableEq, Repr

/-- A mailbox message (R221). -/
structure Msg where
  kind : BitVec 4
  ctx : BitVec 4
  core : BitVec 12
  tag : BitVec 32
  val : Word
deriving DecidableEq, Repr

/-- A TLB entry (R119): tenant tag, level of the leaf (1, 2 or 3), virtual page number, leaf entry. -/
structure Tlb where
  tag : BitVec 7
  level : Nat
  vpn : Nat
  leaf : Word
deriving DecidableEq, Repr

/-- One entry of an operand ring that is not free, or that has been claimed before its push (R224, R225). -/
structure RingEnt where
  /-- 0 not pushed yet, 1 filling, 2 full -/
  st : Nat := 0
  tag : BitVec 16 := 0
  /-- bytes written so far -/
  fill : Nat := 0
  /-- claims that have not retired -/
  claims : Nat := 0
  /-- a claim without the keep flag has been made -/
  noKeep : Bool := false
deriving DecidableEq, Repr

/-- An operand ring (R142, R143, R224). Pushes and reads are numbered from the last write of the descriptor; number n uses
entry n mod (`CNT` + 1), and that entry is free for push n when number n − (`CNT` + 1) is no longer listed. -/
structure Ring where
  /-- [64; 06 R142; 0] descriptor, offset 0x400 + 8k -/
  desc : Word := 0
  /-- [6; 06 R142; 0] read position, as a number of reads -/
  head : Nat := 0
  /-- [6; 06 R142; 0] entry that the next push claims, as a number of pushes -/
  tail : Nat := 0
  /-- [64 x 16 and state; 06 R142, 09 R224; free] state and tag of each entry that is not free, by its number -/
  ents : Tab RingEnt := []
  /-- [-; 16 R364; none] number of the entry that pushes of threads and stash epilogues are filling -/
  filling : Option Nat := none
deriving DecidableEq, Repr

/-- An arrival counter (R261). -/
structure Counter where
  /-- [32; 12 R261; 0] `VALUE` -/
  val : BitVec 32 := 0
  /-- [24; 12 R261; 0] `REGION` -/
  region : BitVec 24 := 0
  /-- [4 x 64; 12 R267; 0] trigger slots -/
  trig : Vector Word 4 := Vector.replicate 4 0
  /-- [-; 12 R266; 0] increments that have reached the counter and are not yet applied -/
  inc : Nat := 0
  /-- [-; 12 R266, R269; none] arms of completed bundles that have not yet taken effect: trigger word and region -/
  arms : List (Word × BitVec 24) := []
  /-- [4 x 24; 04 R104; 0] region that armed each trigger -/
  regs : Vector (BitVec 24) 4 := Vector.replicate 4 0
  /-- [-; 12 R266; none] cycle of the core in which steps 2 to 4 have last been taken -/
  last : Option Nat := none
deriving DecidableEq, Repr

/-- A trigger action that waits for room (R268). -/
structure TrigAct where
  ctr : Nat
  slot : Nat
  word : Word
  newVal : BitVec 32
  region : BitVec 24
  /-- number of the increment, or of the arm, that fired it -/
  cyc : Nat := 0
deriving DecidableEq, Repr

/-- A staged engine command (R423). -/
structure Staged where
  slotw : SlotWord
  vd : Word
  va : Word
  vb : Word
  region : BitVec 24
  ctx : Nat
  /-- translations that the core held when the command was staged; an invalidation removes those in its scope -/
  tlbs : List Tlb := []
deriving DecidableEq, Repr

/-- A performance counter (R277). -/
structure Perf where
  /-- [64; 12 R277; 0] select word, offset 0x800 + 8k -/
  sel : Word := 0
  /-- [48; 12 R277; 0] count, offset 0x840 + 8k -/
  count : BitVec 48 := 0
deriving DecidableEq, Repr

/-- A decode table (R244): entries as E8M10 codes. -/
structure DecTable where
  ents : List (BitVec 19)
  ord : BitVec 2
  nib : Bool
  enc : Bool
deriving DecidableEq, Repr

/-- A segment of a curve table (R250). -/
structure Segment where
  bp : BitVec 32 := 0
  c0 : BitVec 32 := 0
  c1 : BitVec 32 := 0
  c2 : BitVec 32 := 0
  c3 : BitVec 32 := 0
deriving DecidableEq, Repr

/-- What a table held before a load of this thread took effect: the loading bundle still sees it (R252). -/
structure OldTable where
  /-- 0 to 3 decode tables, 4 to 7 curve tables -/
  table : Nat
  dec : Option DecTable
  cur : Option (List Segment)
deriving DecidableEq, Repr

/-- A table load that waits to take effect (R252). -/
structure TableLoad where
  ctx : Nat
  /-- 0 to 3 decode tables, 4 to 7 curve tables -/
  table : Nat
  dec : Option DecTable
  cur : Option (List Segment)
  /-- number of the first operation queued after the load -/
  before : Nat := 0
  gen : Nat := 0
deriving DecidableEq, Repr

/-- A fixed operand of a matrix step: a claimed ring entry, by its number. -/
structure Claim where
  ring : Nat
  entry : Nat
  keep : Bool
deriving DecidableEq, Repr

/-- An epilogue descriptor as read at issue (R387). -/
structure EpiDesc where
  mode : BitVec 4
  dst : BitVec 60
  ofmt : BitVec 4
  ts : Bool
  sc : Bool
  bi : Bool
  cv : Bool
  cvn : BitVec 2
  tr : Bool
  cnt : BitVec 6
  sent : BitVec 12
  scale : BitVec 32
  stride : BitVec 32
  bias : BitVec 60
  tsa : BitVec 32
  tsb : BitVec 32
  /-- target format of the scale entry, read at issue (quantise only) -/
  tfmt : BitVec 4 := 0
deriving DecidableEq, Repr

/-- The grouped descriptor of `mmg` (R381). -/
structure GroupDesc where
  w : BitVec 60
  ks : Nat
  half : Nat
  binch : Nat
  ret : Bool
  cnt : BitVec 6
  wstr : BitVec 32
deriving DecidableEq, Repr

/-- A matrix operation in an issue queue (R370). -/
structure MatOp where
  id : Nat
  ctx : Nat
  /-- generation of the continuation that issued it (R100); none when a trigger did -/
  gen : Option Nat
  region : BitVec 24
  pc : BitVec 60
  /-- emitted index of its slot (R101) -/
  slot : BitVec 3 := 0
  q : Nat
  tile : Nat
  sparse : Bool
  /-- element formats of A and B as `EFMT` codes (R223) -/
  fa : Nat
  fb : Nat
  /-- format word of a scaled form -/
  fw : Option (BitVec 10)
  z : Bool
  ck : Bool
  /-- operand word: expected tags and transposition -/
  word : Word
  a : Option Claim
  b : Option Claim
  grp : Option GroupDesc
  epi : Option EpiDesc
  /-- group of a grouped operation now running, with its steps retired and its rows -/
  group : Option Nat := none
  step : Nat := 0
  rows : Nat := 16
  /-- the step is in the array -/
  running : Bool := false
  /-- the epilogue of its last group has not read the tile yet -/
  epiWait : Bool := false
  /-- it has failed: its place waits for its notice only -/
  failed : Bool := false
  /-- epilogues of its groups that have not finished -/
  out : Nat := 0
  /-- rows that its groups have stored -/
  stored : Nat := 0
  /-- the half that it reads became Idle meanwhile (R384) -/
  idled : Bool := false
  /-- a fault found after issue that is not delivered yet (R100, R390, R391): cause and `tval` -/
  fault : Option (BitVec 8 × Word) := none
  /-- reproducible mode of the issuing context -/
  rm : Bool := false
  /-- issued while the context ran paired (R441) -/
  paired : Bool := false
  /-- translations that it has made (R121) -/
  tlbs : List Tlb := []
deriving DecidableEq, Repr

/-- The step in the array (R371). -/
structure MatRun where
  op : Nat
  /-- cycles left before retirement -/
  left : Nat
  /-- new tile contents, formed at operand fetch -/
  result : List (BitVec 32)
  /-- the totals of R391 differ -/
  bad : Bool := false
deriving DecidableEq, Repr

/-- An entry of the epilogue queue (R385, R386). -/
structure EpiEntry where
  /-- 0 epilogue of a multiply, 1 `mepi` or `mtst`, 2 `mtld` -/
  kind : Nat
  ctx : Nat
  region : BitVec 24
  gen : Option Nat
  tile : Nat
  desc : EpiDesc
  /-- operation of a multiply's epilogue -/
  op : Option Nat := none
  rowBase : Nat := 0
  rows : Nat := 16
  progress : Nat := 0
  /-- the tile, the biases, the scale and the tables as read when its turn came -/
  data : Option (List (BitVec 32)) := none
  dec : Tab DecTable := []
  cur : Tab (List Segment) := []
  bias : List (BitVec 32) := []
  scl : BitVec 32 := 0
  amax : BitVec 32 := 0
  /-- source address and stride of `mtld` -/
  src : BitVec 60 := 0
  /-- the last step has not retired yet: the place is only reserved -/
  reserved : Bool := false
  /-- number of the operation among those of the core -/
  id : Nat := 0
  /-- reproducible mode of the issuing context -/
  rm : Bool := false
  /-- issued while the context ran paired (R441) -/
  paired : Bool := false
  /-- translations that it has made (R121) -/
  tlbs : List Tlb := []
deriving DecidableEq, Repr

/-- The engine that reads a packet, beside its source (R25): the streamer of a cluster, of a bulk stack, or of the host port. -/
inductive Streamer where
  | cluster (k : Nat)
  | bulk (d : Nat)
  | host
deriving DecidableEq, Repr

/-- A copy that has not ended (R395 to R403). -/
structure Copy where
  id : Nat
  ctx : Nat
  region : BitVec 24
  opn : BitVec 16
  src : BitVec 60
  dst : BitVec 60
  rows : Nat
  len : Nat
  sstr : Word
  dstr : Word
  tag : BitVec 6
  cq : BitVec 2
  mb : Bool
  deadline : Option Nat
  /-- ring of a `copyr` and the entry it has claimed -/
  ring : Option Nat := none
  entry : Option Nat := none
  /-- the request has left the command queue -/
  requested : Bool := false
  /-- packets landed, packets whose reads will never start, packets that their streamers have read and pushed (R25, R399, R400) -/
  landed : List Nat := []
  dropped : List Nat := []
  held : List (Nat × List Byte) := []
  stat : BitVec 8 := 0
  /-- a `ccan` or a timeout is on its way to the streamers -/
  cancelling : Option (BitVec 8) := none
  rm : Bool := false
  /-- translations that it has made (R121) -/
  tlbs : List Tlb := []
deriving DecidableEq, Repr

/-- An entry of the command queue (R395). -/
inductive Cmd where
  /-- a copy's request -/
  | copy (id : Nat)
  /-- a send, end-of-stream or broadcast: channel key, endpoint, source, tags, and the translations made at issue (R121) -/
  | send (ch ep : Nat) (src : BitVec 60) (token bcast : Bool) (ltag itag : BitVec 6) (ctx : Nat) (region : BitVec 24) (tlbs : List Tlb)
  /-- a continuation record on its way to a core or cluster -/
  | rcd (c : Cont) (target : Nat)
  /-- a mailbox post to another core: its context, its region, and the tag of its tenant (R222) -/
  | post (m : Msg) (target : Nat) (ctx : Nat) (region : BitVec 24) (tag : BitVec 7)
deriving DecidableEq, Repr

/-- A frame of extension migration in a frame queue (R201): the words of the frame and the extension block. -/
structure FrameMsg where
  words : List Word
  region : BitVec 24
deriving DecidableEq, Repr

/-- Operating bin of a core (R444). -/
inductive Bin where
  | nominal | vPlus | cMinus | retired
deriving DecidableEq, Repr

/-- Pairing state of a context (R434 to R440). -/
structure Pair where
  twinCore : Nat
  twinCtx : Nat
  primary : Bool
  /-- [64; 12 R276; 0] fingerprint -/
  fp : Word := 0
  /-- [64; 20 R434; 0] engine fingerprint -/
  efp : Word := 0
  /-- completed bundles since the last compare point -/
  count : Nat := 0
  /-- values that this primary has asked for since the checkpoint -/
  issued : Nat := 0
  /-- results not yet folded: the number of a value that has not arrived, or the value (R276) -/
  foldq : List (Option Nat × Vec) := []
  /-- number of the first value after the checkpoint -/
  ckBase : Nat := 0
  /-- values of the replay buffer that this twin has taken -/
  taken : Nat := 0
  /-- [-; 20 R436; none] checkpoint: frame image, the log's `TAIL`, shadowed tiles -/
  ckpt : List Word := []
  ckTail : BitVec 48 := 0
  shadow : Tab (List (BitVec 32)) := []
  /-- [-; 20 R436; 0] number of the first matrix operation issued after the checkpoint -/
  ckOp : Nat := 0
  /-- [16 KiB; 20 R436; empty] replay buffer -/
  replay : Tab Vec := []
  /-- the twin has reached the compare point and waits -/
  waiting : Bool := false
  /-- agreement has been reached for the bundle that waited -/
  agreed : Bool := false
  /-- 0 first run, 1 re-run, 2 third run in progress, 3 re-run after a tie-break -/
  phase : Nat := 0
  /-- bundles to complete before the re-run reaches its compare point -/
  goal : Nat := 0
  /-- core and context of the tie-breaker in a third run (R438) -/
  tie : Option (Nat × Nat) := none
  /-- lowest and highest address of the epilogue stores, since the checkpoint, of operations issued before the pairing (R441) -/
  wrote : Option (Nat × Nat) := none
deriving DecidableEq, Repr

/-- A suspension whose bundle has taken all its other effects: what its fence holds back (R178, R419). -/
inductive Susp where
  | yield
  /-- `migr` to a home core -/
  | migr (n : Nat)
deriving DecidableEq, Repr

/-- What an engine operation or a new continuation still waits for after the issue of its bundle: the accesses that earlier slots of
that bundle have made (R174, R178). -/
structure Gate where
  ctx : Nat
  /-- number of the bundle, as `latSeq` counts them -/
  bun : Nat
  /-- logged lines that it reads, of which the bundle has appended records below the sequence number `tail` -/
  lines : List Nat := []
  tail : BitVec 48 := 0
deriving DecidableEq, Repr

/-- A hardware context (R61, R86). -/
structure Ctx where
  /-- [state; 08 R186; off for workers, running for context 0 (DESIGN CHOICE, log 3)] -/
  mode : CtxMode := .off
  /-- [1; 08 R187; 0] a deferred reap -/
  reap : Bool := false
  /-- [60; 03 R77; no PC: DESIGN CHOICE 0, log 3] -/
  pc : BitVec 60 := 0
  /-- [32 x 64; 03 R61, R77; 0] x0 to x31; x0 reads zero -/
  x : Vector Word 32 := Vector.replicate 32 0
  /-- [32 x 128; 03 R61, R77; 0] v0 to v31 -/
  v : Vector Vec 32 := Vector.replicate 32 0
  /-- [8 x 1; 03 R61, R77; p1 to p7 false] p0 to p7; p0 reads true -/
  p : BitVec 8 := 0
  /-- [8 x 16; 03 R61, R70, R77; all ones] m0 to m7; m0 reads all ones -/
  m : Vector (BitVec 16) 8 := Vector.replicate 8 0xFFFF
  /-- [4 x 128; 03 R61, R77; contents of an invalid latch: DESIGN CHOICE 0, log 3] bypass latches q0 to q3 -/
  q : Vector Vec 4 := Vector.replicate 4 0
  /-- [4 x 1; 03 R71, R77; invalid] valid bits of the latches -/
  qv : BitVec 4 := 0
  /-- [4 x 64; 03 R74, R77; 0] shadow registers y0 to y3 -/
  y : Vector Word 4 := Vector.replicate 4 0
  /-- [8 x 64; 03 R68; 0] stream binding words of v24 to v31 -/
  bind : Vector Word 8 := Vector.replicate 8 0
  /-- [24; 04 R86; 0] `region`, 0x005 -/
  region : BitVec 24 := 0
  /-- [64; 04 R86, R89; PRV from the context number and core kind, else 0] `status`, 0x010 -/
  status : Word := 0
  /-- [5; 04 R86, R90; 0] `fflags`, 0x011 -/
  fflags : BitVec 5 := 0
  /-- [2; 04 R86, R90; 0] `frm`, 0x012 -/
  frm : BitVec 2 := 0
  /-- [64, 14 used; 04 R86, R92; 0] `tiles`, 0x013 -/
  tiles : Word := 0
  /-- [64; 04 R86, R93; 0] `lc`, 0x018 -/
  lc : Word := 0
  /-- [8 x 8 words; 16 R366; none] pattern descriptors of the bound registers, as `sbind` read them -/
  pat : Tab (List Word) := []
  /-- [-; 16 R367; none] number, as `latSeq` counts them, of the bundle that bound each pattern -/
  patAt : Tab Nat := []
  /-- [60; 04 R86; 0] `ls`, 0x019 -/
  ls : BitVec 60 := 0
  /-- [60; 04 R86; 0] `le`, 0x01A -/
  le : BitVec 60 := 0
  /-- [60; 04 R86; 0] `ulvec`, 0x020 -/
  ulvec : BitVec 60 := 0
  /-- [60; 04 R86; 0] `uepc`, 0x021 -/
  uepc : BitVec 60 := 0
  /-- [64; 04 R86; 0] `uval`, 0x022 -/
  uval : Word := 0
  /-- [64; 04 R86, R101; 0] `cause`, 0x080 -/
  cause : Word := 0
  /-- [60; 04 R86; 0] `epc`, 0x081 -/
  epc : BitVec 60 := 0
  /-- [64; 04 R86; 0] `tval`, 0x082 -/
  tval : Word := 0
  /-- [60; 04 R86; 0] `tframe`, 0x083 -/
  tframe : BitVec 60 := 0
  /-- [60; 04 R86; 0] `tvec`, 0x084 -/
  tvec : BitVec 60 := 0
  /-- [60; 04 R86; 0] `npc`, 0x085 -/
  npc : BitVec 60 := 0
  /-- [64; 21 R466; 0] `mhb`, 0x102, on service cores -/
  mhb : Word := 0
  /-- [1; 21 R466; H: DESIGN CHOICE 0, log 3] new-image bit of `mstat` -/
  newImage : Bool := false
  /-- [1; 08 R78, 19 R419; 0] `M` of the record that the context was dispatched from -/
  recM : Bool := false
  /-- [1; 08 R78, 19 R419; 0] `X` of that record, or of a suspension on an extension core -/
  recX : Bool := false
  /-- [8; 08 R78, 19 R419; 0] `HOP` of that record -/
  hop : BitVec 8 := 0
  /-- [1; 08 R201; 0] the continuation runs on a core reached by extension migration -/
  onExt : Bool := false
  /-- [32; 03 R64; 0] pending marks of x registers -/
  pendX : BitVec 32 := 0
  /-- [32; 03 R64; 0] pending marks of v registers -/
  pendV : BitVec 32 := 0
  /-- [4; 03 R64, R74; 0] pending marks of y registers, which a user-level handler names x1 to x4 -/
  pendY : BitVec 4 := 0
  /-- [4; 03 R64, R71; 0] latches that await a pending result -/
  pendQ : BitVec 4 := 0
  /-- [-; the model's own: number of the bundle whose results the latches hold, R71; 0] -/
  latSeq : Nat := 0
  /-- [64 bytes; 08 R182; empty] fetch buffer -/
  fbuf : FetchBuf := .empty
  /-- [-; 08 R182, R183; none] outstanding line request: line address and moment of the request -/
  freq : Option (Nat × Nat) := none
  /-- [-; 05 R120; none] translation miss of the next bundle -/
  tlb : TlbWait := .none
  /-- [-; 07 R163; none] acquire slots of the next bundle that have completed, and the log set of the one that waits, fixed when it was
  issued -/
  acq : Option (Nat × Option (List Point)) := none
  /-- [-; 07 R166; none] line address of the own-view load that is waiting -/
  ownLine : Option Nat := none
  /-- [-; 08 R416; none] outcome that the wake of this continuation carries to its first bundle -/
  wake : Wake := .none
  /-- [-; 08 R185; none] issue cycles for which a `realign` has held the context -/
  realign : Option Nat := none
  /-- [1; 08 R185; 0] a `realign` has been released and its bundle completes next -/
  realigned : Bool := false
  /-- [8; 08 R185; 0] count n of the `realign` that holds the context -/
  realignN : Nat := 0
  /-- [-; 03 R81; none] stop that waits for pending results -/
  stop : Option StopReq := none
  /-- [-; 07 R178, 19 R419; none] the suspension of the bundle before, which waits for its fence -/
  susp : Option Susp := none
  /-- [-; 16 R367; empty] elements that pattern bindings have read ahead: register number and elements -/
  ahead : Tab (List Vec) := []
  /-- [-; 20 R442, R443; none] register errors: identifier and whether correctable (input from outside) -/
  regErr : List (BitVec 8 × Bool) := []
  /-- [-; 20 R434; none] pairing -/
  pair : Option Pair := none
  /-- [-; 04 R100; 0] generation of the continuation that occupies the context -/
  gen : Nat := 0
  /-- [-; 11 R252; none] the table loads of this thread's bundle that have taken effect; what the tables held before -/
  loaded : List OldTable := []
  /-- [-; 05 R123, 19 R431; none] number of the invalidation that the bundle waits for -/
  inv : Option Nat := none
  /-- [-; 12 R270; none] deadlines of the `waitct` slots that forfeit, by emitted index, as their first issue fixed them -/
  dues : Tab Nat := []
deriving DecidableEq, Repr

/-- A compute core (R20) or service core (R14). -/
structure Core where
  /-- [16; 08 R186] hardware contexts -/
  ctxs : Vector Ctx 16
  /-- [64; 04 R87; 0] `cycle` -/
  cycle : Nat := 0
  /-- [-; 06 R130; 0] cycles left of a correctable-error freeze -/
  freeze : Nat := 0
  /-- [64; 05 R109; 0] translation root word, offset 0x000 -/
  root : Word := 0
  /-- [32 entries; 05 R119; empty] micro-TLB -/
  utlb : List Tlb := []
  /-- [-; 07 R145] active log -/
  log : Log := {}
  /-- [8192 records; 07 R158; empty] home pending record store, slice offsets 0x1C0000 to 0x1FFFFF -/
  home : List HomeRec := []
  /-- [16 lines; 07 R167; empty] logged-read buffer: line address and bytes -/
  rbuf : List (Nat × List Byte) := []
  /-- [48 entries; 08 R191; empty] arrival queue -/
  aq : List Cont := []
  /-- [64; 08 R193; F: DESIGN CHOICE 0, log 91] arrival spill descriptor, offset 0x540 -/
  aspill : Word := 0
  /-- [15-bit count and records; 08 R193, R194; empty] spill ring; its length is `COUNT`, offset 0x548 -/
  spilled : List Cont := []
  /-- [-; 08 R193, R194; 0] number of the next record that enters the spill ring, which gives it its place there (log 11) -/
  spillTail : Nat := 0
  /-- [-; 08 R192, R196; none] cycle in which the dispatcher has last taken a record or frame -/
  dispAt : Option Nat := none
  /-- [-; 08 R195, R196; none] cycle of the last refill -/
  refAt : Option Nat := none
  /-- [-; 08 R196; none] cycle in which the router port has last given the arrival path a record -/
  arrAt : Option Nat := none
  /-- [-; 09 R222; none] cycle in which the router port has last given the mailbox a message -/
  mailAt : Option Nat := none
  /-- [64 entries; 08 R203; empty] wait list -/
  waits : List WaitEntry := []
  /-- [64 entries; 04 R96; empty] notice queue -/
  notices : List Notice := []
  /-- [64 messages; 09 R221; empty] mailbox -/
  mail : List Msg := []
  /-- [32; 06 R142] operand rings -/
  rings : Tab Ring := []
  /-- [64; 12 R261] arrival counters -/
  ctrs : Tab Counter := []
  /-- [-; 12 R268; empty] trigger actions that wait -/
  acts : List TrigAct := []
  /-- [16 slots; 19 R423; empty] staged engine commands -/
  staged : Tab Staged := []
  /-- [8; 12 R277] performance counters -/
  perf : Vector Perf 8 := Vector.replicate 8 {}
  /-- [4; 11 R244, R249; the firmware defaults] decode tables dt0 to dt3 -/
  dec : Tab DecTable := []
  /-- [4; 11 R250; one segment of zeros] curve tables cv0 to cv3 -/
  cur : Tab (List Segment) := []
  /-- [-; 11 R253; none] region that has last loaded each curve table -/
  curOwner : Tab Nat := []
  /-- [-; 11 R252; none] table loads that have not taken effect -/
  tload : List TableLoad := []
  /-- [32 x 256 x 32; 03 R76; contents: DESIGN CHOICE 0, log 3] accumulator tiles a0 to a31, row by row -/
  acc : Tab (List (BitVec 32)) := []
  /-- [32; 03 R76; 0] busy bits of the tiles -/
  busy : BitVec 32 := 0
  /-- [2 x 2 places; 17 R370; empty] matrix issue queues, oldest first -/
  mat : List MatOp := []
  /-- [3; 17 R372; 0] `n0` -/
  n0 : Nat := 0
  /-- [-; 17 R371; none] step in the array -/
  run : Option MatRun := none
  /-- [4 places; 17 R386; empty] epilogue queue -/
  epi : List EpiEntry := []
  /-- [16 entries; 18 R395; empty] command queue -/
  cmdq : List Cmd := []
  /-- [64; 18 R395; empty] copies that have not ended -/
  copies : List Copy := []
  /-- [-; 07 R174, R178; none] accesses of their own bundles that engine operations wait for before they start -/
  gates : List Gate := []
  /-- [8 entries; 08 R201; empty] frame queue -/
  frames : List FrameMsg := []
  /-- [64; 20 R448; 0] Chronograph request word, offset 0x3000 -/
  chReq : Word := 0
  /-- [64; 20 R448; 0] Chronograph status word, offset 0x3008 -/
  chStat : Word := 0
  /-- [16 x 8 x 64; 20 R448; 0] Chronograph record slots, offsets 0x3040 to 0x343F -/
  chRecs : List Word := []
  /-- [-; 20 R444; Nominal] operating bin -/
  bin : Bin := .nominal
  /-- [1; 08 R198, 20 R444; 0] out of service -/
  oos : Bool := false
  /-- [-; 20 R444; none] moment of the last suspect or marginal event -/
  suspect : Option Nat := none
  /-- [-; 17 R391; none] errors of the array in its next step (input from outside): elements of the tile and wrong codes -/
  arrErr : List (Nat × BitVec 32) := []
  /-- [-; 08 R208; empty] regions whose halt has reached the core, with the cycle in which it did -/
  halted : List (Nat × Nat) := []
  /-- [-; 20 R435; 0] next number of matrix operations and copies -/
  nextId : Nat := 0
  /-- [-; 20 R444; none] moments of the corrected errors of the slice's banks in the last 30 days -/
  bankErrs : Tab (List Nat) := []
  /-- [-; 20 R444; none] bin to which firmware will move the core -/
  binNext : Option Bin := none
deriving DecidableEq, Repr

/-- A page walk in progress (R121): tenant tag, root word, address; whether a walker reads its tables now. -/
structure Walk where
  tag : BitVec 7
  root : Word
  va : Nat
  /-- one of the die's walkers has taken it (R121) -/
  on : Bool := false
deriving DecidableEq, Repr

/-- A line on its way from the fetch port to the fetch buffers (R183): tag, line address, moment, and what it brings to each context
whose request was outstanding when it was served. -/
structure Delivery where
  tag : BitVec 7
  va : Nat
  recips : List (Nat × Nat × FetchBuf)
  since : Nat
deriving DecidableEq, Repr

/-- A choice of a routing job (R410, R411). -/
structure Choice where
  tok : Nat
  j : Nat
  exp : Nat
  first : Nat
  reroutes : Nat := 0
  /-- 0 unresolved, 1 granted, 2 dropped -/
  st : Nat := 0
  /-- waits for the answer to its request -/
  asked : Bool := false
  /-- refused in this round -/
  refused : Bool := false
  round : Nat := 0
  slot : Nat := 0
  copy : Nat := 0
  /-- experts that the token has requested through this choice -/
  tried : List Nat := []
deriving DecidableEq, Repr

/-- A job of the token router (R409 to R413). -/
structure Job where
  core : Nat
  ctx : Nat
  region : BitVec 24
  close : Bool
  layer : Nat
  half : Nat
  scores : BitVec 60 := 0
  rows : BitVec 60 := 0
  rrec : BitVec 60 := 0
  ntok : Nat := 0
  k : Nat := 0
  tokb : Nat := 0
  tile : Option Nat := none
  cqr : Bool := false
  cnt : BitVec 6 := 0x3F
  sstr : Nat := 0
  rstr : Nat := 0
  /-- directory entry as read at issue: number of experts, ordered mode, last round, table base, sources -/
  nexp : Nat := 0
  ord : Bool := false
  rnd : Nat := 0
  base : BitVec 60 := 0
  /-- progress -/
  started : Bool := false
  round : Nat := 0
  /-- every round has been run -/
  done : Bool := false
  choices : List Choice := []
  /-- ranking of the experts and scores for each token -/
  ranks : List (List Nat) := []
  /-- expert entries as read: the status of a failure, and the words (R238, R243) -/
  ents : List (BitVec 8 × List Word) := []
  scoreBits : List (List (BitVec 32)) := []
  /-- rows sent that have not landed -/
  rowsOut : Nat := 0
  stat : BitVec 8 := 0
  /-- translations that it has made (R121) -/
  tlbs : List Tlb := []
deriving DecidableEq, Repr

/-- A cluster (R19). -/
structure Cluster where
  /-- [4096 entries; 05 R119; empty] cluster TLB -/
  tlb : List Tlb := []
  /-- [-; 05 R121; empty] walks in flight and waiting, in arrival order; the first 8 are in flight -/
  walks : List Walk := []
  /-- [64 KiB; 08 R182; empty] instruction cache: tag, line address, slots -/
  icache : List (BitVec 7 × Nat × List SlotWord) := []
  /-- [-; 08 R183; empty] line fills in progress: tag, root word, line address -/
  fills : List Walk := []
  /-- [-; 08 R183; empty] lines served and not yet delivered -/
  delivs : List Delivery := []
  /-- [1024 x 64; 12 R271; contents: DESIGN CHOICE 0, log 3] sync cells -/
  cells : Tab Word := []
  /-- [64; 12 R271; 0] cluster cell window -/
  window : Word := 0
  /-- [-; 08 R198; empty] records that wait at the dispenser -/
  disp : List Cont := []
  /-- [8 entries; 18 R395; empty] route queue -/
  routes : List Job := []
  /-- [-; 18 R413; empty] grants since the last close, by region, layer, half and expert -/
  grants : Tab Nat := []
  /-- [-; 18 R409, R411; empty] ordered routes not yet closed, by region, layer and half -/
  opened : List Nat := []
  /-- [512; 12 R273; 512] free bin reservoirs -/
  freeResv : Nat := 512
  /-- [1; 21 R469; 0] clocks stopped by firmware -/
  stopped : Bool := false
  /-- [-; 08 R198; none] cycle in which the dispenser has last placed a record -/
  dispAt : Option Nat := none
  /-- [-; 01 R17, 10 R240; none] cycle in which permit requests have last reached owners of the cluster, and the input port of the last -/
  permAt : Option (Nat × Nat) := none
deriving DecidableEq, Repr

/-- An element of a channel's buffer (R213, R214, R216). -/
structure Elem where
  src : Nat
  token : Bool
  /-- buffer slot that holds its bytes -/
  slot : Nat
  reserved : Bool := false
deriving DecidableEq, Repr

/-- A continuation parked in a waiter slot, with its core and the operands that it does not read again (R214, R416). -/
structure Waiter where
  cont : Cont
  core : Nat
  a : Word := 0
  d : Word := 0
deriving DecidableEq, Repr

/-- A send endpoint of an installed channel (R213, R235). -/
structure SendEp where
  pkg : Nat
  core : Nat
  efb : Nat
  credit : Nat
  /-- credits reserved for parked senders that have been woken -/
  reserved : Nat := 0
  eos : Bool := false
  waiter : Option Waiter := none
  /-- elements injected -/
  sent : Nat := 0
  /-- tag word of the endpoint's last `send`, whose counters its end-of-stream token counts at too (R265; log 103) -/
  tags : BitVec 12 := 0xFFF
deriving DecidableEq, Repr

/-- One half of a bin channel (R226, R383). -/
structure Half where
  /-- 0 Idle, 1 Filling, 2 Closed -/
  st : Nat := 0
  landed : List Nat := []
  consumed : List Nat := []
  /-- closing counts received: source number and count -/
  counts : Tab Nat := []
  size : Nat := 0
deriving DecidableEq, Repr

/-- What waits at a tree node (R218, R407): a member's own contribution to a set, or the result of node `node`; the members
combined so far, and the landing tags and packets of their sends. -/
structure TreePart where
  set : Nat
  node : Nat
  own : Bool
  data : List Byte
  ids : List Nat
  tags : List (BitVec 6 × Nat)
deriving DecidableEq, Repr

/-- An installed channel (R212 to R219, R235, R236). -/
structure Chan where
  kind : Nat
  state : Nat
  ef4 : Bool := false
  cqe : Bool := false
  op : Nat := 0
  fmt : Nat := 0
  shape : Nat
  depth : Nat
  rpkg : Nat
  rcore : Nat
  buf : Nat
  eps : List SendEp := []
  tree : BitVec 16 := 0
  cntr : BitVec 6 := 0x3F
  layer : Nat := 0
  expert : Nat := 0
  /-- physical address of the table entry, for `STATE` write-back -/
  entry : Nat := 0
  elems : List Elem := []
  /-- buffer slots in use -/
  used : List Nat := []
  popped : BitVec 32 := 0
  rwaiter : Option Waiter := none
  tokens : Nat := 0
  parts : List TreePart := []
  bcast : Bool := true
  bcastLeft : Nat := 0
  half0 : Half := {}
  half1 : Half := {}
deriving DecidableEq, Repr

/-- A permit request at an owner (R239, R240). -/
structure Permit where
  region : Nat
  layer : Nat
  expert : Nat
  half : Nat
  round : Nat
  pkg : Nat
  cluster : Nat
  tok : Nat
  j : Nat
deriving DecidableEq, Repr

/-- A bin reservoir of a primary owner (R239): the entry as read, and the progress of the batch half. -/
structure Resv where
  /-- words of the expert entry as the owner read them (R239, R243) -/
  ent : List Word
  left : Nat
  refusals : Nat := 0
  hinted : Bool := false
  /-- requests of ordered mode that are not answered yet -/
  asks : List Permit := []
  /-- declared sources, as package and cluster; ordered mode -/
  srcs : List (Nat × Nat) := []
  ord : Bool := false
  /-- cluster whose router holds the reservoir -/
  cluster : Nat := 0
deriving DecidableEq, Repr

/-- What is on its way through the mesh, to a controller, to a queue or back. -/
inductive Body where
  /-- a load that marks a register pending: context, destination (true v, register, 32 for none), size in bytes, signed, physical
  address, latch, page logged, lane mask and what excluded lanes keep -/
  | load (ctx : Nat) (isV : Bool) (reg : Nat) (size : Nat) (sgn : Bool) (pa : Nat) (latch : Option Nat) (logged : Bool)
      (mask : BitVec 16) (old : Vec)
  /-- a planed read: context, register, plane count, rounding form, saturation, plane-0 address, latch, page logged -/
  | planed (ctx reg n : Nat) (near sat : Bool) (pa : Nat) (latch : Option Nat) (logged : Bool)
  /-- a direct store to a bulk or host line: context, physical address, bytes and their enables; with a format, an add
  in place (R356) -/
  | store (ctx pa : Nat) (data : List Byte) (en : BitVec 16) (add : Option (BitVec 8))
  /-- a sync-cell operation: context, operation, cell, operands, destination -/
  | cell (ctx op cell : Nat) (b d : Word) (reg : Option Nat) (latch : Option Nat)
  /-- the write half of a planed update to bulk or host lines: context, physical address of plane 0, plane mask, plane bytes of each
  element (R360) -/
  | planes (ctx pa mask : Nat) (data : List Byte)
  /-- an operation on a scale entry: context, 0 fold, 1 commit, 2 calc, physical address of the entry, folded value -/
  | scale (ctx op pa : Nat) (val : BitVec 32)
  /-- the answer of an operation that has performed: context, destination, value, status predicate -/
  | result (ctx : Nat) (isV : Bool) (reg : Nat) (v : Vec) (p1 : Option Bool) (latch : Option Nat)
  /-- a log record on its way to its home -/
  | logRec (r : HomeRec)
  /-- a continuation record for a core or, with `toCluster`, a cluster -/
  | cont (c : Cont)
  /-- a mailbox message: the context whose post it is, its region, and the tag of its tenant (R222) -/
  | mail (m : Msg) (ctx : Option Nat) (region : BitVec 24) (tag : BitVec 7)
  /-- an element of a channel: channel key, endpoint, wire bytes written to the buffer, token, tags -/
  | elem (ch ep : Nat) (data : List Byte) (token : Bool) (ltag itag : BitVec 6) (packets : Nat) (k : Nat)
  /-- a broadcast element for one member -/
  | bcast (ch member : Nat) (data : List Byte) (ltag itag : BitVec 6) (packets : Nat)
  /-- a credit on its way back to a send endpoint -/
  | credit (ch ep : Nat)
  /-- acknowledgements for an issue tag -/
  | ack (tag : BitVec 6) (n : Nat) (region : BitVec 24)
  /-- a receive that has popped its element -/
  | recv (ctx reg ch : Nat) (e : Elem) (dst : Option (List (Nat × Nat))) (k : BitVec 32)
  /-- a permit request, a round close, an answer -/
  | permit (r : Permit)
  | roundClose (region layer expert half round source : Nat)
  | answer (r : Permit) (granted : Bool) (slot copy : Nat)
  /-- a token row for a bin slot of an expert of a layer -/
  | row (ch half slot : Nat) (data : List Byte) (cluster : Nat) (packets : Nat) (layer expert : Nat)
  /-- a closing count for an expert of a layer -/
  | closing (ch half source count : Nat) (replica : Bool) (layer expert : Nat)
  /-- a completion record for a region's queue: words 0 to 3 without the phase -/
  | record (region : Nat) (w0 w1 w2 w3 : Word) (note core ctx : Nat)
deriving DecidableEq, Repr

/-- One item in flight: the core that sent it, the place it goes to (its order unit, R18, R134) and what it is. -/
structure Flight where
  src : Nat
  dst : Nat
  body : Body
  /-- number of the value among those that a primary sends to its secondary (R434) -/
  rep : Option Nat := none
  /-- address of the bundle that sent it -/
  pc : BitVec 60 := 0
  /-- invalidations that removed a translation through which it went (R123) -/
  marks : List Nat := []
  /-- generation of the continuation that sent it, and whether that was in its user-level handler (R74, R100) -/
  gen : Nat := 0
  uh : Bool := false
  /-- number of that bundle, and emitted index of the slot (R101, R174) -/
  bun : Nat := 0
  slot : BitVec 3 := 0
  /-- further order units that the access touches: those of planes 1 to 3 (R134, R139) -/
  also : List Nat := []
deriving DecidableEq, Repr

/-- An invalidation in progress (R122, R123, R431), or one that has completed and that an `xsync` may wait for. -/
structure Inv where
  id : Nat
  core : Nat
  ctx : Nat
  gen : Nat
  /-- 0 `xinvl`, 1 `xinvc`, 2 `xinva`, 3 `xinvt`, 4 `iinv`, 5 `iinva` -/
  kind : Nat
  tag : BitVec 7
  va : Nat
  /-- it has removed its entries -/
  done : Bool := false
deriving DecidableEq, Repr

/-- A region: its control block (R231) and what the scheduler and the hardware keep for it. -/
structure Region where
  /-- [52; 10 R231; 0] `PARENT`, here the parent's region number; none for the root -/
  parent : Option Nat := none
  /-- [1; 10 R231; 0] `RM` -/
  rm : Bool := false
  /-- [1; 10 R231; 0] `FDB` -/
  fdb : Bool := false
  /-- [5; 10 R231; inherit in the root] `PRIO` -/
  prio : BitVec 5 := 0x1F
  /-- [8; 10 R231; inherit] `FABR` -/
  fabr : BitVec 8 := 0xFF
  /-- [5; 10 R231; inherit] `WCTX` -/
  wctx : BitVec 5 := 0x1F
  /-- [6; 10 R231; inherit] `TILES` -/
  tiles : BitVec 6 := 0x3F
  /-- [32; 10 R231; inherit] `CONT` -/
  cont : BitVec 32 := 0xFFFFFFFF
  /-- [32; 10 R231; inherit] `SLICE` -/
  slice : BitVec 32 := 0xFFFFFFFF
  /-- [32; 10 R231; inherit] `LOGB` -/
  logb : BitVec 32 := 0xFFFFFFFF
  /-- [16; 10 R231; inherit] `DBND` -/
  dbnd : BitVec 16 := 0xFFFF
  /-- [32; 10 R231; inherit] `BULK` -/
  bulk : BitVec 32 := 0xFFFFFFFF
  /-- [60; 10 R231; 0] `HANDLER` -/
  handler : BitVec 60 := 0
  /-- [60; 10 R231; 0] `CHAN` -/
  chan : BitVec 60 := 0
  /-- [60; 10 R231; 0] `EXPD` -/
  expd : BitVec 60 := 0
  /-- [60; 10 R231; 0] `SCALE` -/
  scale : BitVec 60 := 0
  /-- [52; 10 R231; 0] `SAVE` -/
  save : BitVec 52 := 0
  /-- [60; 10 R231; 0] `CQ` -/
  cq : BitVec 60 := 0
  /-- [13; 10 R231; 0] `NCH` -/
  nch : BitVec 13 := 0
  /-- [16; 10 R231; 0] `PQ` -/
  pq : BitVec 16 := 0
  /-- [12; 10 R231; 0] `MSIX` -/
  msix : BitVec 12 := 0
  /-- [5; 10 R231; 0] `CQN` -/
  cqn : BitVec 5 := 0
  /-- [60; 10 R231; 0] `SAVEV` -/
  savev : BitVec 60 := 0
  /-- [7; 05 R109; 0] tag of the region's tenant -/
  tag : BitVec 7 := 0
  /-- [64; 05 R109; 0] translation root word of the region's tenant -/
  root : Word := 0
  /-- [1; 08 R208; 0] the region's own pre-empted state -/
  preempted : Bool := false
  /-- [1; 08 R211; 0] the pre-emption takes the tenant off its cores -/
  evict : Bool := false
  /-- [1; 10 R234, 19 R432; 0] the region has been killed or destroyed -/
  dead : Bool := false
  /-- [-; 01 R13, 10 R242; none] retired cores whose budget shares the Orrery has withdrawn -/
  noShare : List Nat := []
  /-- [-; 08 R189; 0] continuations that have not ended -/
  conts : Nat := 0
  /-- [-; 10 R242; 0] continuations that have reached the placement point -/
  placed : Nat := 0
  /-- [-; 09 R227, R228; 0] tail count of the completion queue -/
  cqTail : Nat := 0
  /-- [-; 08 R206; none] `time` since which the region has shown no activity -/
  idleSince : Option Nat := none
  /-- [1; 08 R207; 0] the deadlock of the present window has been raised -/
  deadRaised : Bool := false
deriving DecidableEq, Repr

/-- A region command that waits for the region scheduler or management firmware (R432, R455, R457). -/
structure RgCmd where
  words : List Word
  /-- issuer: core, context, destination register and issuing region; none for the PF -/
  from? : Option (Nat × Nat × Nat × BitVec 24)
  /-- translation root word of the issuing core, under which `IMG` is read -/
  root : Word := 0
  /-- latch of the issuer that awaits the answer -/
  latch : Option Nat := none
  /-- generation of the issuer, and whether it was in its user-level handler -/
  gen : Nat := 0
  uh : Bool := false
deriving DecidableEq, Repr

/-- State that a pre-emption saves for a region on one core (R209 to R211, R393). -/
structure Saved where
  core : Nat
  region : Nat
  /-- contexts whose frames lie in the save area, with whether they were stopped by a trap -/
  ctxs : List (Nat × Bool) := []
  queue : List Cont := []
  ctrs : Tab Counter := []
  cur : Tab (List Segment) := []
  acc : Tab (List (BitVec 32)) := []
  rings : Tab Ring := []
  mat : List MatOp := []
  epi : List EpiEntry := []
  /-- 0 saved, 1 restored but for its frames, 2 its frames are being restored (R211) -/
  phase : Nat := 0
deriving DecidableEq, Repr

/-- State that a tenant leaves behind on a core (R171, R211, R222, R253, R262). -/
structure SavedTenant where
  core : Nat
  tag : BitVec 7
  log : Log
  notices : List Notice
  aspill : Word
  spilled : List Cont
  queue : List Cont
  mail : List Msg
  dec : Tab DecTable
  cur : Tab (List Segment)
  ctrs : Tab Counter
  staged : Tab Staged
  rings : Tab Ring
  perf : Vector Perf 8
  steward : Ctx
  waits : List WaitEntry
  root : Word
  spillTail : Nat := 0
  curOwner : Tab Nat := []
  /-- bin reservoirs of the experts that the tenant's bins on this core own, by the number of their half (R273) -/
  resvs : Tab Resv := []
  /-- records that have reached the saved spill ring while the tenant was away (R197) -/
  late : Nat := 0
deriving DecidableEq, Repr

/-- A launch window (R453). -/
structure Window where
  /-- [512; 21 R453; 0 (write only: reads zero)] words of `REC` as last written -/
  words : Vector Word 8 := Vector.replicate 8 0
  /-- [64; 21 R453; 0] `TGT` -/
  tgt : Word := 0
  /-- [32; 21 R453; 0] `ACC` -/
  acc : BitVec 32 := 0
  /-- [32; 21 R453; 0] `REF` -/
  ref : BitVec 32 := 0
  /-- [64; 21 R453; 0] word 0x050: `EN` and `REGION` -/
  ctl : Word := 0
deriving DecidableEq, Repr

/-- The host event queue (R456, R457). -/
structure HostQueue where
  base : Nat
  n : Nat
  tail : Nat := 0
deriving DecidableEq, Repr

/-- A firmware body (R462 to R465, R99). -/
structure FwBody where
  /-- [1; 21 R466; F: DESIGN CHOICE 0, log 3] flash slot of the running image -/
  slot : BitVec 1 := 0
  /-- [32; 21 R462; DESIGN CHOICE 0, log 3] security version of the image in the other flash slot -/
  otherVersion : BitVec 32 := 0
  /-- [32; 21 R462; DESIGN CHOICE 0, log 3] security version of the running image -/
  version : BitVec 32 := 0
  /-- [32; 21 R462; DESIGN CHOICE 0, log 3] minimum version in module flash -/
  minVersion : BitVec 32 := 0
  /-- [-; 21 R463; none] probation: its start, the new image's version and its measure -/
  probation : Option (Nat × BitVec 32 × BitVec 256) := none
  /-- [-; 21 R464; 0] `time` of the last heartbeat of each service core of the body -/
  beats : Tab Nat := []
  /-- [1; 04 R99; 0] the running image has failed -/
  failed : Bool := false
deriving DecidableEq, Repr

/-- A Gomond port (R458): 0 down, else the lane generation. -/
structure Port where
  gen : Nat := 0
deriving DecidableEq, Repr

/-- The host link (R449, R450). -/
structure Link where
  up : Bool := false
  gen : Nat := 0
  width : Nat := 0
  cxlVer : Nat := 0
  cache : Bool := false
deriving DecidableEq, Repr

/-- An error that a storage array holds and no read has met yet: an input from outside the machine (R130, R131). -/
structure Ecc where
  line : Nat
  word : BitVec 3
  syndrome : BitVec 8
  fatal : Bool
deriving DecidableEq, Repr

/-- A Chronograph record (R446): its eight words. -/
abbrev ChRec := Vector Word 8

/-- A fault of a region that the scheduler has to deal with (R234). -/
structure RegFault where
  region : Nat
  code : BitVec 8
deriving DecidableEq, Repr

/-- Which agent moves next (plain data: the order of independent agents is not fixed by the spec). -/
inductive Move where
  /-- core c runs one cycle of its clock -/
  | cycle (c : Nat)
  /-- an event takes place -/
  | event (i : Instr)
deriving DecidableEq, Repr

/-- The state of the package. -/
structure State where
  /-- [4096 compute and 8 service; 01 R11, R14] cores; service core d has number 4096 + d -/
  cores : Tab Core := []
  /-- [512; 01 R12, R19] clusters -/
  clusters : Tab Cluster := []
  /-- [52-bit space; 05 R111, 06 R125, R136, R137; unlisted bytes read 0 (DESIGN CHOICE, log 2)] slice, bulk and host memory -/
  mem : List Host.Cell := []
  /-- [1 per line; 06 R131; none] poisoned lines -/
  poison : List Nat := []
  /-- [-; 06 R130, R131; none] latent errors of the storage arrays (input) -/
  ecc : List Ecc := []
  /-- [-; 06 R137; empty] line buffer at the host port: line number, bytes and the cores that wrote it -/
  hostBuf : List (Nat × List Byte × List Nat) := []
  /-- [-; 01 R18, 06 R134; empty] everything in flight, in the order it was injected -/
  flight : List Flight := []
  /-- [-; 05 R123; empty] invalidations in progress -/
  invs : List Inv := []
  /-- [-; 05 R123; 0] number of the next invalidation -/
  nextInv : Nat := 0
  /-- [8; 05 R121; 0] cluster of each die that has taken a walker last -/
  walkTurn : Tab Nat := []
  /-- [-; 10 R230; the root alone, region 0, with its save area at the end of bulk memory (DESIGN CHOICE, log 3)] region control
  blocks -/
  regions : Tab Region := [(0, { save := 0x1007FFB800000 })]
  /-- [-; 10 R235, R236; none] installed channels, by region times 4096 plus channel number -/
  chans : Tab Chan := []
  /-- [-; 10 R239, 12 R273; none] reservoirs in use, by region, layer, expert and half -/
  resvs : Tab Resv := []
  /-- [-; 10 R240; none] rounds of ordered mode by number of the half: the round now gathering, and the closes that have come, as 4
  times the source's index plus the round -/
  rounds : Tab (Nat × List Nat) := []
  /-- [-; 10 R239; empty] permit requests that wait for a Closed half or a free reservoir -/
  permits : List Permit := []
  /-- [-; 09 R218, 21 R459; none] spanning trees installed through the fabric firmware: children of each node (input) -/
  trees : Tab (List (List Nat)) := []
  /-- [-; 08 R208 to R211; empty] saved state of pre-empted regions -/
  saved : List Saved := []
  /-- [-; 07 R171, 08 R211; empty] saved state of tenants -/
  tenants : List SavedTenant := []
  /-- [-; 19 R432; empty] region commands waiting for the scheduler -/
  cmds : List RgCmd := []
  /-- [-; 10 R234; empty] region faults waiting for the scheduler -/
  faults : List RegFault := []
  /-- [-; 21 R449; down] host link -/
  link : Link := {}
  /-- [36; 21 R458; down] Gomond ports -/
  ports : Tab Port := []
  /-- [128; 21 R453] launch windows -/
  windows : Tab Window := []
  /-- [512; 21 R451, R455; 0] PF command block -/
  pf : Vector Word 8 := Vector.replicate 8 0
  /-- [64; 21 R452; F: DESIGN CHOICE 0, log 91] host-managed window word -/
  hostWin : Word := 0
  /-- [-; 21 R456; none] host event queue -/
  hostq : Option HostQueue := none
  /-- [-; 09 R228; empty] MSI-X messages sent to the host: tenant tag, which is the number of the function (R449), and vector -/
  msix : List (BitVec 7 × BitVec 12) := []
  /-- [-; 21 R462; empty] staged firmware image: offset and bytes -/
  staging : Tab Byte := []
  /-- [3; 21 R462] firmware bodies: 0 management, 1 scheduler, 2 fabric -/
  bodies : Tab FwBody := []
  /-- [256; 21 R465; 0] measurement register -/
  meas : BitVec 256 := 0
  /-- [20; 21 R467; 0] next leaf of the attestation key, in module flash -/
  leaf : Nat := 0
  /-- [4,194,304 x 512; 20 R445; empty] the Chronograph, newest first -/
  chrono : List ChRec := []
  /-- [1; 20 R445; 0] the record of kind 0x0D has been appended -/
  chLeftOut : Bool := false
  /-- [32 each; 12 R278; 0] corrected errors by slice bank (16 times core plus bank), HBM4E stack (65536 plus stack) and month -/
  lifeCorr : Tab Nat := []
  /-- [32 per bin; 12 R278; 0] temperature histogram, 25 bins of 5 C for each die -/
  lifeTemp : Tab Nat := []
  /-- [64 bytes each; 12 R278; empty] operating-bin history, as records of eight words (log 102) -/
  lifeBin : List (Vector Word 8) := []
  /-- [-; 12 R278; 0] nanoseconds of powered time base before the present power-on, in module flash -/
  powered : Nat := 0
  /-- [8; 12 R278; none] moment of the last temperature count of each die -/
  tempAt : Tab Nat := []
  /-- [32; 12 R278; 0] pair divergences of each buddy pair: resolved and unresolved -/
  lifePair : Tab (Nat × Nat) := []
  /-- [64; 04 R88; firmware's value: free, log 6] `time` in ns -/
  time : Nat := Config.timeStart
  /-- [-; 12 R275; 0] rate adjustment in ppm -/
  ppm : Int := 0
  /-- [18; 04 R86; firmware's value: free, log 7] `pkg` -/
  pkg : BitVec 18 := Config.pkgNumber
  /-- [1; 21 R469; 0] shut down for temperature -/
  shut : Bool := false
  /-- [-; the model's own: which core runs the next cycle; DESIGN CHOICE 0, log 1] -/
  turn : Nat := 0
  /-- [-; the model's own: moves that come before the schedule; empty, log 1] -/
  agenda : List Move := []
  /-- [-; the model's own: steps taken, the index of free values, and by its parity whose the next free step is; DESIGN CHOICE 0, logs 1, 9] -/
  steps : Nat := 0
deriving DecidableEq, Repr

/-- Privilege of a context: M on a service core, S for the steward, U for workers (R83). -/
def prvOf (core ctx : Nat) : Word := if core < 4096 then (if ctx = 0 then 1 else 0) else 3

/-- A context after reset (R77, R86, R186). A service core keeps one context free (R15): context 15 (DESIGN CHOICE, log 3). -/
def Ctx.reset (core ctx : Nat) : Ctx :=
  { mode := if ctx = 0 ∨ (4096 ≤ core ∧ ctx ≠ 15) then .running else .off, status := prvOf core ctx }

/-- A core after reset. -/
def Core.reset (core : Nat) : Core := { ctxs := Vector.ofFn (fun i => Ctx.reset core i.val) }

/-- The machine right after reset. -/
def State.reset : State := {}

end Sys2Proof.Machine
end

