-- ==== Sys2Proof/Machine/Ops.lean ====
section
/-! DEFINITION. Named operations over the state: parts of the package, memory, registers, notices, the log, taking a trap and
returning from one. -/

namespace Sys2Proof.Machine

/-- The three outcomes of a step. -/
abbrev Out := Host.Outcome State Fault Refusal

/-! ### Parts of the package -/

/-- Core c (service core d is 4096 + d). -/
def State.core (s : State) (c : Nat) : Core := s.cores.getD c (Core.reset c)

/-- Replaces core c. -/
def State.setCore (s : State) (c : Nat) (k : Core) : State := { s with cores := s.cores.set c k }

/-- Changes core c. -/
def State.modCore (s : State) (c : Nat) (f : Core → Core) : State := s.setCore c (f (s.core c))

/-- Context t (below 16) of core c. -/
def State.ctx (s : State) (c t : Nat) : Ctx := (s.core c).ctxs[t % 16]'(Nat.mod_lt _ (by decide))

/-- Replaces context t of core c. -/
def State.setCtx (s : State) (c t : Nat) (x : Ctx) : State :=
  s.modCore c (fun k => { k with ctxs := k.ctxs.set (t % 16) x (Nat.mod_lt _ (by decide)) })

/-- Changes context t of core c. -/
def State.modCtx (s : State) (c t : Nat) (f : Ctx → Ctx) : State := s.setCtx c t (f (s.ctx c t))

/-- Cluster k. -/
def State.cluster (s : State) (k : Nat) : Cluster := s.clusters.getD k {}

/-- Changes cluster k. -/
def State.modCluster (s : State) (k : Nat) (f : Cluster → Cluster) : State :=
  { s with clusters := s.clusters.set k (f (s.cluster k)) }

/-- A region's control block; a number that no region has reads as a region without budgets of its own. -/
def State.region (s : State) (r : Nat) : Region := s.regions.getD r { parent := some 0 }

/-- Changes a region that exists. -/
def State.modRegion (s : State) (r : Nat) (f : Region → Region) : State :=
  match s.regions.get? r with
  | some g => { s with regions := s.regions.set r (f g) }
  | none => s

/-- Key of channel ch of region r. -/
def chanKey (r ch : Nat) : Nat := r * 4096 + ch

/-- Changes an installed channel. -/
def State.modChan (s : State) (k : Nat) (f : Chan → Chan) : State :=
  match s.chans.get? k with
  | some c => { s with chans := s.chans.set k (f c) }
  | none => s

/-- Ring r of a core. -/
def Core.ring (k : Core) (r : Nat) : Ring := k.rings.getD r {}

/-- Changes ring r. -/
def Core.modRing (k : Core) (r : Nat) (f : Ring → Ring) : Core := { k with rings := k.rings.set r (f (k.ring r)) }

/-- Counter n of a core. -/
def Core.ctr (k : Core) (n : Nat) : Counter := k.ctrs.getD n {}

/-- Changes counter n. -/
def Core.modCtr (k : Core) (n : Nat) (f : Counter → Counter) : Core := { k with ctrs := k.ctrs.set n (f (k.ctr n)) }

/-- Contents of physical tile n: 256 FP32 codes, row by row. -/
def Core.tile (k : Core) (n : Nat) : List (BitVec 32) := k.acc.getD n (List.replicate 256 0)

/-- Replaces the contents of tile n. -/
def Core.setTile (k : Core) (n : Nat) (d : List (BitVec 32)) : Core := { k with acc := k.acc.set n d }

/-- Sets or clears the busy bit of tile n (R76). -/
def Core.setBusy (k : Core) (n : Nat) (b : Bool) : Core := { k with busy := setField k.busy n (BitVec.ofBool b) }

/-- A core that lists the FP64 extension (R23, R259). -/
def hasFp64 (c : Nat) : Bool := decide (c < 4096) && decide (c % 8 = 7)

/-- Tenant tag of a core's translation root word (R109). -/
def Core.tag (k : Core) : BitVec 7 := field k.root 0 7

/-! ### Lists as queues -/

/-- Replaces the element at position i. -/
def listSet {α : Type} : List α → Nat → α → List α
  | [], _, _ => []
  | _ :: t, 0, a => a :: t
  | h :: t, n + 1, a => h :: listSet t n a

/-- Removes the element at position i. -/
def listDel {α : Type} : List α → Nat → List α
  | [], _ => []
  | _ :: t, 0 => t
  | h :: t, n + 1 => h :: listDel t n

/-- Position of the first element with property p. -/
def findIdxFrom {α : Type} (p : α → Bool) : List α → Nat → Option Nat
  | [], _ => none
  | h :: t, n => if p h then some n else findIdxFrom p t (n + 1)

/-- Position of the first element with property p. -/
def findIdx {α : Type} (p : α → Bool) (l : List α) : Option Nat := findIdxFrom p l 0

/-! ### Memory (R111, R125, R134) -/

/-- What an unlisted byte of memory reads as. DESIGN CHOICE (log 2): the spec gives memory no contents before a write. -/
def Mem.dflt : Byte := 0

/-- The byte at physical address a. -/
def Mem.read : List Host.Cell → Nat → Byte
  | [], _ => Mem.dflt
  | (b, v) :: t, a => if b = a then v else if a < b then Mem.dflt else Mem.read t a

/-- Puts a byte before cells of higher addresses, unless it is what an unlisted byte reads as. -/
def Mem.cons (a : Nat) (v : Byte) (t : List Host.Cell) : List Host.Cell := if v = Mem.dflt then t else (a, v) :: t

/-- Writes one byte, keeping the canonical form. -/
def Mem.write : List Host.Cell → Nat → Byte → List Host.Cell
  | [], a, v => Mem.cons a v []
  | (b, w) :: t, a, v =>
    if a = b then Mem.cons a v t else if a < b then Mem.cons a v ((b, w) :: t) else (b, w) :: Mem.write t a v

/-- Every address of a list of cells is at or above n, addresses rise strictly and no cell holds the default. -/
def Mem.wfFrom : Nat → List Host.Cell → Bool
  | _, [] => true
  | n, (a, v) :: t => decide (n ≤ a) && decide (v ≠ Mem.dflt) && Mem.wfFrom (a + 1) t

/-- The canonical form of memory: strictly rising addresses, no cell equal to what an unlisted address reads as. -/
abbrev Memory.wf (m : List Host.Cell) : Bool := Mem.wfFrom 0 m

/-- Bytes from address a upward. -/
def Mem.bytes (m : List Host.Cell) : Nat → Nat → List Byte
  | _, 0 => []
  | a, n + 1 => Mem.read m a :: Mem.bytes m (a + 1) n

/-- Writes bytes from address a upward. -/
def Mem.store (m : List Host.Cell) : Nat → List Byte → List Host.Cell
  | _, [] => m
  | a, b :: bs => Mem.store (Mem.write m a b) (a + 1) bs

/-- Physical kind of an address (R111). -/
def kindOf (pa : Nat) : Nat := pa / 2 ^ 48

/-- Core of a slice address (R111). -/
def sliceCore (pa : Nat) : Nat := pa / 2 ^ 21 % 4096

/-- Line of an address (R125). -/
def lineOf (pa : Nat) : Nat := pa / 64

/-- Physical address of offset o in core c's slice. -/
def sliceAddr (c o : Nat) : Nat := c * 2 ^ 21 + o

/-- Bytes as a value of n bytes read from physical memory. -/
def State.rdN (s : State) (pa n : Nat) : Nat := ofBytes (Mem.bytes s.mem pa n)

/-- A 64-bit word of physical memory. -/
def State.rd64 (s : State) (pa : Nat) : Word := BitVec.ofNat 64 (s.rdN pa 8)

/-- Writes bytes to physical memory; a write of a whole line clears its poison (R131). -/
def State.wrBytes (s : State) (pa : Nat) (bs : List Byte) : State :=
  { s with
    mem := Mem.store s.mem pa bs
    poison := s.poison.filter (fun l => !(decide (pa ≤ 64 * l) && decide (64 * l + 64 ≤ pa + bs.length))) }

/-- Writes a 64-bit word to physical memory. -/
def State.wr64 (s : State) (pa : Nat) (v : Word) : State := s.wrBytes pa (toBytes 8 v.toNat)

/-- Is a line of the bytes [pa, pa + n) poisoned? Its line's address if so. -/
def State.poisoned (s : State) (pa n : Nat) : Option Nat :=
  (s.poison.find? (fun l => decide (64 * l < pa + n) && decide (pa < 64 * l + 64))).map (· * 64)

/-- Sets the poison bit of a line (R131). -/
def State.addPoison (s : State) (line : Nat) : State :=
  if s.poison.contains line then s else { s with poison := line :: s.poison }

/-! ### The Chronograph (R445 to R448) and life counters (R278) -/

/-- The bytes of a Chronograph record (R446). -/
def chBytes (r : ChRec) : List Byte := (r.toList.map (fun w => toBytes 8 w.toNat)).flatten

/-- Appends a Chronograph record, whose `LINK` is the low 64 bits of SHAKE256 of the record before it (R446). Kinds 0x01 to
0x03 stop at the places that are not reserved, and one record of kind 0x0D marks the first left out (R445). A number from 4096 on
names the die alone: that of a service core, a stack or the host port (R16). -/
def State.chronicle (s : State) (kind : Nat) (core : Nat) (bank unit region addr : Nat) (det det2 : Word) : State :=
  let n := s.chrono.length
  let link : Word := match s.chrono with | [] => 0 | r :: _ => BitVec.ofNat 64 (ofBytes (Shake.shake256 (chBytes r) 8))
  let mk (kind : Nat) (addr : Nat) (det det2 : Word) : ChRec :=
    #v[BitVec.ofNat 64 (kind * 2 ^ 56 + n % 2 ^ 48), BitVec.ofNat 64 s.time,
       BitVec.ofNat 64 (s.pkg.toNat * 2 ^ 46 + dieOf core % 8 * 2 ^ 43
         + (if core < 4096 then core else 0xFFF) * 2 ^ 31 + bank * 2 ^ 27 + unit * 2 ^ 24 + region % 2 ^ 24),
       BitVec.ofNat 64 addr, BitVec.ofNat 64 (2 ^ 48 + (if core < 4096 then (s.core core).tag.toNat else 0)), det, det2, link]
  if kind ≤ 3 ∧ 4194304 - 262144 ≤ n then
    if s.chLeftOut then s else { s with chrono := mk 0x0D 0 0 0 :: s.chrono, chLeftOut := true }
  else if n < 4194304 then { s with chrono := mk kind addr det det2 :: s.chrono } else s

/-- Adds one to a saturating 32-bit life counter (R278). -/
def lifeAdd (t : Tab Nat) (k : Nat) : Tab Nat := t.set k (Nat.min (t.getD k 0 + 1) (2 ^ 32 - 1))

/-- Nanoseconds of powered time base in the life of the part: those of earlier power-ons and of this one (R278). -/
def State.poweredTime (s : State) : Nat := s.powered + (s.time - Config.timeStart)

/-- The present month: 30 days of powered time base (R278). -/
def State.month (s : State) : Nat := s.poweredTime / (30 * 86400 * 1000000000)

/-- The bin to which a further suspect or marginal event takes a core (R444). -/
def Bin.down : Bin → Bin
  | .nominal => .vPlus
  | .vPlus => .cMinus
  | .cMinus => .retired
  | .retired => .retired

/-- 30 days in nanoseconds (R444). -/
def days30 : Nat := 30 * 86400 * 1000000000

/-- A core becomes suspect or marginal: firmware will move it to its next operating bin (R444). -/
def State.mark (s : State) (c : Nat) : State :=
  s.modCore c (fun k => { k with suspect := some s.time, binNext := some (k.binNext.getD k.bin).down })

/-- Counts one event on the performance counters of a core; t is the context it concerns (R277). -/
def Core.perfAdd (k : Core) (ev : Nat) (t : Option Nat) : Core :=
  { k with perf := k.perf.map (fun p =>
      if bitsN p.sel 0 8 = ev ∧ (match t with | some t => bit p.sel (16 + t) | none => true) = true
      then { p with count := p.count + 1 } else p) }

/-- A core stops its issue for 24 cycles, unless it already stands still (R136). -/
def State.freezeNow (s : State) (c : Nat) : State :=
  if (s.core c).freeze = 0 then s.modCore c (fun k => { k with freeze := 24 }.perfAdd 0x13 none) else s

/-- One more correctable error of a bank of core c: the core is suspect above 16 of them in 30 days (R130, R278, R444). -/
def State.countBank (s : State) (c bank : Nat) : State :=
  let s := s.modCore c (fun k => { k with
    bankErrs := k.bankErrs.set bank (s.time :: (k.bankErrs.getD bank []).filter (fun t => decide (s.time < t + days30))) })
  let s := { s with lifeCorr := lifeAdd s.lifeCorr ((16 * c + bank) + 131072 * s.month) }
  if 16 < ((s.core c).bankErrs.getD bank []).length then s.mark c else s

/-- A read meets the latent errors of the line (R130, R131, R136): a correctable error of a slice freezes its core for 24
cycles and is corrected; one of bulk memory is corrected without a freeze; an uncorrectable one poisons the line. -/
def State.eccRead (s : State) (line : Nat) : State :=
  match s.ecc.find? (fun e => e.line == line) with
  | none => s
  | some e =>
    let pa := line * 64
    let s := { s with ecc := s.ecc.filter (fun e => e.line != line) }
    let c := if kindOf pa = 0 then sliceCore pa else 4096 + (if kindOf pa = 1 then stackDie (pa / 4096 % 8) else hostDie)
    let bank := if kindOf pa = 0 then pa / 1024 % 16 else pa / 4096 % 8
    let unit := if kindOf pa = 0 then 0 else 2
    let det := BitVec.ofNat 64 (e.word.toNat + e.syndrome.toNat * 256)
    if e.fatal then (s.addPoison line).chronicle 0x04 c bank unit 0 pa (e.word.setWidth 64) 0
    else if kindOf pa = 0 then ((s.freezeNow c).countBank c bank).chronicle 0x01 c bank 0 0 pa det 0
    else
      let s := { s with lifeCorr := lifeAdd s.lifeCorr ((65536 + bank) + 131072 * s.month) }
      s.chronicle 0x02 c bank 2 0 pa det 0

/-- Does a line of [pa, pa + n) hold an error that no read has met (R130, R131)? -/
def State.latent (s : State) (pa n : Nat) : Bool :=
  s.ecc.any (fun e => decide (lineOf pa ≤ e.line) && decide (e.line ≤ lineOf (pa + n - 1)))

/-- Does the bank or controller of an address serve requests now: a frozen core's slice serves none (R130). -/
def State.serves (s : State) (pa : Nat) : Bool := decide (kindOf pa ≠ 0) || decide ((s.core (sliceCore pa)).freeze = 0)

/-- Reads meet the latent errors of every line of [pa, pa + n). -/
def State.eccRange (s : State) (pa n : Nat) : State :=
  if s.ecc = [] then s else
  (List.range (lineOf (pa + n - 1) + 1 - lineOf pa)).foldl (fun s i => s.eccRead (lineOf pa + i)) s

/-! ### Registers of a context (R61 to R74) -/

/-- Does the context name y0 to y3 by register number r: in a user-level handler, x1 to x4 (R74)? -/
def Ctx.shadowed (k : Ctx) (r : Nat) : Bool := bit k.status 4 && decide (1 ≤ r) && decide (r ≤ 4)

/-- Marks x register r as awaiting a result (R64, R74). -/
def Ctx.markX (k : Ctx) (r : Nat) : Ctx :=
  if k.shadowed r then { k with pendY := k.pendY ||| (1#4 <<< (r - 1)) } else { k with pendX := k.pendX ||| (1#32 <<< r) }

/-- x register r: x0 reads zero; in a user-level handler x1 to x4 are y0 to y3 (R62, R74). -/
def Ctx.rx (k : Ctx) (r : Nat) : Word :=
  if r = 0 then 0
  else if bit k.status 4 ∧ r ≤ 4 then (k.y[(r - 1) % 4]'(Nat.mod_lt _ (by decide)))
  else k.x[r % 32]'(Nat.mod_lt _ (by decide))

/-- Writes x register r: a write of x0 is discarded (R62, R74). -/
def Ctx.wx (k : Ctx) (r : Nat) (v : Word) : Ctx :=
  if r = 0 then k
  else if bit k.status 4 ∧ r ≤ 4 then { k with y := k.y.set ((r - 1) % 4) v (Nat.mod_lt _ (by decide)) }
  else { k with x := k.x.set (r % 32) v (Nat.mod_lt _ (by decide)) }

/-- v register r. -/
def Ctx.rv (k : Ctx) (r : Nat) : Vec := k.v[r % 32]'(Nat.mod_lt _ (by decide))
/-- Writes v register r. -/
def Ctx.wv (k : Ctx) (r : Nat) (v : Vec) : Ctx := { k with v := k.v.set (r % 32) v (Nat.mod_lt _ (by decide)) }

/-- Predicate r: p0 reads true (R69). -/
def Ctx.rp (k : Ctx) (r : Nat) : Bool := decide (r = 0) || bit k.p r
/-- Writes predicate r: a write of p0 is discarded (R69). -/
def Ctx.wp (k : Ctx) (r : Nat) (b : Bool) : Ctx :=
  if r = 0 then k else { k with p := setField k.p r (BitVec.ofBool b) }

/-- Mask r: m0 reads all ones (R70). -/
def Ctx.rm (k : Ctx) (r : Nat) : BitVec 16 := if r = 0 then 0xFFFF else k.m[r % 8]'(Nat.mod_lt _ (by decide))
/-- Writes mask r: a write of m0 is discarded (R70). -/
def Ctx.wm (k : Ctx) (r : Nat) (v : BitVec 16) : Ctx :=
  if r = 0 then k else { k with m := k.m.set (r % 8) v (Nat.mod_lt _ (by decide)) }

/-- Latch r. -/
def Ctx.rq (k : Ctx) (r : Nat) : Vec := k.q[r % 4]'(Nat.mod_lt _ (by decide))

/-- Binding word of v24 + r (R68). -/
def Ctx.rb (k : Ctx) (r : Nat) : Word := k.bind[r % 8]'(Nat.mod_lt _ (by decide))
/-- Writes a binding word. -/
def Ctx.wb (k : Ctx) (r : Nat) (v : Word) : Ctx := { k with bind := k.bind.set (r % 8) v (Nat.mod_lt _ (by decide)) }

/-- Every latch becomes invalid (R72). -/
def Ctx.dropLatches (k : Ctx) : Ctx := { k with qv := 0, pendQ := 0 }

/-- Privilege level of a context (R83). -/
def Ctx.prv (k : Ctx) : Nat := bitsN k.status 0 2

/-- Results that a context still awaits (R64, R81). -/
def Ctx.hasPending (k : Ctx) : Bool :=
  decide (k.pendX ≠ 0) || decide (k.pendY ≠ 0) || decide (k.pendV ≠ 0) || decide (k.pendQ ≠ 0)

/-- Requests the line of the next bundle, unless the fetch buffer holds it (R182). -/
def State.wantLine (s : State) (c t : Nat) : State :=
  let k := s.ctx c t
  let va := k.pc.toNat / 64 * 64
  match k.fbuf with
  | .line b _ => if b = va then s else s.setCtx c t { k with fbuf := .empty, freq := some (va, s.steps) }
  | _ => s.setCtx c t { k with fbuf := .empty, freq := some (va, s.steps) }

/-- Moves a context to another bundle as a taken branch does: the latches become invalid (R72). -/
def State.goTo (s : State) (c t : Nat) (pc : BitVec 60) : State :=
  (s.modCtx c t (fun k => { k.dropLatches with pc := pc })).wantLine c t

/-! ### The log (R145 to R173) -/

/-- a precedes b in serial arithmetic (R150). -/
def precedes (a b : BitVec 48) : Bool := decide ((b - a).toNat ≠ 0) && decide ((b - a).toNat < 2 ^ 47)

/-- Records that the ring of a log descriptor holds (R146). -/
def ringCap (desc : Word) : Nat := 512 * 2 ^ bitsN desc 0 3

/-- Records that an enabled spill area holds (R148). -/
def spillCap (spill : Word) : Nat := if bit spill 63 then (bitsN spill 0 12 + 1) * 2048 else 0

/-- The records that hold a ring slot or a spill slot: those not below `SHIP`. -/
def Log.ringUse (l : Log) : Nat := (l.recs.filter (fun r => !r.spilled)).length
/-- Records in the spill area. -/
def Log.spillUse (l : Log) : Nat := (l.recs.filter (fun r => r.spilled)).length

/-- May n more records be appended (R170)? New records go to the ring unless the spill area is in use; a spill area that is to be
disabled stays in force until it has drained. -/
def Log.room (l : Log) (n : Nat) : Bool :=
  if l.spillUse = 0 ∧ l.ringUse + n ≤ ringCap l.desc then true else decide (l.spillUse + n ≤ spillCap l.spill)

/-- The frontier: the smallest sequence number whose record is unpublished or held, else `TAIL` (R156, R172). -/
def Log.frontier (l : Log) : BitVec 48 :=
  match l.recs.find? (fun r => r.st == .unpublished || (r.held && r.st == .published)) with
  | some r => r.seq
  | none => l.tail

/-- Recomputes the frontier (R156). -/
def Log.advance (l : Log) : Log := { l with front := l.frontier }

/-- A release by context t: publishes its unpublished records (R155). -/
def Log.release (l : Log) (t : Nat) : Log :=
  let mine := l.recs.filter (fun r => decide (r.ctx.toNat = t) && (r.st == .unpublished))
  let l1 := { l with
    recs := l.recs.map (fun (r : LogRec) => if r.ctx.toNat = t ∧ r.st = RecState.unpublished then { r with st := RecState.published } else r)
    lastPub := match mine.getLast? with | some r => l.lastPub.set t r.seq | none => l.lastPub }
  l1.advance

/-- The bytes of a log record (R151). -/
def LogRec.bytes (r : LogRec) : List Byte :=
  toBytes 8 (r.kind.toNat * 2 ^ 60 + r.size.toNat * 2 ^ 56 + r.pa.toNat)
  ++ toBytes 8 ((if r.rm then 2 ^ 60 else 0) + r.ctx.toNat * 2 ^ 56 + r.fmt.toNat * 2 ^ 48 + r.seq.toNat)
  ++ toBytes 16 r.data.toNat

/-- Where the bytes of a record lie: its slot of the ring or of the spill area (log entry 11: the slot is the sequence
number modulo the number of slots). -/
def Log.slotAddr (l : Log) (c : Nat) (r : LogRec) : Nat :=
  if r.spilled then bitsN l.spill 16 36 * 2 ^ 16 + 32 * (r.seq.toNat % spillCap l.spill)
  else sliceAddr c (bitsN l.desc 14 7 * 2 ^ 14 + 32 * (r.seq.toNat % ringCap l.desc))

/-- Does the next record go to the spill area (R148)? -/
def Log.spills (l : Log) : Bool := !(decide (l.spillUse = 0) && decide (l.ringUse + 1 ≤ ringCap l.desc))

/-- A record with the next sequence number and its place, ring or spill area (R150, R153). -/
def Log.stamp (l : Log) (r : LogRec) : LogRec := { r with seq := l.tail, spilled := l.spills }

/-- The log after that record has entered it. -/
def Log.push (l : Log) (r : LogRec) : Log := { l with recs := l.recs ++ [l.stamp r], tail := l.tail + 1 }.advance

/-- Appends a record to the active log of core c (R153). -/
def State.append (s : State) (c : Nat) (r : LogRec) : State :=
  let l := (s.core c).log
  (s.modCore c (fun k => { k with log := l.push r }.perfAdd 0x11 none)).wrBytes (l.slotAddr c (l.stamp r)) (l.stamp r).bytes

/-- A release by context t of core c; the release point is the log's tail (R155). -/
def State.release (s : State) (c t : Nat) : State := s.modCore c (fun k => { k with log := k.log.release t })

/-! ### Notices and save area (R95, R96, R231) -/

/-- Words of a context's full frame (R80). -/
def Ctx.frameWords (k : Ctx) (w0 w1 : Word) (stop : BitVec 8) : List Word :=
  (List.range 32).map (fun r => if r = 0 then (0 : Word) else k.x[r % 32]'(Nat.mod_lt _ (by decide)))
  ++ ((List.range 32).map (fun r => [(k.rv r).setWidth 64, (k.rv r).extractLsb' 64 64])).flatten
  ++ ((List.range 4).map (fun r => [(k.rq r).setWidth 64, (k.rq r).extractLsb' 64 64])).flatten
  ++ (List.range 4).map (fun r => k.y[r % 4]'(Nat.mod_lt _ (by decide)))
  ++ [(k.rm 3 ++ k.rm 2 ++ k.rm 1 ++ k.rm 0 : BitVec 64), (k.rm 7 ++ k.rm 6 ++ k.rm 5 ++ k.rm 4 : BitVec 64)]
  ++ (List.range 8).map k.rb
  ++ [w0, w1, (k.qv.setWidth 64) ||| (if bit k.status 4 then 16 else 0), k.status,
      (k.fflags.setWidth 64) ||| ((k.frm.setWidth 64) <<< 32), k.tiles,
      k.lc, k.ls.setWidth 64, k.le.setWidth 64, stop.setWidth 64]

/-- Words of the context extension block (R103). -/
def Ctx.extWords (k : Ctx) : List Word :=
  [k.ulvec.setWidth 64, k.uepc.setWidth 64, k.uval, k.cause, k.epc.setWidth 64, k.tval, k.tframe.setWidth 64,
   k.tvec.setWidth 64, k.npc.setWidth 64] ++ List.replicate 7 0

/-- Effective priority of a region: the larger number along the path to the root (R232). Fuel bounds the depth. -/
def State.effPrio (s : State) : Nat → Nat → Nat
  | 0, _ => 0
  | n + 1, r =>
    let g := s.region r
    let own := g.prio.toNat
    match g.parent with
    | none => if own = 31 then 0 else Nat.min own 15
    | some q =>
      let up := s.effPrio n q
      if own = 31 then up else Nat.max (Nat.min own 15) up

/-- The regions on the path from r to the root, r first. -/
def State.pathUp (s : State) : Nat → Nat → List Nat
  | 0, _ => []
  | n + 1, r =>
    match (s.region r).parent with
    | none => [r]
    | some q => r :: s.pathUp n q

/-- Depth bound of the region tree used by the path functions: the number of regions. -/
def State.depth (s : State) : Nat := s.regions.length + 1

/-- Effective priority of a region (R232). -/
def State.prio (s : State) (r : Nat) : BitVec 4 := BitVec.ofNat 4 (s.effPrio s.depth r)

/-- Record word 0 of a context (R78). -/
def Rec.word0 (r : Rec) : Word :=
  BitVec.ofNat 64 ((if r.m then 2 ^ 63 else 0) + (if r.s then 2 ^ 62 else 0) + (if r.ext then 2 ^ 61 else 0) + r.pc.toNat)

/-- Record word 1 (R78). -/
def Rec.word1 (r : Rec) : Word :=
  BitVec.ofNat 64 (r.hop.toNat * 2 ^ 35 + r.p.toNat * 2 ^ 28 + r.prio.toNat * 2 ^ 24 + r.region.toNat)

/-- A record from its eight words (R78). -/
def Rec.ofWords (w : List Word) : Rec :=
  let w0 := w.getD 0 0
  let w1 := w.getD 1 0
  { m := bit w0 63, s := bit w0 62, ext := bit w0 61, pc := field w0 0 60, hop := field w1 35 8, p := field w1 28 7,
    prio := field w1 24 4, region := field w1 0 24,
    xs := #v[w.getD 2 0, w.getD 3 0, w.getD 4 0, w.getD 5 0, w.getD 6 0, w.getD 7 0] }

/-- The record of a context that suspends at pc (R79). -/
def State.recOf (s : State) (c t : Nat) (pc : BitVec 60) : Rec :=
  let k := s.ctx c t
  { m := k.recM, ext := k.recX || k.onExt, pc := pc, hop := k.hop, p := k.p.extractLsb' 1 7,
    prio := s.prio k.region.toNat, region := k.region,
    xs := #v[k.x[1], k.x[2], k.x[3], k.x[4], k.x[5], k.x[6]] }

/-- Physical address of the frame slot of (core, context) in a region's save area (R95). -/
def State.frameSlot (s : State) (c t r : Nat) : Nat := (s.region r).save.toNat + 0x480 * (16 * c + t)

/-- Virtual address of that slot, or 0 when the region maps no save area (R95). -/
def State.frameVa (s : State) (c t r : Nat) : BitVec 60 :=
  let v := (s.region r).savev
  if v = 0 then 0 else BitVec.ofNat 60 (v.toNat + 0x480 * (16 * c + t))

/-- Writes words to memory from pa upward. -/
def State.wrWords (s : State) : Nat → List Word → State
  | _, [] => s
  | pa, w :: ws => (s.wr64 pa w).wrWords (pa + 8) ws

/-- Reads n words of memory from pa upward. -/
def State.rdWords (s : State) : Nat → Nat → List Word
  | _, 0 => []
  | pa, n + 1 => s.rd64 pa :: s.rdWords (pa + 8) n

/-- The words of a frame and its extension block, for a context that resumes at pc (R80, R103). -/
def State.image (s : State) (c t : Nat) (pc : BitVec 60) (stop : BitVec 8) : List Word :=
  let r := s.recOf c t pc
  (s.ctx c t).frameWords r.word0 r.word1 stop ++ (s.ctx c t).extWords

/-- Writes the full frame and the extension block to the region's save area (R80, R95, R103). -/
def State.writeFrame (s : State) (c t : Nat) (pc : BitVec 60) (stop : BitVec 8) : State :=
  s.wrWords (s.frameSlot c t (s.ctx c t).region.toNat) (s.image c t pc stop)

/-- A restored binding word (R68): reserved bits and the bits of `ARG` that must be zero read zero (R7), and reserved kinds are
unbound. -/
def restoredBind (b : Word) : Word :=
  let n := bitsN b 61 3
  if n = 1 ∨ n = 2 then b &&& 0xE000FFFFFF000FFF#64
  else if n = 3 ∨ n = 4 then b &&& 0xE000FFFFFF1FFFC0#64
  else 0

/-- A context from the words of a frame and extension block (R80, R81, R103); privilege and the region stay the context's own (R78,
R81), reserved bits read zero (R7), and `TW` says whether the thread is in its user-level handler (R105; log 95). -/
def Ctx.ofImage (k : Ctx) (w : List Word) (prv : Word) : Ctx :=
  let g (i : Nat) : Word := w.getD i 0
  let r := Rec.ofWords [g 118, g 119]
  { k with
    pc := r.pc, recM := r.m, recX := r.ext, hop := r.hop, p := r.p ++ 0#1
    x := Vector.ofFn (fun i => if i.val = 0 then 0 else g i.val)
    v := Vector.ofFn (fun i => g (32 + 2 * i.val + 1) ++ g (32 + 2 * i.val))
    q := Vector.ofFn (fun i => g (96 + 2 * i.val + 1) ++ g (96 + 2 * i.val))
    y := Vector.ofFn (fun i => g (104 + i.val))
    m := Vector.ofFn (fun i => if i.val = 0 then 0xFFFF else field (g (108 + i.val / 4)) (16 * (i.val % 4)) 16)
    bind := Vector.ofFn (fun i => restoredBind (g (110 + i.val)))
    pat := [], patAt := [], ahead := [], qv := field (g 120) 0 4, pendQ := 0, pendX := 0, pendY := 0, pendV := 0, susp := none
    status := setField ((g 121 &&& 0xC0001F68#64) ||| prv) 4 (field (g 120) 4 1)
    fflags := field (g 122) 0 5, frm := field (g 122) 32 2, tiles := g 123 &&& 0x3F1F#64
    lc := g 124, ls := field (g 125) 0 60, le := field (g 126) 0 60
    ulvec := field (g 128) 0 60, uepc := field (g 129) 0 60, uval := g 130, cause := g 131 &&& 0xFFFF#64, epc := field (g 132) 0 60
    tval := g 133, tframe := field (g 134) 0 60, tvec := field (g 135) 0 60, npc := field (g 136) 0 60
    fbuf := .empty, freq := none, tlb := .none, acq := none, ownLine := none, wake := .none, realign := none
    realigned := false, stop := none, pair := none, loaded := [], inv := none, dues := [] }

/-- A notice takes its place in the queue: at its end, but a trap notice comes before the event notices of its own cycle (R96). -/
def insertNotice (n : Notice) : List Notice → List Notice
  | [] => [n]
  | m :: l => if !n.evt && (m :: l).all (fun q => q.evt && q.cyc == n.cyc) then n :: m :: l else m :: insertNotice n l

/-- Posts a notice to context 0 of core c (R95, R96). -/
def State.notify (s : State) (c : Nat) (n : Notice) : State :=
  s.modCore c (fun k => { k with notices := insertNotice { n with cyc := k.cycle } k.notices })

/-- Posts an event notice, or updates the `tval` of a queued one of its kind and context (R96). -/
def State.notifyEvent (s : State) (c : Nat) (code : BitVec 8) (t : BitVec 4) (npc : BitVec 60) (f : Option Word → Word) : State :=
  s.modCore c (fun k =>
    match findIdx (fun n => n.evt && n.code == code && n.ctx == t) k.notices with
    | some i =>
      match k.notices[i]? with
      | some n => { k with notices := listSet k.notices i { n with tval := f (some n.tval) } }
      | none => k
    | none => { k with notices := insertNotice { code := code, evt := true, ctx := t, npc := npc, tval := f none, cyc := k.cycle } k.notices })

/-! ### Taking a trap and returning from one (R94 to R99) -/

/-- `cause` register word (R101). -/
def causeWord (evt : Bool) (slot : BitVec 3) (ctx : BitVec 4) (code : BitVec 8) : Word :=
  BitVec.ofNat 64 ((if evt then 2 ^ 15 else 0) + slot.toNat * 2 ^ 12 + ctx.toNat * 2 ^ 8 + code.toNat)

/-- Enters a context's handler: saved registers written, `TH` set, latches invalid, PC at `tvec` (R97, R99). -/
def State.enterHandler (s : State) (c t : Nat) (epc : BitVec 60) (cause tval : Word) (tframe npc : BitVec 60) : State :=
  let s := s.modCtx c t (fun k =>
    { k.dropLatches with
      epc := epc, cause := cause, tval := tval, tframe := tframe, npc := npc, status := k.status ||| 8, pc := k.tvec,
      tlb := .none, acq := none, ownLine := none, realign := none, realigned := false, inv := none, loaded := [], dues := [] })
  s.wantLine c t

/-- A region fault for the region scheduler (R234). -/
def State.regionFault (s : State) (r : Nat) (code : BitVec 8) : State := { s with faults := s.faults ++ [{ region := r, code := code }] }

/-- Firmware body of a service core (R15): management on 0, scheduler on 1 and 2, fabric on 3 to 7. -/
def bodyOf (svc : Nat) : Nat := if svc = 0 then 0 else if svc ≤ 2 then 1 else 2

/-- State of a firmware body. -/
def State.body (s : State) (b : Nat) : FwBody := s.bodies.getD b {}

/-- Changes a firmware body. -/
def State.modBody (s : State) (b : Nat) (f : FwBody → FwBody) : State := { s with bodies := s.bodies.set b (f (s.body b)) }

/-- Completes a stop once no result is pending: frame and extension block written, context stopped, and a notice posted for a worker
(R81, R95), a region fault for context 0 (R98). A stop that still waits stays requested. -/
def State.finishStop (s : State) (c t : Nat) : State :=
  let k := s.ctx c t
  match k.stop with
  | none => s
  | some q =>
    if k.hasPending then s
    else
      let s := s.writeFrame c t q.framePc q.code
      let va := s.frameVa c t k.region.toNat
      let s := s.modCtx c t (fun k => { k with mode := .stopped, stop := none, fbuf := .empty, freq := none, tlb := .none, acq := none, ownLine := none, realign := none })
      if t = 0 then s.regionFault k.region.toNat q.code else
      s.notify c { code := q.code, evt := false, slot := q.slot, ctx := BitVec.ofNat 4 t, npc := q.npc, tval := q.tval, tframe := va }

/-- Takes a trap in context t of core c: one operation for every trap (R95 for workers, R97 and R98 for context 0, R99 for
service cores). `framePc` is the PC bound to the trap, `npc` the PC that the notice carries. -/
def State.takeTrapAt (s : State) (c t : Nat) (code : BitVec 8) (slot : BitVec 3) (tval : Word) (framePc npc : BitVec 60) : State :=
  let k := s.ctx c t
  let th := bit k.status 3
  if 4096 ≤ c then
    if th then
      (s.modCtx c t (fun k => { k with mode := .stopped })).modBody (bodyOf (c - 4096)) (fun b => { b with failed := true })
    else s.enterHandler c t framePc (causeWord false slot (BitVec.ofNat 4 t) code) tval 0 framePc
  else if t = 0 ∧ !th then s.enterHandler c 0 framePc (causeWord false slot 0 code) tval 0 framePc
  else
    (s.modCtx c t (fun k => { k with
      stop := some { code := code, slot := slot, tval := tval, framePc := framePc, npc := npc }
      tlb := .none, acq := none, ownLine := none, realign := none, susp := none })).finishStop c t

/-- Takes a trap of the bundle at the context's PC. -/
def State.takeTrap (s : State) (c t : Nat) (code : BitVec 8) (slot : BitVec 3) (tval : Word) : State :=
  s.takeTrapAt c t code slot tval (s.ctx c t).pc (s.ctx c t).pc

/-- Trap return: PC from `epc`, `TH` cleared, latches invalid (R97). -/
def State.trapReturn (s : State) (c t : Nat) : State :=
  let s := s.modCtx c t (fun k => { k.dropLatches with pc := k.epc, status := k.status &&& ~~~(8#64) })
  s.wantLine c t

/-- Context 0 enters its handler for the notice at the head of its queue (R97); a matrix event's notice frees the failed
operation's issue-queue place (R96, R390). -/
def State.takeNotice (s : State) (c : Nat) : State :=
  match (s.core c).notices with
  | [] => s
  | n :: rest =>
    let s := s.modCore c (fun k => { k with
      notices := rest
      mat := match n.op with | some i => k.mat.filter (fun o => o.id != i) | none => k.mat })
    s.enterHandler c 0 (s.ctx c 0).pc (causeWord n.evt n.slot n.ctx n.code) n.tval n.tframe n.npc

/-- Entry to the user-level handler (R105): `uepc`, `UH` set, `UIP` cleared, latches invalid, PC at `ulvec`. -/
def State.enterUser (s : State) (c t : Nat) : State :=
  let s := s.modCtx c t (fun k =>
    { k.dropLatches with
      uepc := k.pc, status := (k.status ||| 16) &&& ~~~(64#64), pc := k.ulvec, acq := none, ownLine := none, inv := none, realign := none
      realigned := false, loaded := [], dues := [] })
  s.wantLine c t

/-- `uiret`: PC from `uepc`, `UH` cleared, latches invalid (R106). -/
def State.userReturn (s : State) (c t : Nat) : State :=
  let s := s.modCtx c t (fun k => { k.dropLatches with pc := k.uepc, status := k.status &&& ~~~(16#64) })
  s.wantLine c t

/-- Raises a user-level interrupt on context t of core c for region r (R104). -/
def State.raiseUser (s : State) (c t r : Nat) (uval : Word) : State :=
  let k := s.ctx c t
  if (k.mode = .running ∨ k.mode = .stopped ∨ k.mode = .loading) ∧ k.region.toNat = r ∧ bit k.status 6 = false
  then s.setCtx c t { k with status := k.status ||| 64, uval := uval } else s

/-! ### Things in flight (R18, R134) -/

/-- Sends an item into flight; `also` are further order units that it touches. -/
def State.fly (s : State) (src dst : Nat) (b : Body) (rep : Option Nat := none) (pc : BitVec 60 := 0) (slot : BitVec 3 := 0)
    (also : List Nat := []) : State :=
  { s with flight := s.flight ++ [{ src := src, dst := dst, body := b, rep := rep, pc := pc, slot := slot, also := also }] }

/-- Order unit of a physical address (R134): the slice bank for kind 0, the 64-byte line for kinds 1 and 2. The numbers of the
order units and those of cores and clusters as destinations do not overlap. -/
def orderUnit (pa : Nat) : Nat :=
  if kindOf pa = 0 then 2 ^ 60 + 16 * sliceCore pa + pa / 1024 % 16 else 2 ^ 61 + lineOf pa

/-- The order units and other destinations of an item. -/
def Flight.units (f : Flight) : List Nat := f.dst :: f.also

/-- Do two items come from one source, or from one router (R18, R136)? -/
def Flight.together (f g : Flight) : Bool := f.src == g.src || ((routerOfSrc f.src).isSome && routerOfSrc f.src == routerOfSrc g.src)

/-- Removes the item at position i. -/
def State.land (s : State) (i : Nat) : State := { s with flight := listDel s.flight i }

/-! ### Regions' counts (R189, R206) -/

/-- Adds to the outstanding continuations of a region. -/
def State.contStart (s : State) (r : Nat) : State := s.modRegion r (fun g => { g with conts := g.conts + 1 })
/-- A continuation of a region ends. -/
def State.contEnd (s : State) (r : Nat) : State := s.modRegion r (fun g => { g with conts := g.conts - 1 })

/-- Effective value of a budget: the smaller of the region's own and its parent's effective value, which the inherit code `inh` stands
for; in the root that code stands for the package limit `lim` (R232). -/
def State.effBudget (s : State) (f : Region → Nat) (inh lim cap : Nat) : Nat → Nat → Nat
  | 0, _ => lim
  | n + 1, r =>
    let g := s.region r
    let v := f g
    match g.parent with
    | none => if v = inh then lim else Nat.min v cap
    | some q =>
      let up := s.effBudget f inh lim cap n q
      if v = inh then up else Nat.min (Nat.min v cap) up

/-- Effective worker contexts per core of a region (R231, R232). -/
def State.effWctx (s : State) (r : Nat) : Nat := s.effBudget (fun g => g.wctx.toNat) 31 15 15 s.depth r
/-- Effective tiles per core (R231, R232). -/
def State.effTiles (s : State) (r : Nat) : Nat := s.effBudget (fun g => g.tiles.toNat) 63 32 32 s.depth r
/-- Effective continuations outstanding (R231, R232). -/
def State.effCont (s : State) (r : Nat) : Nat := s.effBudget (fun g => g.cont.toNat) 0xFFFFFFFF 0xFFFFFFFF 0xFFFFFFFF s.depth r

/-- Effective dispatch bound of a region in microseconds, 0 for none: its own, or its parent's for the inherit code (R232, R233). What
it bounds is time (R205). -/
def State.effDbnd (s : State) : Nat → Nat → Nat
  | 0, _ => 0
  | n + 1, r =>
    let g := s.region r
    if g.dbnd ≠ 0xFFFF then g.dbnd.toNat else match g.parent with | none => 0 | some q => s.effDbnd n q

/-- Worker contexts that a region may hold on core c: none where its share has been withdrawn (R13, R232, R242). -/
def State.wctxOn (s : State) (c r : Nat) : Nat := if (s.region r).noShare.contains c then 0 else s.effWctx r

/-- Is region q at or below region r in the tree? -/
def State.within (s : State) (q r : Nat) : Bool := (s.pathUp s.depth q).contains r

/-- Continuations outstanding of a region and its descendants (R233). -/
def State.subtreeConts (s : State) (r : Nat) : Nat :=
  (s.regions.map (fun e => if s.within e.1 r then e.2.conts else 0)).foldl (· + ·) 0

/-- A region's own or inherited pre-empted state (R208). -/
def State.haltedRegion (s : State) (r : Nat) : Bool := (s.pathUp s.depth r).any (fun q => (s.region q).preempted)

/-- May a region's records and frames take no part on a core: it is halted, or the core is out of service or waits for a bin move
(R192, R197, R208, R444)? -/
def State.haltedHere (s : State) (c r : Nat) : Bool := s.haltedRegion r || (s.core c).oos || (s.core c).binNext.isSome

/-- Has the halt of a region's threads reached a core (R208)? -/
def State.haltedOn (s : State) (c r : Nat) : Bool := (s.core c).halted.any (fun h => s.within r h.1)

/-- Is a region's matrix work on a core frozen (R209, R210)? A resume lets it go on before the threads do (R211). -/
def State.frozenOn (s : State) (c r : Nat) : Bool := s.haltedOn c r && s.haltedHere c r

/-- Continuation budget: no region on the path to the root is at its effective value (R190, R233). -/
def State.contRoom (s : State) (r : Nat) : Bool :=
  (s.pathUp s.depth r).all (fun q => !(s.region q).dead && decide (s.subtreeConts q < s.effCont q))

/-- Worker contexts of a region's subtree on a core: loading, running, stopped, and frames queued for it (R190). -/
def State.workersOf (s : State) (c r : Nat) : Nat :=
  ((List.range 16).filter (fun t =>
      let k := s.ctx c t
      decide (t ≠ 0) && (k.mode == .loading || k.mode == .running || k.mode == .stopped) && s.within k.region.toNat r)).length
  + ((s.core c).frames.filter (fun f => s.within f.region.toNat r)).length

/-- Room in the per-core worker budget of a region and of every ancestor (R190, R233). -/
def State.workerRoom (s : State) (c r : Nat) : Bool :=
  (s.pathUp s.depth r).all (fun q => decide (s.workersOf c q < s.wctxOn c q))

/-- A worker budget above zero on a core, and the core in service (R198, R420). -/
def State.acceptsRegion (s : State) (c r : Nat) : Bool :=
  !(s.core c).oos && (s.pathUp s.depth r).all (fun q => !(s.region q).dead && decide (0 < s.wctxOn c q))

end Sys2Proof.Machine
end

