-- ==== Sys2Proof/Machine/Translate.lean ====
section
/-! DEFINITION. Addresses (R108 to R124): effective addresses, page-table walks, TLBs, access checks, owners and homes. -/

namespace Sys2Proof.Machine

/-! ### Causes (R102) -/
abbrev cIllegalBundle : BitVec 8 := 0x01
abbrev cIllegal : BitVec 8 := 0x02
abbrev cPrivilege : BitVec 8 := 0x03
abbrev cLatchLost : BitVec 8 := 0x04
abbrev cMisaligned : BitVec 8 := 0x05
abbrev cTranslation : BitVec 8 := 0x06
abbrev cAccess : BitVec 8 := 0x07
abbrev cLogFull : BitVec 8 := 0x08
abbrev cLogDrop : BitVec 8 := 0x09
abbrev cRing : BitVec 8 := 0x0A
abbrev cTileWindow : BitVec 8 := 0x0B
abbrev cStream : BitVec 8 := 0x0C
abbrev cChannel : BitVec 8 := 0x0D
abbrev cFp : BitVec 8 := 0x0E
abbrev cArrivalSpill : BitVec 8 := 0x0F
abbrev cMetadata : BitVec 8 := 0x10
abbrev cChecksum : BitVec 8 := 0x11
abbrev cPoison : BitVec 8 := 0x12
abbrev cPairDiverge : BitVec 8 := 0x13
abbrev cPairUnresolved : BitVec 8 := 0x14
abbrev cExtNone : BitVec 8 := 0x15
abbrev cDeadlock : BitVec 8 := 0x16
abbrev cBreak : BitVec 8 := 0x17
abbrev cSyscall : BitVec 8 := 0x18
abbrev cPreempt : BitVec 8 := 0x19

/-- Why a slot does not take effect in this cycle: a trap with its cause and `tval`, or a forfeit (R94, R179, R180). -/
inductive Stop where
  | trap (code : BitVec 8) (tval : Word)
  /-- a forfeit; `why` is the row of the table of R179, from 0 -/
  | forfeit (why : Nat)
  /-- a micro-TLB miss of an address (R120) -/
  | miss (va : Nat)
  /-- such a miss beside a page whose walk has ended in a fault: the bundle traps for that one now (R120) -/
  | late (va : Nat)
  /-- an own-view load waits for the records of a line (R166) -/
  | ownView (line : Nat)
  /-- the bundle starts to wait in a way that its context remembers: an acquire's set, a table load, an invalidation -/
  | acquire (set : List Point)
  | wait (why : Nat) (s : State)
deriving Repr

/-! ### Leaf entries (R112 to R115) -/

/-- log2 of the page size of a leaf level (R112). -/
def pageBits (level : Nat) : Nat := if level = 1 then 38 else if level = 2 then 27 else 16

/-- Does a physical address obey R111? -/
def paOk (pa : Nat) : Bool :=
  if kindOf pa = 0 then decide (pa / 2 ^ 33 % 2 ^ 15 = 0)
  else if kindOf pa = 1 then decide (pa / 2 ^ 39 % 2 ^ 9 = 0)
  else decide (kindOf pa ≤ 3)

/-- `V` of an entry. -/
def leafV (e : Word) : Bool := bit e 0
/-- `T`: the entry is a leaf. -/
def leafT (e : Word) : Bool := bit e 1
/-- `U`. -/
def leafU (e : Word) : Bool := bit e 2
/-- `W`. -/
def leafW (e : Word) : Bool := bit e 3
/-- `X`. -/
def leafX (e : Word) : Bool := bit e 4
/-- `L`. -/
def leafL (e : Word) : Bool := bit e 5
/-- `P`. -/
def leafP (e : Word) : Bool := bit e 6
/-- `B`. -/
def leafB (e : Word) : Bool := bit e 7
/-- `D`. -/
def leafD (e : Word) : Bool := bit e 8
/-- `TAG`. -/
def leafTag (e : Word) : BitVec 7 := field e 9 7
/-- `OWNER`. -/
def leafOwner (e : Word) : Nat := bitsN e 52 12
/-- `FRAME` as a physical address. -/
def leafFrame (e : Word) : Nat := bitsN e 16 36 * 2 ^ 16
/-- `NEXT` as a physical address (R113). -/
def entryNext (e : Word) : Nat := bitsN e 14 38 * 2 ^ 14

/-- Is a table pointer's target of kind 0 or 1 and within R111? -/
def tableOk (pa : Nat) : Bool := decide (kindOf pa ≤ 1) && paOk pa

/-- Is a leaf at a level well formed (R115)? -/
def leafOk (level : Nat) (e : Word) : Bool :=
  let f := leafFrame e
  let n := 2 ^ pageBits level
  decide (level ≠ 0) && decide (f % n = 0) && paOk f && paOk (f + n - 1) && !(leafL e && leafX e)
  && !(leafD e && decide (kindOf f ≠ 0)) && !(decide (kindOf f = 3) && leafU e)

/-- How a walk ends (R115, R116). -/
inductive WalkEnd where
  | leaf (level : Nat) (e : Word)
  | fault
  | poison (pa : Nat)
deriving DecidableEq, Repr

/-- Index of an address at a level (R112). -/
def vaIndex (level va : Nat) : Nat := va / 2 ^ (49 - 11 * level) % 2048

/-- Walks the tables below `table` from a level, with n levels left to read; also gives the addresses read (R115, R116). -/
def walkFrom (s : State) (va : Nat) : Nat → Nat → Nat → WalkEnd × List Nat
  | 0, _, _ => (.fault, [])
  | n + 1, level, table =>
    if !tableOk table then (.fault, []) else
    let pa := table + 8 * vaIndex level va
    match s.poisoned pa 8 with
    | some l => (.poison l, [pa])
    | none =>
      let e := s.rd64 pa
      if !leafV e then (.fault, [pa])
      else if leafT e then (if leafOk level e then (.leaf level e, [pa]) else (.fault, [pa]))
      else if level = 3 then (.fault, [pa])
      else let r := walkFrom s va n (level + 1) (entryNext e); (r.1, pa :: r.2)

/-- The walk of an address under a root word (R112, R115). -/
def walk (s : State) (root : Word) (va : Nat) : WalkEnd := (walkFrom s va 4 0 (entryNext root)).1

/-! ### TLBs (R119) -/

/-- The entry of the smallest page that maps an address under a tag (R119). -/
def tlbFind (l : List Tlb) (tag : BitVec 7) (va : Nat) : Option Tlb :=
  let hit (level : Nat) := l.find? (fun e => e.tag == tag && e.level == level && e.vpn == va / 2 ^ pageBits level)
  match hit 3 with
  | some e => some e
  | none => match hit 2 with
    | some e => some e
    | none => hit 1

/-- Installs an entry, keeping at most n; replacement is not visible to programs (R119). -/
def tlbPut (n : Nat) (l : List Tlb) (e : Tlb) : List Tlb := (e :: l.filter (fun f => f != e)).take n

/-- An address with the leaf that maps it. -/
structure Xl where
  pa : Nat
  leaf : Word
deriving DecidableEq, Repr

/-- The physical address that a TLB entry gives. -/
def Tlb.xl (e : Tlb) (va : Nat) : Xl := { pa := leafFrame e.leaf + va % 2 ^ pageBits e.level, leaf := e.leaf }

/-! ### Access checks (R117, R118, R126, R138) -/

/-- Kinds of access. -/
inductive Acc where
  | load | store | fetch
deriving DecidableEq, Repr

/-- Owner core of an address in a direct page (R118). -/
def ownerOf (e : Word) (pa : Nat) : Nat := if kindOf pa = 0 ∧ leafD e then sliceCore pa else leafOwner e

/-- Home core of an address (R118). -/
def homeOf (e : Word) (pa : Nat) : Nat :=
  if leafL e then (if kindOf pa = 0 then sliceCore pa else leafOwner e) else ownerOf e pa

/-- Offsets of a slice that hold the home pending record store (R126). -/
def inHomeStore (pa : Nat) : Bool := decide (kindOf pa = 0) && decide (0x1C0000 ≤ pa % 2 ^ 21)

/-- May core c, at privilege prv, make the access? (R117, R126, R138) -/
def accessOk (s : State) (c prv : Nat) (acc : Acc) (x : Xl) : Bool :=
  let k := kindOf x.pa
  !inHomeStore x.pa && !(decide (k = 2) && !(s.link.up && s.link.cache)) &&
  if 4096 ≤ c then paOk x.pa else
  decide (leafTag x.leaf = (s.core c).tag) && (leafU x.leaf || decide (prv ≠ 0))
  && (match acc with
      | .load => !(decide (k = 3) && decide (prv = 0))
      | .store => leafW x.leaf && (leafL x.leaf || decide (ownerOf x.leaf x.pa = c))
      | .fetch => leafX x.leaf && decide (k ≤ 1))

/-- The address as a service core uses it: physical, with the rights of machine privilege (R14; chapter 5's first paragraph). -/
def physXl (va : Nat) : Xl := { pa := va % 2 ^ 52, leaf := 0x11F }

/-- Translates an address for an access of a thread (R108, R117, R120): a trap, a miss of the micro-TLB, or the physical
address and its leaf. -/
def translate (s : State) (c t : Nat) (acc : Acc) (va : Word) : Except Stop Xl :=
  let k := s.ctx c t
  let a := va.toNat
  if 2 ^ 60 ≤ a then .error (.trap cTranslation va)
  else if 4096 ≤ c then
    (if accessOk s c 3 acc (physXl a) then .ok (physXl a) else .error (.trap cAccess va))
  else if !bit (s.core c).root 63 then .error (.trap cTranslation va)
  else match tlbFind (s.core c).utlb (s.core c).tag a with
    | some e => if accessOk s c k.prv acc (e.xl a) then .ok (e.xl a) else .error (.trap cAccess va)
    | none =>
      match k.tlb with
      | .failed b code tval => if b / 2 ^ 16 = a / 2 ^ 16 then .error (.trap code (if code = cTranslation then va else tval)) else .error (.late a)
      | _ => .error (.miss a)

/-- Status codes of a completion record (R227). -/
abbrev stTranslation : BitVec 8 := 1
abbrev stAccess : BitVec 8 := 2
abbrev stPoison : BitVec 8 := 3

/-- The translation of an address that an engine of core c has at hand: one that it keeps, or one of the core's TLBs (R121). -/
def cachedLeaf (s : State) (c a : Nat) (held : List Tlb := []) : Option Tlb :=
  let k := s.core c
  match tlbFind held k.tag a with
  | some e => some e
  | none =>
    match tlbFind k.utlb k.tag a with
    | some e => some e
    | none => tlbFind (s.cluster (clusterOf c)).tlb k.tag a

/-- The leaf that an engine of core c finds for an address, at hand or by a walk (R121). -/
def findLeaf (s : State) (c a : Nat) (held : List Tlb := []) : Option Tlb :=
  let k := s.core c
  match cachedLeaf s c a held with
  | some e => some e
  | none =>
    match walk s k.root a with
    | .leaf level e => some { tag := k.tag, level := level, vpn := a / 2 ^ pageBits level, leaf := e }
    | _ => none

/-- The table words that the walk of an engine's address reads: none where a translation is at hand (R116, R121, R130). -/
def walkPlaces (s : State) (c a : Nat) (held : List Tlb := []) : List (Nat × Nat) :=
  if 2 ^ 60 ≤ a ∨ 4096 ≤ c ∨ bit (s.core c).root 63 = false ∨ (cachedLeaf s c a held).isSome then []
  else (walkFrom s a 4 0 (entryNext (s.core c).root)).2.map (fun pa => (pa, 8))

/-- The translations that an engine keeps after it has used those of some addresses (R121). -/
def keptLeaves (s : State) (c : Nat) (held : List Tlb) (l : List Nat) : List Tlb :=
  l.foldl (fun h a =>
    if 4096 ≤ c ∨ (tlbFind h (s.core c).tag a).isSome then h else match findLeaf s c a with | some e => h ++ [e] | none => h) held

/-- Translates an address of an engine operation that core c issued (R121): the status of its failure, or the address. -/
def translateEngine (s : State) (c prv : Nat) (acc : Acc) (va : Nat) (held : List Tlb := []) : Except (BitVec 8) Xl :=
  if 2 ^ 60 ≤ va then .error stTranslation
  else if 4096 ≤ c then (if accessOk s c prv acc (physXl va) then .ok (physXl va) else .error stAccess)
  else if !bit (s.core c).root 63 then .error stTranslation
  else match findLeaf s c va held with
    | none => match walk s (s.core c).root va with
      | .poison _ => .error stPoison
      | _ => .error stTranslation
    | some e => if accessOk s c prv acc (e.xl va) then .ok (e.xl va) else .error stAccess

/-! ### Invalidation (R122, R123) -/

/-- Entries of a tag that map the page holding an address (R122). -/
def tlbMaps (tag : BitVec 7) (va : Nat) (e : Tlb) : Bool :=
  e.tag == tag && e.vpn == va % 2 ^ 60 / 2 ^ pageBits e.level

/-- The entries that an invalidation removes (R122). -/
def Inv.hits (i : Inv) (e : Tlb) : Bool := if i.kind = 3 then e.tag == i.tag else tlbMaps i.tag i.va e

/-- Is core c in the scope of an invalidation (R122)? -/
def Inv.coversCore (i : Inv) (c : Nat) : Bool :=
  if i.kind = 0 then decide (c = i.core) else if i.kind = 1 then decide (clusterOf c = clusterOf i.core) else true

/-- Is cluster k's TLB in the scope of an invalidation? `xinvl` covers the micro-TLB alone. -/
def Inv.coversCluster (i : Inv) (k : Nat) : Bool :=
  if i.kind = 0 then false else if i.kind = 1 then decide (k = clusterOf i.core) else true

end Sys2Proof.Machine
end

