-- ==== Sys2Proof/Machine/Device.lean ====
section
/-! DEFINITION. Device control space, physical kind 3 (R451), the records that leave the package through completion queues
(R227), and host launches (R453, R454). -/

namespace Sys2Proof.Machine

/-! ### Destinations of things in flight (their numbers do not overlap with order units) -/
/-- Destination number of core c. -/
def dstCore (c : Nat) : Nat := c
/-- Destination number of core c's pending record store. -/
def dstHome (c : Nat) : Nat := 32768 + c
/-- Destination number of region r's completion queue. -/
def dstQueue (r : Nat) : Nat := 2 ^ 62 + r
/-- Destination number of endpoint ep's path of channel key ch. -/
def dstChan (ch ep : Nat) : Nat := 2 ^ 63 + ch * 64 + ep
/-- Destination number of the receives of channel key ch: they perform in the order in which they popped. -/
def dstRecv (ch : Nat) : Nat := 2 ^ 62 + 2 ^ 26 + ch
/-- The number that stands for the host event queue among regions. -/
def hostQueueNo : Nat := 2 ^ 24

/-! ### Completion records (R227, R228) -/

/-- Forms a record for a region's queue and sends it there; words 1 to 3 as R227, the phase when it is written. -/
def State.postRecord (s : State) (src region kind : Nat) (stat : BitVec 8) (num count : Nat) (sig : Word) (note core ctx : Nat) : State :=
  s.fly src (dstQueue region)
    (.record region (BitVec.ofNat 64 (kind * 2 ^ 48 + stat.toNat * 2 ^ 40 + num % 2 ^ 32))
      (BitVec.ofNat 64 (note * 2 ^ 32 + count % 2 ^ 32)) sig (BitVec.ofNat 64 s.time) note core ctx)

/-- A record for the host event queue (R456). -/
def State.hostEvent (s : State) (kind : Nat) (stat : BitVec 8) (num count : Nat) : State :=
  s.postRecord srcHost hostQueueNo kind stat num count 0 0 0 0

/-- The order signature (R227) over contribution identifiers in combination order. -/
def orderSig (ids : List Nat) : Word :=
  ids.foldl (fun sg id => (sg ^^^ BitVec.ofNat 64 id) * 0x100000001B3#64) 0

/-- Writes one completion record of 2^n at a control block of physical address cb: words 1 to 3 and 0 in one write, then the
tail (R227, R228). -/
def State.putRecord (s : State) (cb n tail : Nat) (w0 w1 w2 w3 : Word) : State :=
  let slot := cb + 32 + 32 * (tail % 2 ^ n)
  let ph : Word := if tail / 2 ^ n % 2 = 0 then 1#64 <<< 63 else 0
  (s.wrWords slot [w0 ||| ph, w1, w2, w3]).wr64 (cb + 8) (BitVec.ofNat 64 (tail + 1))

/-! ### Descriptor writes -/

/-- The bits of a translation root word that are not reserved (R7, R109). -/
def rootBits (v : Word) : Word := v &&& 0x800FFFFFFFFFC07F#64

/-- Writes a core's translation root word; a change of `TAG` or `ROOT` clears the micro-TLB (R109). -/
def State.writeRoot (s : State) (c : Nat) (v : Word) : State :=
  let w := rootBits v
  s.modCore c (fun k =>
    { k with root := w, utlb := if field k.root 0 52 = field w 0 52 then k.utlb else [] })

/-- Bytes of an entry of a ring descriptor (R142). -/
def ringEntry (d : Word) : Nat := 512 * 2 ^ bitsN d 37 3
/-- Entries of a ring (R142). -/
def ringCount (d : Word) : Nat := bitsN d 40 6 + 1
/-- Slice offset of entry 0 (R142). -/
def ringBase (d : Word) : Nat := bitsN d 9 12 * 512
/-- `EN` of a ring descriptor. -/
def ringEn (d : Word) : Bool := bit d 0
/-- `LAYOUT` of a ring descriptor (R223). -/
def ringLayout (d : Word) : BitVec 16 := field d 48 16
/-- `EFMT` of a layout word is reserved (R223). -/
def efmtReserved (l : BitVec 16) : Bool := decide (11 ≤ bitsN l 12 4)

/-- Does a stash epilogue name the ring (R388)? -/
def EpiDesc.stashes (d : EpiDesc) (r : Nat) : Bool := decide (d.mode = 3) && decide (d.dst.toNat = r)

/-- Does a queued or running matrix operation of the core, or its epilogue, name the ring (R143)? -/
def Core.ringInUse (k : Core) (r : Nat) : Bool :=
  k.mat.any (fun o => !o.failed &&
    ((match o.a with | some a => a.ring == r | none => false) || (match o.b with | some b => b.ring == r | none => false)
      || (match o.epi with | some d => d.stashes r | none => false)))
  || k.epi.any (fun x => decide (x.kind ≠ 2) && x.desc.stashes r)

/-- Writes a ring descriptor (R143): none while an operation names the ring. -/
def State.writeRing (s : State) (c r : Nat) (v : Word) : Option State :=
  if (s.core c).ringInUse r then none else
  let d := v &&& 0xFF003FE0001FFE01#64
  let bad := decide (bitsN d 40 6 = 0) || decide (5 ≤ bitsN d 37 3) || decide (ringBase d % ringEntry d ≠ 0)
    || decide (0x1C0000 < ringBase d + ringCount d * ringEntry d)
  some (s.modCore c (fun k => { k with rings := k.rings.set r { desc := if bad then d &&& ~~~(1#64) else d } }))

/-- A log descriptor's pending value takes effect when the ring holds no unshipped record (R147), a spill descriptor's when
the spill area has drained. -/
def Log.settle (l : Log) : Log :=
  let l := match l.descNext with
    | some d => if l.ringUse = 0 then { l with desc := d, descNext := none } else l
    | none => l
  match l.spillNext with
  | some d => if l.spillUse = 0 then { l with spill := d, spillNext := none } else l
  | none => l

/-- Writes the log descriptor (R147): ignored when malformed, else in force once the ring has drained. -/
def State.writeLogDesc (s : State) (c : Nat) (v : Word) : State :=
  let d := v &&& 0x1FC007#64
  let bytes := 32 * ringCap d
  let base := bitsN d 14 7 * 2 ^ 14
  if bitsN d 0 3 = 7 ∨ base % bytes ≠ 0 ∨ 0x1C0000 < base + bytes then s
  else s.modCore c (fun k => { k with log := { k.log with descNext := some d }.settle })

/-- Writes the log spill descriptor (R148, R170): a clearing of `EN` waits until the area is empty, any other write takes effect at
once (DEDUCED, log 110). -/
def State.writeLogSpill (s : State) (c : Nat) (v : Word) : State :=
  let d := v &&& 0x800FFFFFFFFF0FFF#64
  let base := bitsN d 16 36 * 2 ^ 16
  let bad := decide (kindOf base ≠ 1) || !paOk base || !paOk (base + (bitsN d 0 12 + 1) * 65536 - 1)
  let d := if bad then d &&& ~~~(1#64 <<< 63) else d
  s.modCore c (fun k =>
    if !bit d 63 ∧ k.log.spillUse ≠ 0 then { k with log := { k.log with spillNext := some d } }
    else { k with log := { k.log with spill := d, spillNext := none } })

/-- Records that the arrival spill ring holds (R193). -/
def spillRecords (d : Word) : Nat := 2 ^ bitsN d 32 5

/-- Writes the arrival spill descriptor (R193): none while records lie in the ring. -/
def State.writeArrivalSpill (s : State) (c : Nat) (v : Word) : Option State :=
  if (s.core c).spilled ≠ [] then none else
  let d := v &&& 0x8000001F001FF000#64
  let n := bitsN d 32 5
  let bytes := 64 * 2 ^ n
  let base := bitsN d 12 9 * 4096
  let bad := decide (n < 6) || decide (14 < n) || decide (base % bytes ≠ 0) || decide (0x1C0000 < base + bytes)
  some (s.modCore c (fun k => { k with aspill := if bad then d &&& ~~~(1#64 <<< 63) else d }))

/-- Tag of the tenant that a region belongs to. -/
def State.tagOf (s : State) (r : Nat) : BitVec 7 := (s.region r).tag

/-- A store to the Chronograph request word: firmware fills the record slots with the records of the reader's tenant from the
start number onward, then the status word (R448). -/
def State.chronRequest (s : State) (c : Nat) (start : Word) : State :=
  let tag := (s.core c).tag
  let mine (r : ChRec) : Bool :=
    decide (start.toNat ≤ bitsN r[0] 0 48) &&
    (decide (field r[4] 0 7 = tag) || (decide (field r[2] 0 24 ≠ 0) && decide (s.tagOf (bitsN r[2] 0 24) = tag)))
  let l := (s.chrono.reverse.filter mine).take 16
  s.modCore c (fun k => { k with
    chReq := start, chRecs := (l.map (fun r => r.toList)).flatten, chStat := BitVec.ofNat 64 (2 ^ 63 + l.length) })

/-! ### Host launch (R453, R454) -/

/-- Launch window of a function. -/
def State.window (s : State) (fn : Nat) : Window := s.windows.getD fn {}

/-- Changes a launch window. -/
def State.modWindow (s : State) (fn : Nat) (f : Window → Window) : State := { s with windows := s.windows.set fn (f (s.window fn)) }

/-- Is a launch target word valid (R420): `CL` in bit 63, the number below, every other bit zero? -/
def targetOk (w : Word) : Bool :=
  if bit w 63 then decide (bitsN w 0 63 < 512) else decide (w.toNat < 4096)

/-- Sends a record to the core or cluster of a target word; a core out of service or without budget becomes its cluster
(R198, R420). -/
def State.sendCont (s : State) (src : Nat) (cont : Cont) (cluster : Bool) (n : Nat) : State :=
  if cluster then s.fly src (dstCluster n) (.cont { cont with toCluster := true })
  else if s.acceptsRegion n cont.rcd.region.toNat then s.fly src (dstCore n) (.cont { cont with toCluster := false })
  else s.fly src (dstCluster (n / 8)) (.cont { cont with toCluster := true })

/-- A write of word 0 of a launch record: the record is posted or refused (R454). -/
def State.postLaunch (s : State) (fn : Nat) (w0 : Word) : State :=
  let w := s.window fn
  let r := bitsN w.ctl 0 24
  let words := w0 :: w.words.toList.drop 1
  let ok := bit w.ctl 63 && (s.regions.get? r).isSome && !(s.region r).dead && s.contRoom r && targetOk w.tgt
  if ok then
    let rcd := { Rec.ofWords words with m := false, s := false, ext := false, hop := 0, prio := s.prio r, region := BitVec.ofNat 24 r }
    let s := s.modWindow fn (fun w => { w with acc := w.acc + 1, words := w.words.set 0 w0 })
    (s.contStart r).sendCont srcHost { rcd := rcd } (bit w.tgt 63) (bitsN w.tgt 0 (if bit w.tgt 63 then 9 else 12))
  else
    let s := s.modWindow fn (fun w => { w with ref := w.ref + 1, words := w.words.set 0 w0 })
    s.hostEvent 0x11 0 fn (s.window fn).ref.toNat

/-! ### Reads and writes of device control space (R451) -/

/-- Identity word (R451). -/
def identityWord : Word := BitVec.ofNat 64 (0x4096 * 2 ^ 48 + 8 * 2 ^ 40 + (if Config.revB0 then 0xB0 else 0xA1) * 2 ^ 8)

/-- The word at offset o of core c's page (R451). -/
def State.pageRead (s : State) (c o : Nat) : Word :=
  let k := s.core c
  if o = 0 then k.root
  else if 0x400 ≤ o ∧ o < 0x500 then (k.ring ((o - 0x400) / 8)).desc
  else if o = 0x500 then k.log.desc
  else if o = 0x508 then k.log.spill
  else if o = 0x510 then k.log.tail.setWidth 64
  else if o = 0x518 then k.log.front.setWidth 64
  else if o = 0x520 then k.log.ship.setWidth 64
  else if o = 0x540 then k.aspill
  else if o = 0x548 then BitVec.ofNat 64 k.spilled.length
  else if o = 0x560 then ofBool64 (hasFp64 c)
  else if o = 0x600 then (if c % 8 = 0 then (s.cluster (c / 8)).window else 0)
  else if 0x800 ≤ o ∧ o < 0x840 then (k.perf[(o - 0x800) / 8 % 8]'(Nat.mod_lt _ (by decide))).sel
  else if 0x840 ≤ o ∧ o < 0x880 then (k.perf[(o - 0x840) / 8 % 8]'(Nat.mod_lt _ (by decide))).count.setWidth 64
  else if 0x1000 ≤ o ∧ o < 0x2000 then
    let n := k.ctr ((o - 0x1000) / 64)
    let j := (o - 0x1000) / 8 % 8
    if j = 0 then (n.region.setWidth 64 <<< 40) ||| n.val.setWidth 64
    else if j ≤ 4 then n.trig[(j - 1) % 4]'(Nat.mod_lt _ (by decide)) else 0
  else if o = 0x3000 then k.chReq
  else if o = 0x3008 then k.chStat
  else if 0x3040 ≤ o ∧ o < 0x3440 then k.chRecs.getD ((o - 0x3040) / 8) 0
  else 0

/-- The 64-bit word of device control space at offset o, a multiple of 8 (R451). -/
def State.devRead (s : State) (o : Nat) : Word :=
  if o < 0x4000000 then s.pageRead (o / 0x4000) (o % 0x4000)
  else if o = 0x4000000 then identityWord
  else if o = 0x4000010 then s.hostWin
  else if 0x4001000 ≤ o ∧ o < 0x4001040 then s.pf[(o - 0x4001000) / 8 % 8]'(Nat.mod_lt _ (by decide))
  else if 0x4010000 ≤ o ∧ o < 0x4010000 + 0x1000 * 128 then
    let w := s.window ((o - 0x4010000) / 0x1000)
    let j := o % 0x1000
    if j = 0x40 then w.tgt
    else if j = 0x48 then (w.acc.setWidth 64 <<< 32) ||| w.ref.setWidth 64
    else if j = 0x50 then w.ctl
    else 0
  else 0

/-- Writes the word at offset o of core c's page; none while the write has to wait (R143, R193). A read-only or reserved word
ignores the write (R6, R7). -/
def State.pageWrite (s : State) (c o : Nat) (v : Word) : Option State :=
  if o = 0 then some (s.writeRoot c v)
  else if 0x400 ≤ o ∧ o < 0x500 then s.writeRing c ((o - 0x400) / 8) v
  else if o = 0x500 then some (s.writeLogDesc c v)
  else if o = 0x508 then some (s.writeLogSpill c v)
  else if o = 0x540 then s.writeArrivalSpill c v
  else if 0x800 ≤ o ∧ o < 0x840 then
    some (s.modCore c (fun k =>
      let i := (o - 0x800) / 8 % 8
      { k with perf := k.perf.set i { k.perf[i]'(Nat.mod_lt _ (by decide)) with sel := v &&& 0xFFFF00FF#64 } (Nat.mod_lt _ (by decide)) }))
  else if o = 0x3000 then some (s.chronRequest c v)
  else some s

/-- Issues the PF command block: bit 63 of word 7 sends its words to firmware (R455). -/
def State.pfIssue (s : State) : State :=
  if bit s.pf[7] 63 then { s with cmds := s.cmds ++ [{ words := s.pf.toList, from? := none }] } else s

/-- Writes a 64-bit word of device control space; none while the write has to wait. A host-managed window word that breaks R452 is
ignored (DESIGN CHOICE, log 107). -/
def State.devWrite (s : State) (o : Nat) (v : Word) : Option State :=
  if o < 0x4000000 then s.pageWrite (o / 0x4000) (o % 0x4000) v
  else if o = 0x4000010 then
    (if bitsN v 0 9 ≤ 256 ∧ bitsN v 30 9 + bitsN v 0 9 ≤ 512 then some { s with hostWin := v &&& 0x8000007FC00001FF#64 } else some s)
  else if 0x4001000 ≤ o ∧ o < 0x4001040 then
    let i := (o - 0x4001000) / 8 % 8
    let s1 := { s with pf := s.pf.set i v (Nat.mod_lt _ (by decide)) }
    some (if i = 7 then s1.pfIssue else s1)
  else if 0x4010000 ≤ o ∧ o < 0x4010000 + 0x1000 * 128 then
    let fn := (o - 0x4010000) / 0x1000
    let j := o % 0x1000
    if j = 0 then some (s.postLaunch fn v)
    else if j < 0x40 then some (s.modWindow fn (fun w => { w with words := w.words.set (j / 8 % 8) v (Nat.mod_lt _ (by decide)) }))
    else if j = 0x40 then some (s.modWindow fn (fun w => { w with tgt := v }))
    else if j = 0x50 then some (s.modWindow fn (fun w => { w with ctl := v &&& 0x8000000000FFFFFF#64 }))
    else some s
  else some s

/-- Writes bytes to device control space: each 64-bit word they touch is written once, its other bytes as read (log 13). -/
def State.devStore (s : State) (o : Nat) (bs : List Byte) : Option State :=
  let n := bs.length
  let word (s : State) (w : Nat) : Option State :=
    let old := toBytes 8 (s.devRead w).toNat
    let new := (List.range 8).map (fun i => if o ≤ w + i ∧ w + i < o + n then bs.getD (w + i - o) 0 else old.getD i 0)
    s.devWrite w (BitVec.ofNat 64 (ofBytes new))
  let first := o / 8 * 8
  match word s first with
  | none => none
  | some s1 => if first + 8 < o + n then word s1 (first + 8) else some s1

end Sys2Proof.Machine
end

