-- ==== Sys2Proof/Machine/Float.lean ====
section
/-! DEFINITION. Floating-point formats and their arithmetic (R32 to R60): every value is read exactly as a sign, an integer
and a power of two, computed exactly, and rounded once. Only integers are used, so the kernel can evaluate all of it. -/

namespace Sys2Proof.Machine

/-- Special values of a format (R33). -/
inductive FKind where
  /-- infinities and NaNs at the all-ones exponent -/
  | ieee
  /-- E4M3: no infinity, one NaN magnitude -/
  | e4m3
  /-- E2M1: neither -/
  | e2m1
deriving DecidableEq, Repr

/-- A floating-point format: exponent width, mantissa width, bias (R32). -/
structure Fmt where
  ew : Nat
  mw : Nat
  bias : Nat
  kind : FKind := .ieee
deriving DecidableEq, Repr

namespace Fmt
abbrev f64 : Fmt := ⟨11, 52, 1023, .ieee⟩
abbrev f32 : Fmt := ⟨8, 23, 127, .ieee⟩
abbrev bf16 : Fmt := ⟨8, 7, 127, .ieee⟩
abbrev f16 : Fmt := ⟨5, 10, 15, .ieee⟩
abbrev n32 : Fmt := ⟨5, 26, 15, .ieee⟩
abbrev n24 : Fmt := ⟨5, 18, 15, .ieee⟩
abbrev e5m2 : Fmt := ⟨5, 2, 15, .ieee⟩
abbrev e8m10 : Fmt := ⟨8, 10, 127, .ieee⟩
abbrev e4m3 : Fmt := ⟨4, 3, 7, .e4m3⟩
abbrev e2m1 : Fmt := ⟨2, 1, 1, .e2m1⟩
end Fmt

/-- Width of a format's code in bits. -/
def Fmt.width (f : Fmt) : Nat := 1 + f.ew + f.mw
/-- Smallest normal exponent. -/
def Fmt.emin (f : Fmt) : Int := 1 - (f.bias : Int)
/-- Code of the largest finite magnitude (R32). -/
def Fmt.maxMag (f : Fmt) : Nat :=
  match f.kind with
  | .ieee => (2 ^ f.ew - 1) * 2 ^ f.mw - 1
  | .e4m3 => 0x7E
  | .e2m1 => 7
/-- Code of infinity in an IEEE-like format. -/
def Fmt.infMag (f : Fmt) : Nat := (2 ^ f.ew - 1) * 2 ^ f.mw
/-- Canonical NaN (R32, R35); E2M1 has none and gives 0 (R53). -/
def Fmt.nan (f : Fmt) : Nat :=
  match f.kind with
  | .ieee => f.infMag + 2 ^ (f.mw - 1)
  | .e4m3 => 0x7F
  | .e2m1 => 0

/-- A value: NaN (signalling or not), an infinity, or (-1)^neg * m * 2^e. -/
inductive FVal where
  | nan (sig : Bool)
  | inf (neg : Bool)
  | fin (neg : Bool) (m : Nat) (e : Int)
deriving DecidableEq, Repr

/-- The exact value of a code (R32, R33, R37 to R39). -/
def Fmt.decode (f : Fmt) (code : Nat) : FVal :=
  let neg := decide (code / 2 ^ (f.ew + f.mw) % 2 = 1)
  let ef := code / 2 ^ f.mw % 2 ^ f.ew
  let m := code % 2 ^ f.mw
  let num : FVal :=
    if ef = 0 then .fin neg m (f.emin - f.mw) else .fin neg (2 ^ f.mw + m) ((ef : Int) - f.bias - f.mw)
  match f.kind with
  | .ieee =>
    if ef = 2 ^ f.ew - 1 then (if m = 0 then .inf neg else .nan (decide (m < 2 ^ (f.mw - 1)))) else num
  | .e4m3 => if ef = 15 ∧ m = 7 then .nan false else num
  | .e2m1 => num

/-- Flags as in `fflags` (R90). -/
abbrev FFlags := BitVec 5
abbrev flNV : FFlags := 16
abbrev flDZ : FFlags := 8
abbrev flOF : FFlags := 4
abbrev flUF : FFlags := 2
abbrev flNX : FFlags := 1

/-- Rounding modes (R50). -/
inductive RMode where
  | rne | rz | ru | rd
deriving DecidableEq, Repr

/-- The mode of the `frm` field (R50). -/
def RMode.of (b : BitVec 2) : RMode := match b.toNat with | 0 => .rne | 1 => .rz | 2 => .ru | _ => .rd

/-- Does rounding step away from zero? `cmp`: 0 exact, 1 below half, 2 half, 3 above half; `odd`: the kept part is odd. -/
def RMode.up (rm : RMode) (neg odd : Bool) (cmp : Nat) : Bool :=
  match rm with
  | .rne => decide (cmp = 3) || (decide (cmp = 2) && odd)
  | .rz => false
  | .ru => decide (cmp ≠ 0) && !neg
  | .rd => decide (cmp ≠ 0) && neg

/-- Cuts (m + a fraction if sticky) * 2^e to multiples of 2^q: the kept integer and how the rest compares with half. -/
def cut (m : Nat) (e q : Int) (sticky : Bool) : Nat × Nat :=
  if q ≤ e then (m * 2 ^ (e - q).toNat, if sticky then 1 else 0)
  else
    let sh := (q - e).toNat
    let r := m % 2 ^ sh
    let h := 2 ^ (sh - 1)
    (m / 2 ^ sh, if r = 0 ∧ !sticky then 0 else if r < h then 1 else if r = h ∧ !sticky then 2 else 3)

/-- Rounds a nonzero exact magnitude to a format (R51 to R53): the code and the flags. -/
def Fmt.roundMag (f : Fmt) (rm : RMode) (sat neg : Bool) (m : Nat) (e : Int) (sticky : Bool) : Nat × FFlags :=
  let top : Int := e + Nat.log2 m
  let qn : Int := top - f.mw
  let q : Int := max qn (f.emin - f.mw)
  let c := cut m e q sticky
  let k := c.1 + (if rm.up neg (c.1 % 2 == 1) c.2 then 1 else 0)
  let mag := k + (q - (f.emin - f.mw)).toNat * 2 ^ f.mw
  let inexact := decide (c.2 ≠ 0)
  let signed (x : Nat) : Nat := (if neg then 2 ^ (f.ew + f.mw) else 0) + x
  if f.maxMag < mag then
    let toInf := match rm with | .rne => true | .rz => false | .ru => !neg | .rd => neg
    let code :=
      if !toInf then signed f.maxMag
      else match f.kind with
        | .ieee => signed f.infMag
        | .e4m3 => if sat then signed f.maxMag else f.nan
        | .e2m1 => signed f.maxMag
    (code, flOF ||| flNX)
  else
    let cn := cut m e qn sticky
    let kn := cn.1 + (if rm.up neg (cn.1 % 2 == 1) cn.2 then 1 else 0)
    let tiny := decide (top < f.emin) && !(decide (top = f.emin - 1) && decide (kn = 2 ^ (f.mw + 1)))
    (signed mag, if inexact then (if tiny then flUF ||| flNX else flNX) else 0)

/-- Converts a value to a format (R53). -/
def Fmt.round (f : Fmt) (rm : RMode) (sat : Bool) (v : FVal) : Nat × FFlags :=
  let signed (neg : Bool) (x : Nat) : Nat := (if neg then 2 ^ (f.ew + f.mw) else 0) + x
  match v with
  | .nan sig => (f.nan, if sig || f.kind == .e2m1 then flNV else 0)
  | .inf neg =>
    match f.kind with
    | .ieee => (signed neg f.infMag, 0)
    | .e4m3 => if sat then (signed neg f.maxMag, 0) else (f.nan, flNV)
    | .e2m1 => (signed neg f.maxMag, flNV)
  | .fin neg m e => if m = 0 then (signed neg 0, 0) else f.roundMag rm sat neg m e false

/-- Rounds an exact quotient or root that may have a fraction beyond m. -/
def Fmt.roundSticky (f : Fmt) (rm : RMode) (neg : Bool) (m : Nat) (e : Int) (sticky : Bool) : Nat × FFlags :=
  if m = 0 then ((if neg then 2 ^ (f.ew + f.mw) else 0), 0) else f.roundMag rm false neg m e sticky

/-! ### Exact arithmetic -/

/-- Is the value a NaN? -/
def FVal.isNan : FVal → Bool
  | .nan _ => true
  | _ => false
/-- Is the value a signalling NaN? -/
def FVal.isSig : FVal → Bool
  | .nan s => s
  | _ => false
/-- Is the value an infinity? -/
def FVal.isInf : FVal → Bool
  | .inf _ => true
  | _ => false
/-- Is the value a zero? -/
def FVal.isZero : FVal → Bool
  | .fin _ m _ => decide (m = 0)
  | _ => false
/-- Sign bit. -/
def FVal.sign : FVal → Bool
  | .nan _ => false
  | .inf s => s
  | .fin s _ _ => s
/-- Negated value. -/
def FVal.neg : FVal → FVal
  | .nan s => .nan s
  | .inf s => .inf (!s)
  | .fin s m e => .fin (!s) m e
/-- Magnitude. -/
def FVal.abs : FVal → FVal
  | .nan s => .nan s
  | .inf _ => .inf false
  | .fin _ m e => .fin false m e

/-- NV for signalling operands (R35). -/
def nvSig (l : List FVal) : FFlags := if l.any FVal.isSig then flNV else 0

/-- Exact sum of finite values at a common exponent; an exact zero takes the sign of R51's mode. -/
def addFin (rm : RMode) (s1 : Bool) (m1 : Nat) (e1 : Int) (s2 : Bool) (m2 : Nat) (e2 : Int) : FVal :=
  let e := min e1 e2
  let a : Int := (if s1 then -1 else 1) * ((m1 * 2 ^ (e1 - e).toNat : Nat) : Int)
  let b : Int := (if s2 then -1 else 1) * ((m2 * 2 ^ (e2 - e).toNat : Nat) : Int)
  let c := a + b
  if c = 0 then
    (if m1 = 0 ∧ m2 = 0 ∧ s1 = s2 then .fin s1 0 0 else .fin (rm == .rd) 0 0)
  else .fin (decide (c < 0)) c.natAbs e

/-- Sum (R52: infinities of unlike sign are invalid). -/
def FVal.add (rm : RMode) (x y : FVal) : FVal × FFlags :=
  match x, y with
  | .nan _, _ => (.nan false, nvSig [x, y])
  | _, .nan _ => (.nan false, nvSig [x, y])
  | .inf s, .inf t => if s = t then (.inf s, 0) else (.nan false, flNV)
  | .inf s, _ => (.inf s, 0)
  | _, .inf t => (.inf t, 0)
  | .fin s1 m1 e1, .fin s2 m2 e2 => (addFin rm s1 m1 e1 s2 m2 e2, 0)

/-- Product (R52: zero times infinity is invalid). -/
def FVal.mul (x y : FVal) : FVal × FFlags :=
  match x, y with
  | .nan _, _ => (.nan false, nvSig [x, y])
  | _, .nan _ => (.nan false, nvSig [x, y])
  | .inf s, .inf t => (.inf (s != t), 0)
  | .inf s, .fin t m _ => if m = 0 then (.nan false, flNV) else (.inf (s != t), 0)
  | .fin t m _, .inf s => if m = 0 then (.nan false, flNV) else (.inf (s != t), 0)
  | .fin s m e, .fin t n f => (.fin (s != t) (m * n) (e + f), 0)

/-- Fused multiply-add x * y + z, exact before its one rounding. -/
def FVal.fma (rm : RMode) (x y z : FVal) : FVal × FFlags :=
  let p := x.mul y
  if z.isSig then (.nan false, flNV) else
  let r := p.1.add rm z
  (r.1, p.2 ||| r.2)

/-- Integer square root: the largest r with r * r ≤ n, bit by bit from bit k - 1. -/
def isqrtFrom (n : Nat) : Nat → Nat → Nat
  | 0, r => r
  | k + 1, r => isqrtFrom n k (if (r + 2 ^ k) * (r + 2 ^ k) ≤ n then r + 2 ^ k else r)

/-- Integer square root. -/
def isqrt (n : Nat) : Nat := isqrtFrom n (Nat.log2 n / 2 + 1) 0

/-- Quotient in a format (R52). -/
def Fmt.div (f : Fmt) (rm : RMode) (x y : FVal) : Nat × FFlags :=
  match x, y with
  | .nan _, _ => (f.nan, nvSig [x, y])
  | _, .nan _ => (f.nan, nvSig [x, y])
  | .inf _, .inf _ => (f.nan, flNV)
  | .inf s, .fin t _ _ => f.round rm false (.inf (s != t))
  | .fin s _ _, .inf t => f.round rm false (.fin (s != t) 0 0)
  | .fin s m e, .fin t n g =>
    if n = 0 then (if m = 0 then (f.nan, flNV) else ((f.round rm false (.inf (s != t))).1, flDZ))
    else if m = 0 then f.round rm false (.fin (s != t) 0 0)
    else
      let k := f.mw + 4 + Nat.log2 n
      let q := m * 2 ^ k / n
      f.roundSticky rm (s != t) q (e - g - k) (decide (m * 2 ^ k % n ≠ 0))

/-- Square root in a format (R52). -/
def Fmt.sqrt (f : Fmt) (rm : RMode) (x : FVal) : Nat × FFlags :=
  match x with
  | .nan s => (f.nan, if s then flNV else 0)
  | .inf s => if s then (f.nan, flNV) else f.round rm false (.inf false)
  | .fin s m e =>
    if m = 0 then f.round rm false (.fin s 0 0)
    else if s then (f.nan, flNV)
    else
      let k := 2 * (f.mw + 4) + (if e % 2 = 0 then 0 else 1)
      let n := m * 2 ^ k
      let r := isqrt n
      f.roundSticky rm false r ((e - k) / 2) (decide (r * r ≠ n))

/-- Order of two values that are no NaN: less than. -/
def FVal.lt (x y : FVal) : Bool :=
  match x, y with
  | .inf s, .inf t => s && !t
  | .inf s, .fin _ _ _ => s
  | .fin _ _ _, .inf t => !t
  | .fin s m e, .fin t n f =>
    let g := min e f
    let a : Int := (if s then -1 else 1) * ((m * 2 ^ (e - g).toNat : Nat) : Int)
    let b : Int := (if t then -1 else 1) * ((n * 2 ^ (f - g).toNat : Nat) : Int)
    decide (a < b)
  | _, _ => false

/-- Numerically equal (no NaN; the two zeros are equal). -/
def FVal.eq (x y : FVal) : Bool := !x.isNan && !y.isNan && !(x.lt y) && !(y.lt x)

/-- Less than in the total order in which −0 lies below +0 (R36, R246). -/
def FVal.tlt (x y : FVal) : Bool := x.lt y || (x.isZero && y.isZero && x.sign && !y.sign)

/-- IEEE 754-2019 minimum and maximum (R36). -/
def FVal.minimum (x y : FVal) : FVal := if x.isNan || y.isNan then .nan false else if y.tlt x then y else x
/-- IEEE 754-2019 maximum (R36). -/
def FVal.maximum (x y : FVal) : FVal := if x.isNan || y.isNan then .nan false else if x.tlt y then y else x

/-- Rounds a value to an integer: the integer and whether it is inexact (R54). -/
def roundInt (rm : RMode) (s : Bool) (m : Nat) (e : Int) : Int × Bool :=
  let c := cut m e 0 false
  let k := c.1 + (if rm.up s (c.1 % 2 == 1) c.2 then 1 else 0)
  (if s then -(k : Int) else (k : Int), decide (c.2 ≠ 0))

/-- Converts to an integer of the range [lo, hi] (R54). -/
def FVal.toInt (rm : RMode) (lo hi : Int) (v : FVal) : Int × FFlags :=
  match v with
  | .nan _ => (0, flNV)
  | .inf s => (if s then lo else hi, flNV)
  | .fin s m e =>
    let r := roundInt rm s m e
    if r.1 < lo then (lo, flNV) else if hi < r.1 then (hi, flNV) else (r.1, if r.2 then flNX else 0)

/-- An integer as a value (R55). -/
def FVal.ofInt (i : Int) : FVal := .fin (decide (i < 0)) i.natAbs 0

/-! ### Operations on codes -/

/-- a + b in a format. -/
def Fmt.add (f : Fmt) (rm : RMode) (a b : Nat) : Nat × FFlags :=
  let r := (f.decode a).add rm (f.decode b); let q := f.round rm false r.1; (q.1, r.2 ||| q.2)
/-- a - b. -/
def Fmt.sub (f : Fmt) (rm : RMode) (a b : Nat) : Nat × FFlags :=
  let r := (f.decode a).add rm (f.decode b).neg; let q := f.round rm false r.1; (q.1, r.2 ||| q.2)
/-- a * b. -/
def Fmt.mul (f : Fmt) (rm : RMode) (a b : Nat) : Nat × FFlags :=
  let r := (f.decode a).mul (f.decode b); let q := f.round rm false r.1; (q.1, r.2 ||| q.2)
/-- (±a) * b ± c, rounded once. -/
def Fmt.fma (f : Fmt) (rm : RMode) (na nc : Bool) (a b c : Nat) : Nat × FFlags :=
  let x := f.decode a
  let z := f.decode c
  let r := FVal.fma rm (if na then x.neg else x) (f.decode b) (if nc then z.neg else z)
  let q := f.round rm false r.1
  (q.1, r.2 ||| q.2)
/-- a / b. -/
def Fmt.quot (f : Fmt) (rm : RMode) (a b : Nat) : Nat × FFlags := f.div rm (f.decode a) (f.decode b)
/-- Square root of a. -/
def Fmt.root (f : Fmt) (rm : RMode) (a : Nat) : Nat × FFlags := f.sqrt rm (f.decode a)
/-- Minimum or maximum of two codes (R36); a signalling operand raises NV (R35). -/
def Fmt.minmax (f : Fmt) (mx : Bool) (a b : Nat) : Nat × FFlags :=
  let x := f.decode a
  let y := f.decode b
  ((f.round .rne false (if mx then x.maximum y else x.minimum y)).1, nvSig [x, y])
/-- Conversion from format f to format g (R53). -/
def Fmt.cvt (f g : Fmt) (rm : RMode) (sat : Bool) (a : Nat) : Nat × FFlags := g.round rm sat (f.decode a)

/-- FP32 code of a value under RNE, without flags. -/
def toF32 (v : FVal) : Nat := (Fmt.f32.round .rne false v).1
/-- FP32 sum under RNE, without flags (R51). -/
def addF32 (a b : Nat) : Nat := (Fmt.f32.add .rne a b).1
/-- FP32 product under RNE. -/
def mulF32 (a b : Nat) : Nat := (Fmt.f32.mul .rne a b).1

/-- Floor of the binary logarithm of a nonzero finite magnitude. -/
def FVal.log2 : FVal → Int
  | .fin _ m e => e + Nat.log2 m
  | _ => 0

/-- Value of an E8M0 scale (R40). -/
def e8m0 (c : Nat) : FVal := if c % 256 = 255 then .nan false else .fin false 1 ((c % 256 : Nat) - 127 : Int)

/-- FP32 code of 1.0. -/
abbrev one32 : Nat := 0x3F800000

/-- Two's complement value of the low n bits. -/
def sInt (n x : Nat) : Int := if x % 2 ^ n < 2 ^ (n - 1) then ((x % 2 ^ n : Nat) : Int) else ((x % 2 ^ n : Nat) : Int) - 2 ^ n
/-- The low n bits of an integer (R30). -/
def uWrap (n : Nat) (i : Int) : Nat := (i % 2 ^ n).toNat

/-! ### Groups and scales (R46 to R49, R56) -/

/-- GroupSum of exact products (R56); `pruned` products are simply left out of the list. -/
def groupSum (ps : List FVal) : Nat :=
  if ps.any FVal.isNan || (ps.any (fun p => p.isInf && p.sign) && ps.any (fun p => p.isInf && !p.sign)) then Fmt.f32.nan
  else match ps.find? FVal.isInf with
    | some p => toF32 p
    | none =>
      let nz := ps.filter (fun p => !p.isZero)
      match nz with
      | [] => 0
      | p :: rest =>
        let emax := rest.foldl (fun a q => max a q.log2) p.log2
        let lsb := emax - 50
        let term (q : FVal) : Int :=
          match q with
          | .fin s m e =>
            if lsb ≤ e then (if s then -1 else 1) * ((m * 2 ^ (e - lsb).toNat : Nat) : Int)
            else ((if s then -1 else 1) * (m : Int)) / (2 ^ (lsb - e).toNat : Nat)
          | _ => 0
        let sum := nz.foldl (fun a q => a + term q) 0
        if sum = 0 then 0 else toF32 (.fin (decide (sum < 0)) sum.natAbs lsb)

/-- ApplyScale: a partial sum times a block scale (R49); an infinite scale that meets a zero element gives NaN and counts as
0 times infinity. `zero`: some element of the block is zero. -/
def applyScale (part : Nat) (s : FVal) (zero : Bool) : Nat × FFlags :=
  if s.isInf && zero then (Fmt.f32.nan, flNV)
  else let r := (Fmt.f32.decode part).mul s; let q := Fmt.f32.round .rne false r.1; (q.1, r.2 ||| q.2)

/-- ScaledElement (R48): element x, block scale and tensor scale as values. -/
def scaledElement (x bs ts : FVal) : Nat × FFlags :=
  if bs.isNan then (Fmt.f32.nan, nvSig [x])
  else if bs.isInf then
    (if x.isZero then (Fmt.f32.nan, flNV) else let r := x.mul bs; (toF32 r.1, r.2))
  else
    let r := x.mul bs
    let v := Fmt.f32.round .rne false r.1
    let r2 := (Fmt.f32.decode v.1).mul ts
    let w := Fmt.f32.round .rne false r2.1
    (w.1, r.2 ||| v.2 ||| r2.2 ||| w.2)

/-! ### The nested family (R42 to R44) -/

/-- RoundPlanes (R44): `lead` has 8n bits. -/
def roundPlanes (lead guard n : Nat) (sat : Bool) : Nat :=
  let mb := 8 * n - 6
  let s := lead / 2 ^ (8 * n - 1)
  let mag := lead % 2 ^ (8 * n - 1)
  if mag / 2 ^ mb = 31 then lead
  else
    let mag := if guard > 0x80 ∨ (guard = 0x80 ∧ mag % 2 = 1) then mag + 1 else mag
    let mag := if mag / 2 ^ mb = 31 then (if sat then 30 * 2 ^ mb + (2 ^ mb - 1) else 31 * 2 ^ mb) else mag
    s * 2 ^ (8 * n - 1) + mag

end Sys2Proof.Machine
end

