-- ==== Sys2Proof/Machine/Bundle.lean ====
section
/-! DEFINITION. What a slot of a bundle sees and what it changes: the environment before the bundle (R285), the work done so
far, and the description of a slot by which the core checks and executes it (R64 to R73, R94, R287 to R292). -/

namespace Sys2Proof.Machine

/-- What the slots of a bundle see: the state before the bundle, the context, the addresses of this bundle and of the next in
address order (R285). -/
structure Env where
  s : State
  c : Nat
  t : Nat
  pc : BitVec 60
  next : BitVec 60
  /-- this slot's word (R102) -/
  word : SlotWord := 0
  /-- its emitted index (R101) -/
  idx : BitVec 3 := 0
  /-- the staged command that a trigger fires, in place of a bundle (R268, R423) -/
  stg : Option Staged := none
  /-- v registers that the bundle pops, in the order in which it does (R66) -/
  pops : List Nat := []

/-- The context's registers before the bundle. -/
abbrev Env.k (e : Env) : Ctx := e.s.ctx e.c e.t

/-- A core with what a table held before. -/
def OldTable.back (o : OldTable) (k : Core) : Core :=
  if o.table < 4 then { k with dec := match o.dec with | some d => k.dec.set o.table d | none => k.dec.erase o.table }
  else { k with cur := match o.cur with | some l => k.cur.set (o.table - 4) l | none => k.cur.erase (o.table - 4) }

/-- The issuing core as the slots of this bundle see its tables: a slot of a bundle that loads a table sees what the table held
before (R10, R252). -/
def Env.tables (e : Env) : Core :=
  let k := e.s.core e.c
  match e.stg with
  | none => e.k.loaded.foldr OldTable.back k
  | some _ => k

/-- The region that issues: the context's, or the one that staged the command. -/
def Env.region (e : Env) : BitVec 24 := match e.stg with | some g => g.region | none => e.k.region

/-- Translates an address at issue (R117, R120, R121). A staged command uses the translations that it was staged with, and
makes one again, without a miss, when they do not hold it (R423). -/
def Env.tr (e : Env) (acc : Acc) (ea : Word) : Except Stop Xl :=
  match e.stg with
  | none => translate e.s e.c e.t acc ea
  | some g =>
    match translateEngine e.s e.c (prvOf e.c e.t).toNat acc ea.toNat g.tlbs with
    | .ok x => .ok x
    | .error st => .error (.trap (if st = stAccess then cAccess else if st = stPoison then cPoison else cTranslation) ea)

/-- The translations that an engine operation has made at its issue, of the first bytes of its operands (R121). -/
def Env.kept (e : Env) (l : List Word) : List Tlb :=
  keptLeaves e.s e.c (match e.stg with | some g => g.tlbs | none => []) (l.map (·.toNat))

/-- Where control goes after the bundle (R285, last point). -/
inductive Xfer where
  | none
  /-- a taken branch, jump or return -/
  | goto (pc : BitVec 60)
  /-- a call to `pc`: x31 receives the next bundle's address after every other effect (R315) -/
  | call (pc : BitVec 60)
  | tret
  | uiret
  /-- voluntary suspension: `yield` (false) or `migr` to a target (R415, R419) -/
  | yield
  | migr (cluster : Bool) (n : Nat)
  | waitw
  /-- the continuation parks and its bundle executes again when it wakes (R203, R416) -/
  | park (w : WaitFor)
  | parkRecv (ch : Nat) (a : Word)
  | parkSend (ch ep : Nat) (a d : Word)

/-- The latch that a result-producing slot fills (R71): a value, a result that is still awaited, or none (false guard). -/
inductive LatRes where
  | val (v : Vec)
  | await (rep : Option Nat)
  | none

/-- The work of the slots so far. -/
structure Work where
  s : State
  flags : FFlags := 0
  lat : List LatRes := []
  /-- what the pairing fingerprint folds (R276) -/
  folds : List (Option Nat × Vec) := []
  xfer : Xfer := .none
  /-- stream bindings that govern from the next bundle (R365): register, binding word, pattern descriptor -/
  binds : List (Nat × Word × List Word) := []
  /-- acquire slots so far (R353) -/
  acqs : Nat := 0
  /-- a `pairon` couples the thread with a context of the buddy core once the bundle has completed (R427) -/
  pairOn : Option (Nat × Nat) := none
  /-- a `pairoff` ends the pairing once the bundle has completed (R427) -/
  pairOff : Bool := false
  /-- invalidations of instruction lines that the bundle has waited for: the fetch buffer is dropped (R431) -/
  refetch : Bool := false
  /-- table loads of the bundle that are still to be queued (R252) -/
  loads : List TableLoad := []

/-- A slot as the core checks and executes it. -/
structure SlotDef where
  /-- guard predicate; 0 for B and L slots (R289) -/
  g : Nat := 0
  /-- codes of the x-file operands (R287) -/
  xs : List (BitVec 6) := []
  /-- codes of the v-file operands -/
  vs : List (BitVec 6) := []
  /-- x registers that the slot reads through field d -/
  xo : List Nat := []
  /-- v registers that the slot reads through field d as operands: such a read counts as a stream read (R323) -/
  vo : List Nat := []
  /-- v registers that the slot reads for merging only (R323) -/
  vm : List Nat := []
  /-- the slot is result-producing with x register d (R71) -/
  xd : Option (BitVec 6) := none
  /-- the slot is result-producing with v register d -/
  vd : Option (BitVec 6) := none
  /-- x register that an E slot writes, without a latch (R71) -/
  xe : Option (BitVec 6) := none
  /-- the slot writes x31 with a return address (R63, R315, R316) -/
  link : Bool := false
  /-- tile operands, numbered in the window (R75) -/
  tiles : List Nat := []
  /-- privilege level that the slot needs (R84, R85) -/
  lvl : Nat := 0
  /-- the slot needs FP64, extension bit 0 (R292) -/
  fp64 : Bool := false
  /-- the slot waits for an agreement while its context runs paired (R435) -/
  sync : Bool := false
  /-- of the slots that wait for an agreement: both twins carry it out -/
  both : Bool := false
  /-- an illegal field: the slot word is reported with source 0 (R287) -/
  bad : Bool := false
  /-- an illegal modifier word, reported with source 0 (R291) -/
  badMod : Option (BitVec 24) := none
  /-- other illegal-opcode conditions, with the `tval` that they report (R46, R102) -/
  check : Env → Option Word := fun _ => none
  /-- illegal-opcode conditions on operand values: like every such condition they hold whatever the guard (R94), but only where no
  operand reads an invalid latch -/
  ill : Env → Bool := fun _ => false
  /-- `placept`: illegal in a bundle that holds a control slot (R428) -/
  place : Bool := false
  /-- the effect -/
  run : Env → Work → Except Stop Work

/-! ### Modifier words and immediates (R290, R291) -/

/-- Reports a modifier word with a reserved bit, or with a field that the follower does not use (R291). -/
def modCheck (p : Option (BitVec 24)) (fw sat msk : Bool) : Option (BitVec 24) :=
  match p with
  | none => none
  | some m =>
    if bitsN m 14 10 ≠ 0 ∨ (!fw && decide (bitsN m 4 10 ≠ 0)) = true ∨ (!sat && bit m 3) = true
        ∨ (!msk && decide (bitsN m 0 3 ≠ 0)) = true
    then some m else none

/-- `MSK` of the modifier word (R291). -/
def modMsk (p : Option (BitVec 24)) : Nat := bitsN (p.getD 0) 0 3
/-- `SAT`. -/
def modSat (p : Option (BitVec 24)) : Bool := bit (p.getD 0) 3
/-- `FW`. -/
def modFw (p : Option (BitVec 24)) : BitVec 10 := field (p.getD 0) 4 10

/-- An I immediate, sign-extended (R290, R291). -/
def immS (p : Option (BitVec 24)) (i : BitVec 9) : Word :=
  match p with | none => i.signExtend 64 | some x => (x ++ i : BitVec 33).signExtend 64
/-- An I·U immediate, zero-extended. -/
def immU (p : Option (BitVec 24)) (i : BitVec 9) : Word :=
  match p with | none => i.setWidth 64 | some x => (x ++ i : BitVec 33).setWidth 64
/-- An L immediate. -/
def immL (p : Option (BitVec 24)) (i : BitVec 18) : Word :=
  match p with | none => i.signExtend 64 | some x => (x ++ i : BitVec 42).signExtend 64
/-- A B offset in words. -/
def immB (p : Option (BitVec 24)) (o : BitVec 20) : Word :=
  match p with | none => o.signExtend 64 | some x => (x ++ o : BitVec 44).signExtend 64

/-- An address at a word offset from the bundle (R314, R315). -/
def bundleOffset (pc : BitVec 60) (w : Word) : BitVec 60 := ((pc.setWidth 64) + w * 4).setWidth 60

/-! ### Operands (R66, R287, R288) -/

/-- Kind of the binding of a v register: 0 unbound, 1 receive, 2 send, 3 pattern load, 4 pattern store (R68). -/
def Ctx.bindKind (k : Ctx) (r : Nat) : Nat := if 24 ≤ r then (let n := bitsN (k.rb (r - 24)) 61 3; if n ≤ 4 then n else 0) else 0
/-- The register is bound for reading. -/
def Ctx.readBound (k : Ctx) (r : Nat) : Bool := let n := k.bindKind r; decide (n = 1) || decide (n = 3)
/-- The register is bound for writing. -/
def Ctx.writeBound (k : Ctx) (r : Nat) : Bool := let n := k.bindKind r; decide (n = 2) || decide (n = 4)

/-- An x-file operand (R287). -/
def Env.xa (e : Env) (code : BitVec 6) : Word :=
  if code.toNat < 32 then e.k.rx code.toNat else (e.k.rq (code.toNat - 32)).setWidth 64

/-- Register number of a d field. -/
def dReg (d : BitVec 6) : Nat := bitsN d 0 5
/-- `N` of a d field. -/
def dN (d : BitVec 6) : Bool := bit d 5

/-- Old(d) of the x file (R302). -/
def Env.xOld (e : Env) (d : BitVec 6) : Word := e.k.rx (dReg d)

/-! ### Pairing roles (R434) -/

/-- How a context's values and effects are shared: alone, as a primary that performs, or taking what has been performed (a
secondary, or either twin in a re-run). -/
inductive Role where
  | solo | give | take
deriving DecidableEq, Repr

/-- Role of a context (R434, R437). -/
def Ctx.role (k : Ctx) : Role :=
  match k.pair with
  | none => .solo
  | some p => if p.primary ∧ p.phase = 0 then .give else .take

/-- Does a context's bundle append, as the primary or alone (R434)? -/
def Ctx.appends (k : Ctx) : Bool := match k.pair with | none => true | some p => p.primary

/-- The replay buffer of a paired context: the primary's (R436). -/
def State.replayOf (s : State) (k : Ctx) : Tab Vec :=
  match k.pair with
  | none => []
  | some p => if p.primary then p.replay else (match (s.ctx p.twinCore p.twinCtx).pair with | some q => q.replay | none => [])

/-- Changes the pairing record of a context. -/
def State.modPair (s : State) (c t : Nat) (f : Pair → Pair) : State :=
  s.modCtx c t (fun k => { k with pair := k.pair.map f })

/-- Does the next value come from the replay buffer? -/
def Work.takes (w : Work) (e : Env) : Bool := (w.s.ctx e.c e.t).role == .take

/-- The next value of the replay buffer, or a forfeit while the primary has not sent it (R434, R437). -/
def Work.take (w : Work) (e : Env) : Except Stop (Vec × Work) :=
  match (w.s.ctx e.c e.t).pair with
  | none => .ok (0, w)
  | some p =>
    match (w.s.replayOf (w.s.ctx e.c e.t)).get? p.taken with
    | none => .error (.forfeit 1)
    | some v => .ok (v, { w with s := w.s.modPair e.c e.t (fun p => { p with taken := p.taken + 1 }) })

/-- A primary keeps a value that it has at once in its replay buffer (R436). -/
def Work.give (w : Work) (e : Env) (v : Vec) : Work :=
  match (w.s.ctx e.c e.t).role with
  | .give => { w with s := w.s.modPair e.c e.t (fun p => { p with replay := p.replay.set p.issued v, issued := p.issued + 1 }) }
  | _ => w

/-- The number that a primary gives to a value that will come later. -/
def Work.number (w : Work) (e : Env) : Option Nat × Work :=
  match (w.s.ctx e.c e.t).pair with
  | some p =>
    if p.primary ∧ p.phase = 0 then
      (some p.issued, { w with s := w.s.modPair e.c e.t (fun p => { p with issued := p.issued + 1 }) })
    else (none, w)
  | none => (none, w)

/-! ### Results (R62, R65, R71) -/

/-- Changes the context of the bundle. -/
def Work.modCtx (w : Work) (e : Env) (f : Ctx → Ctx) : Work := { w with s := w.s.modCtx e.c e.t f }

/-- Raises flags. -/
def Work.raise (w : Work) (f : FFlags) : Work := { w with flags := w.flags ||| f }

/-- A 64-bit result for x register d: written unless `N` is set, and kept for the latch (R62, R71). -/
def Work.outX (w : Work) (e : Env) (d : BitVec 6) (v : Word) : Work :=
  let w := if dN d then w else w.modCtx e (fun k => k.wx (dReg d) v)
  { w with lat := w.lat ++ [.val (v.setWidth 128)], folds := w.folds ++ [(none, v.setWidth 128)] }

/-- The result of an E slot, without a latch. -/
def Work.outE (w : Work) (e : Env) (d : BitVec 6) (v : Word) : Work :=
  if dN d then w else w.modCtx e (fun k => k.wx (dReg d) v)

/-- Writes a predicate pair (R69, R309). -/
def Work.outP (w : Work) (e : Env) (d : Nat) (r : Bool) : Work := w.modCtx e (fun k => (k.wp d r).wp (d + 1) (!r))

/-- Folds a store: its effective address, then its data (R276). -/
def Work.foldStore (w : Work) (ea : Word) (data : Vec) : Work :=
  { w with folds := w.folds ++ [(none, ea.setWidth 128), (none, data)] }

/-- Marks an x (or v) register and the latch of this slot as awaiting a result (R64). -/
def Work.pend (w : Work) (e : Env) (isV : Bool) (d : BitVec 6) (rep : Option Nat) : Work :=
  let r := dReg d
  let w := if dN d ∨ (!isV ∧ r = 0) then w else w.modCtx e (fun k =>
    if isV then { k with pendV := k.pendV ||| (1#32 <<< r) } else k.markX r)
  { w with lat := w.lat ++ [.await rep], folds := w.folds ++ [(rep, 0)] }

/-- The register that a result in flight writes: 32 for none. -/
def destReg (isV : Bool) (d : BitVec 6) : Nat := if dN d ∨ (!isV ∧ dReg d = 0) then 32 else dReg d

/-- Name of the latch that the next result-producing slot of this bundle fills, for a result in flight: the bundle's number
times 4 plus the latch; none past the fourth (R71). -/
def Work.latchName (w : Work) (e : Env) : Option Nat :=
  if w.lat.length < 4 then some ((e.k.latSeq + 1) * 4 + w.lat.length) else none

end Sys2Proof.Machine
end

