-- ==== Sys2Proof/Machine/Access.lean ====
section
/-! DEFINITION. Accesses of threads to memory: effective addresses and their checks, the own-record filter, values read, direct
stores, log records and adds in place (R60, R127 to R138, R151 to R173, R346 to R356). -/

namespace Sys2Proof.Machine

/-! ### Checks (R346) -/

/-- Alignment, then translation and access checks of an effective address (R346). -/
def Env.addr (e : Env) (ea : Word) (align : Nat) (acc : Acc) : Except Stop Xl :=
  if ea.toNat % align ≠ 0 then .error (.trap cMisaligned ea) else e.tr acc ea

/-- A read of poisoned bytes traps with cause poison and the physical address of the line (R102, R442). -/
def poisonCheck (s : State) (pa n : Nat) : Except Stop Unit :=
  match s.poisoned pa n with
  | some l => .error (.trap cPoison (BitVec.ofNat 64 l))
  | none => .ok ()

/-! ### The own-record filter (R166) -/

/-- Lines that a record writes (R151, R152). -/
def LogRec.lines (r : LogRec) : List Nat :=
  if r.kind = 2 then ((List.range 4).filter (fun j => bit r.fmt j)).map (fun j => lineOf (r.pa.toNat + 256 * j))
  else [lineOf r.pa.toNat]

/-- The records of core c's active log for a line that have not been applied: in the log, on their way, or pending at home. -/
def State.ownRecs (s : State) (c line : Nat) : List LogRec :=
  let tag := (s.core c).tag
  let at' (r : LogRec) : Bool := r.st != .void && r.lines.contains line
  let mine (h : HomeRec) : Bool := h.core == c && h.tag == tag && at' h.r
  let inLog := (s.core c).log.recs.filter at'
  let flying := s.flight.filterMap (fun f => match f.body with | .logRec h => if mine h then some h.r else none | _ => none)
  let homes := (s.cores.map (fun e => (e.2.home.filter mine).map (fun h => h.r))).flatten
  homes ++ flying ++ inLog

/-- Does a load of one of these lines have to wait for own records (R166)? The first such line. On a direct page only the
records that paired mode has logged for direct pages count (R173). -/
def State.ownHit (s : State) (c : Nat) (logged : Bool) (lines : List Nat) : Option Nat :=
  lines.find? (fun l => (s.ownRecs c l).any (fun r => logged || r.direct))

/-- Is an earlier access of core c to the order unit of an address still on its way (R134)? -/
def State.unitBusy (s : State) (c pa : Nat) : Bool := s.flight.any (fun f => f.src == c && f.units.contains (orderUnit pa))

/-- The lines of the bytes [pa, pa + n). -/
def linesOf (pa n : Nat) : List Nat := (List.range (lineOf (pa + n - 1) + 1 - lineOf pa)).map (· + lineOf pa)

/-! ### Values read -/

/-- The number that stands, among the cores that have written a buffered host line, for all of them: log records have been applied to
the line, and every load sees what has been applied (R137, R159, R168). -/
def hostAll : Nat := 65536

/-- Bytes at a physical address as core c reads them: a device word (R451), a host line that the core itself has buffered or that
holds applied records (R137, R168), or the memory's bytes. -/
def State.readPhys (s : State) (c pa n : Nat) : List Byte :=
  if kindOf pa = 3 then
    let o := pa % 2 ^ 48
    (List.range n).map (fun i => (toBytes 8 (s.devRead ((o + i) / 8 * 8)).toNat).getD ((o + i) % 8) 0)
  else
    match (if kindOf pa = 2 then s.hostBuf.find? (fun h => h.1 == lineOf pa && (h.2.2.contains c || h.2.2.contains hostAll)) else none) with
    | some h => (h.2.1.drop (pa % 64)).take n
    | none => Mem.bytes s.mem pa n

/-- The bytes of the logged-read buffer, if it holds the line (R167). -/
def State.bufRead (s : State) (c pa n : Nat) : Option (List Byte) :=
  match (s.core c).rbuf.find? (fun l => l.1 == lineOf pa) with
  | some l => some ((l.2.drop (pa % 64)).take n)
  | none => none

/-- What a load of a logged page takes from that buffer: nothing of the core may be on its way to the order unit (R134, R167). -/
def State.heldRead (s : State) (c : Nat) (x : Xl) (n : Nat) : Option (List Byte) :=
  if leafL x.leaf = true ∧ s.unitBusy c x.pa = false then s.bufRead c x.pa n else none

/-- Puts a line into the logged-read buffer of 16 lines, the newest first (R167). -/
def State.bufFill (s : State) (c line : Nat) : State :=
  s.modCore c (fun k => { k with rbuf := ((line, s.readPhys c (64 * line) 64) :: k.rbuf.filter (fun l => l.1 != line)).take 16 })

/-- Bytes in place: the core's own slice, so the read completes in the issue cycle (R133). -/
def ownSlice (c pa : Nat) : Bool := decide (kindOf pa = 0) && decide (sliceCore pa = c)

/-- Extends a loaded value (R349). -/
def extendLoad (size : Nat) (sgn : Bool) (raw : List Byte) : Nat :=
  let n := ofBytes raw
  if sgn then uWrap 64 (sInt (8 * size) n) else n

/-- Merges 16 bytes under a lane mask: excluded lanes keep the old byte (R322, R350). -/
def mergeLanes (mask : BitVec 16) (new old : Vec) : Vec :=
  BitVec.ofNat 128 (ofBytes ((List.range 16).map (fun j => if bit mask j then field new (8 * j) 8 else field old (8 * j) 8)))

/-- The register value of a load's bytes: extended for x registers, merged under the mask for v registers. -/
def loadValue (isV : Bool) (size : Nat) (sgn : Bool) (mask : BitVec 16) (old : Vec) (raw : List Byte) : Vec :=
  if isV then mergeLanes mask (BitVec.ofNat 128 (ofBytes raw)) old else BitVec.ofNat 128 (extendLoad size sgn raw)

/-! ### Adds (R60) -/

/-- Width in bytes of an add format (R151); none for a reserved code. -/
def addWidth (fmt : BitVec 8) : Option Nat :=
  match fmt.toNat with
  | 0x00 => some 1 | 0x01 => some 2 | 0x02 => some 4 | 0x03 => some 8
  | 0x10 => some 2 | 0x11 => some 2 | 0x12 => some 4 | 0x13 => some 8
  | _ => none

/-- One element added to the value in memory: integers wrap, floating point rounds by RNE without flags (R60). -/
def addElem (fmt : BitVec 8) (mem rcd : Nat) : Nat :=
  match fmt.toNat with
  | 0x00 => (mem + rcd) % 2 ^ 8
  | 0x01 => (mem + rcd) % 2 ^ 16
  | 0x02 => (mem + rcd) % 2 ^ 32
  | 0x03 => (mem + rcd) % 2 ^ 64
  | 0x10 => (Fmt.bf16.add .rne mem rcd).1
  | 0x11 => (Fmt.f16.add .rne mem rcd).1
  | 0x12 => (Fmt.f32.add .rne mem rcd).1
  | _ => (Fmt.f64.add .rne mem rcd).1

/-- Adds the elements of data to the bytes of memory (R60). -/
def addBytes (fmt : BitVec 8) (mem data : List Byte) : List Byte :=
  match addWidth fmt with
  | none => mem
  | some w =>
    ((List.range (data.length / w)).map (fun i =>
      toBytes w (addElem fmt (ofBytes ((mem.drop (w * i)).take w)) (ofBytes ((data.drop (w * i)).take w))))).flatten

/-! ### Stores (R132, R134, R351 to R356) -/

/-- The largest k of at most n for which 2^k bytes from o on are aligned and enabled. -/
def runLog (en : Nat → Bool) (o : Nat) : Nat → Nat
  | 0 => 0
  | k + 1 =>
    if o % 2 ^ (k + 1) = 0 ∧ o + 2 ^ (k + 1) ≤ 16 ∧ ((List.range (2 ^ (k + 1))).all (fun i => en (o + i))) = true then k + 1
    else runLog en o k

/-- The greedy runs of R352 from offset o upward: offset and log2 of the size. -/
def maskRuns (en : Nat → Bool) : Nat → Nat → List (Nat × Nat)
  | 0, _ => []
  | fuel + 1, o =>
    if 16 ≤ o then []
    else if en o then let k := runLog en o 4; (o, k) :: maskRuns en fuel (o + 2 ^ k)
    else maskRuns en fuel (o + 1)

/-- Appends one record, or forfeits while the log is full (R153, R170). In paired mode the record is held (R172). -/
def Work.append (w : Work) (e : Env) (kind size : Nat) (fmt : BitVec 8) (pa home : Nat) (data : Nat) (direct : Bool) :
    Except Stop Work :=
  if !(w.s.core e.c).log.room 1 then .error (.forfeit 8) else
  let r : LogRec :=
    { kind := BitVec.ofNat 4 kind, size := BitVec.ofNat 4 size, fmt := fmt, pa := BitVec.ofNat 52 pa, rm := bit e.k.status 31
      ctx := BitVec.ofNat 4 e.t, seq := 0, data := BitVec.ofNat 128 data, held := e.k.pair.isSome, home := home, direct := direct }
  let s := w.s.append e.c r
  .ok { w with s := s.modCore e.c (fun k => { k with rbuf := k.rbuf.filter (fun l => !r.lines.contains l.1) }) }

/-- Appends records one after another. -/
def Work.appendAll (w : Work) (e : Env) (kind : Nat) (fmt : BitVec 8) (home : Nat) (direct : Bool) :
    List (Nat × Nat × Nat) → Except Stop Work
  | [] => .ok w
  | (pa, size, data) :: rest =>
    match w.append e kind size fmt pa home data direct with
    | .error x => .error x
    | .ok w => w.appendAll e kind fmt home direct rest

/-- The bytes that a store leaves: its own, or with a format their sums with those in place (R60, R356). -/
def State.summed (s : State) (c : Nat) (add : Option (BitVec 8)) (pa : Nat) (bs : List Byte) : List Byte :=
  match add with
  | none => bs
  | some f => addBytes f (s.readPhys c pa bs.length) bs

/-- Makes a direct store of one run of bytes to the own slice or to device control space (R451); `add` adds in place instead
(R134, R356). -/
def Work.direct (w : Work) (e : Env) (pa : Nat) (bs : List Byte) (add : Option (BitVec 8)) : Except Stop Work :=
  let s := if add.isSome then w.s.eccRange pa bs.length else w.s
  let bs := s.summed e.c add pa bs
  if kindOf pa = 0 then .ok { w with s := s.wrBytes pa bs }
  else
    match s.devStore (pa % 2 ^ 48) bs with
    | some s => .ok { w with s := s }
    | none => .error (.forfeit 9)

/-- Direct stores of several runs. -/
def Work.directAll (w : Work) (e : Env) (add : Option (BitVec 8)) : List (Nat × List Byte) → Except Stop Work
  | [] => .ok w
  | (pa, bs) :: rest =>
    match w.direct e pa bs add with
    | .error x => .error x
    | .ok w => w.directAll e add rest

/-- A store (or, with a format, an add) of the enabled bytes of `data` at a translated address: records on logged pages and in
paired mode, in place on direct pages; a secondary discards it (R132, R172, R351, R352, R356, R434). -/
def Work.store (w : Work) (e : Env) (x : Xl) (data : List Byte) (en : Nat → Bool) (add : Option (BitVec 8)) : Except Stop Work :=
  let runs := maskRuns (fun i => decide (i < data.length) && en i) 16 0
  let part (o k : Nat) : List Byte := (data.drop o).take (2 ^ k)
  if !e.k.appends then .ok w
  else if leafL x.leaf ∨ e.k.pair.isSome then
    w.appendAll e (if add.isSome then 1 else 0) (add.getD 0) (homeOf x.leaf x.pa) (!leafL x.leaf)
      (runs.map (fun r => (x.pa + r.1, r.2, ofBytes (part r.1 r.2))))
  else if kindOf x.pa = 1 ∨ kindOf x.pa = 2 then
    let mask := BitVec.ofNat 16 ((List.range data.length).foldl (fun m i => if en i then m + 2 ^ i else m) 0)
    .ok (if mask = 0 then w else { w with s := w.s.fly e.c (orderUnit x.pa) (.store e.t x.pa data mask add) none e.pc e.idx })
  else w.directAll e add (runs.map (fun r => (x.pa + r.1, part r.1 r.2)))

/-- Is an access of the thread still on its way, for `fence` (R177, R255)? -/
def Flight.ofThread (f : Flight) (c t : Nat) : Bool :=
  f.src == c && (match f.body with
    | .load u _ _ _ _ _ _ _ _ _ => u == t
    | .planed u _ _ _ _ _ _ _ => u == t
    | .store u _ _ _ _ => u == t
    | .cell u _ _ _ _ _ _ => u == t
    | .planes u _ _ _ => u == t
    | .scale u _ _ _ => u == t
    | .result u _ _ _ _ _ => u == t
    | .mail _ (some u) _ _ => u == t
    | _ => false)

/-- Every earlier access of the thread has performed (R177). A mailbox post that still stands in the command queue counts. -/
def State.fenced (s : State) (c t : Nat) : Bool :=
  !(s.flight.any (fun f => f.ofThread c t))
  && !((s.core c).cmdq.any (fun q => match q with | .post _ _ u _ _ => u == t | _ => false))

/-- Every direct store of the thread to kinds 1 and 2 has performed (R135). -/
def State.storesDone (s : State) (c t : Nat) : Bool :=
  !(s.flight.any (fun f => f.src == c && (match f.body with | .store u _ _ _ _ => u == t | .planes u _ _ _ => u == t | _ => false)))

/-- Writes a buffered host line back (R137). -/
def State.writeBack (s : State) (line : Nat) : State :=
  match s.hostBuf.find? (fun h => h.1 == line) with
  | none => s
  | some h => { (s.wrBytes (64 * line) h.2.1) with hostBuf := s.hostBuf.filter (fun h => h.1 != line) }

/-- Writes back the buffered host lines that core c has written (R135, R137). -/
def State.writeBackOf (s : State) (c : Nat) : State :=
  (s.hostBuf.filter (fun h => h.2.2.contains c)).foldl (fun s h => s.writeBack h.1) s

/-- The line for whose own records context t waits: none once they have been applied (R166). -/
def State.ownWait (s : State) (c t : Nat) : Option Nat :=
  (s.ctx c t).ownLine.filter (fun line => !(s.ownRecs c line).isEmpty)

/-- A load waits for the own records of its core on a line; the thread's own records among them are released first (R166). -/
def State.ownViewStart (s : State) (c t line : Nat) : State :=
  let s := s.modCtx c t (fun k => { k with ownLine := some line })
  if (s.ownRecs c line).any (fun r => r.st == .unpublished && decide (r.ctx.toNat = t)) then s.release c t else s

/-- A read of an instruction or of an engine at issue, made at once: own records and earlier accesses to its order unit come
first (R134, R166, R174), a frozen slice and the correction of an error hold it up (R130, R136), and a poisoned line traps (R442). -/
def Env.readNow (e : Env) (x : Xl) (n : Nat) : Except Stop (List Byte) :=
  match e.s.ownHit e.c (leafL x.leaf) (linesOf x.pa n) with
  | some l => .error (.ownView l)
  | none =>
    if e.s.unitBusy e.c x.pa ∨ e.s.serves x.pa = false then .error (.forfeit 9)
    else if e.s.latent x.pa n then .error (.wait 9 (e.s.eccRange x.pa n)) else
    match poisonCheck e.s x.pa n with
    | .error q => .error q
    | .ok _ => .ok (e.s.readPhys e.c x.pa n)

/-- Reads a 64-bit word of the thread's memory at issue (R164, R359). -/
def Env.word64 (e : Env) (ea : Word) : Except Stop Word :=
  match e.addr ea 8 .load with
  | .error q => .error q
  | .ok x =>
    match e.readNow x 8 with
    | .error q => .error q
    | .ok bs => .ok (BitVec.ofNat 64 (ofBytes bs))

/-- Reads n words from ea upward. -/
def Env.words64 (e : Env) : Nat → Word → Except Stop (List Word)
  | 0, _ => .ok []
  | n + 1, ea =>
    match e.word64 ea with
    | .error q => .error q
    | .ok v =>
      match e.words64 n (ea + 8) with
      | .error q => .error q
      | .ok l => .ok (v :: l)

end Sys2Proof.Machine
end

