-- ==== Sys2Proof/Machine/Channels.lean ====
section
/-! DEFINITION. Channels as threads meet them (R212 to R217, R404 to R406), stream bindings (R66 to R68, R365 to R367), and the
vector operands and results that may be streams (R65, R322, R323). -/

namespace Sys2Proof.Machine

/-! ### Channel checks (R214, R235, R396, R404, R405) -/

/-- The channel trap of a number (R214). -/
def chanTrap (n : Word) : Stop := .trap cChannel n

/-- The installed channel of a number in the thread's region, or the channel trap: a number above 4,095 or at or above `NCH`, a
channel that is not installed (R214, R235). -/
def Env.chan (e : Env) (n : Word) : Except Stop (Nat × Chan) :=
  if 4095 < n.toNat ∨ (e.s.region e.region.toNat).nch.toNat ≤ n.toNat then .error (chanTrap n)
  else match e.s.chans.get? (chanKey e.region.toNat n.toNat) with
    | some ch => .ok (chanKey e.region.toNat n.toNat, ch)
    | none => .error (chanTrap n)

/-- Index of core c's send endpoint (R214). -/
def Chan.epOf (ch : Chan) (pkg c : Nat) : Option Nat := findIdx (fun p => p.pkg == pkg && p.core == c) ch.eps

/-- State 1 or 2 (R215). -/
def Chan.live (ch : Chan) : Bool := decide (ch.state = 1) || decide (ch.state = 2)

/-- The checks of a send or end-of-stream (R404): key, channel, endpoint. -/
def Env.sendCheck (e : Env) (n : Word) : Except Stop (Nat × Chan × Nat) :=
  match e.chan n with
  | .error x => .error x
  | .ok (key, ch) =>
    match ch.epOf e.s.pkg.toNat e.c with
    | none => .error (chanTrap n)
    | some i =>
      if ch.kind = 3 ∨ !ch.live ∨ ((ch.eps[i]?).map (·.eos)).getD true then .error (chanTrap n) else .ok (key, ch, i)

/-- The checks of a receive (R405). -/
def Env.recvCheck (e : Env) (n : Word) : Except Stop (Nat × Chan) :=
  match e.chan n with
  | .error x => .error x
  | .ok (key, ch) =>
    if ch.kind = 3 ∨ ch.rpkg ≠ e.s.pkg.toNat ∨ ch.rcore ≠ e.c ∨ !ch.live then .error (chanTrap n) else .ok (key, ch)

/-- A credit that no parked sender holds (R213, R214). -/
def SendEp.free (p : SendEp) : Bool := decide (p.reserved < p.credit)

/-- Changes a send endpoint. -/
def Chan.modEp (ch : Chan) (i : Nat) (f : SendEp → SendEp) : Chan :=
  match ch.eps[i]? with | some p => { ch with eps := listSet ch.eps i (f p) } | none => ch

/-- Takes a credit; a woken sender takes the one reserved for it (R213, R214). -/
def SendEp.takeCredit (p : SendEp) (woken : Bool) : SendEp :=
  { p with credit := p.credit - 1, reserved := if woken then p.reserved - 1 else p.reserved }

/-- Sets a channel's state, and writes it into the memory entry (R215, R236). -/
def State.setChanState (s : State) (key st : Nat) : State :=
  match s.chans.get? key with
  | none => s
  | some ch =>
    if ch.state = st then s else
    let w0 := s.rd64 ch.entry
    (s.modChan key (fun ch => { ch with state := st })).wr64 ch.entry (setField w0 58 (BitVec.ofNat 3 st))

/-- Sends a parked continuation to the arrival queue of the core that it parked on, with the outcome that its wake carries
(R203, R416). -/
def State.wake (s : State) (core : Nat) (c : Cont) (w : Wake) : State :=
  s.fly core (dstCore core) (.cont { c with wake := w, toCluster := false })

/-- A channel enters error: both kinds of waiters are woken (R215). -/
def State.chanError (s : State) (key : Nat) : State :=
  match s.chans.get? key with
  | none => s
  | some ch =>
    let ws := ch.rwaiter.toList ++ ch.eps.filterMap (·.waiter)
    let s := (s.setChanState key 4).modChan key (fun ch => { ch with
      rwaiter := none, eps := ch.eps.map (fun p => { p with waiter := none, reserved := 0 }) })
    ws.foldl (fun s w => s.wake w.core w.cont .none) s

/-- Position of the oldest element behind n others that are not reserved for a parked receiver (R214, R217). -/
def Chan.oldest (ch : Chan) (n : Nat := 0) : Option Nat :=
  ((List.range ch.elems.length).filter (fun i => (ch.elems[i]?).any (fun x => !x.reserved)))[n]?

/-- Position of the element in a buffer slot that is reserved for a parked receiver (R214). -/
def Chan.reservedAt (ch : Chan) (slot : Nat) : Option Nat := findIdx (fun x => x.reserved && x.slot == slot) ch.elems

/-- Physical address of a buffer slot (R212). -/
def Chan.slotAddr (ch : Chan) (slot : Nat) : Nat := sliceAddr ch.rcore (ch.buf + slot * ch.shape)

/-- The credit of a popped element goes back: to the endpoint that sent it, or on a tree to every member (R213, R218). -/
def State.returnCredit (s : State) (key : Nat) (ch : Chan) (src : Nat) : State :=
  if ch.kind = 2 then
    (List.range ch.eps.length).foldl (fun s i => s.fly ch.rcore (dstChan key i) (.credit key i)) s
  else s.fly ch.rcore (dstChan key src) (.credit key src)

/-- Frees a buffer slot and returns the credit once an element has been taken out (R213). -/
def State.freeElem (s : State) (key : Nat) (x : Elem) : State :=
  match s.chans.get? key with
  | none => s
  | some ch => (s.modChan key (fun ch => { ch with used := ch.used.filter (· != x.slot) })).returnCredit key ch x.src

/-! ### Stream bindings (R66 to R68, R217, R366, R367) -/

/-- The pattern descriptor of a bound register: as `sbind` read it, or read again after a restore (R366, R367). -/
def State.patDesc (s : State) (c t r : Nat) : List Word :=
  match (s.ctx c t).pat.get? r with
  | some l => l
  | none => s.rdWords (sliceAddr c (bitsN ((s.ctx c t).rb (r - 24)) 6 15 * 64)) 8

/-- Elements of a pattern. -/
def patTotal (d : List Word) : Nat :=
  let w := d.getD 1 0
  (bitsN w 0 16 + 1) * (bitsN w 16 16 + 1) * (bitsN w 32 16 + 1)

/-- Address of element p of a pattern (R366). -/
def patAddr (d : List Word) (p : Nat) : Word :=
  let w := d.getD 1 0
  let n0 := bitsN w 0 16 + 1
  let n1 := bitsN w 16 16 + 1
  (field (d.getD 0 0) 0 60).setWidth 64 + BitVec.ofNat 64 (p % n0) * d.getD 2 0 + BitVec.ofNat 64 (p / n0 % n1) * d.getD 3 0
    + BitVec.ofNat 64 (p / (n0 * n1)) * d.getD 4 0

/-- `POS` of a binding. -/
def bindPos (b : Word) : Nat := bitsN b 24 24

/-- One more element has moved; after the last element of a pattern the binding clears (R367). -/
def State.bindMoved (s : State) (c t r : Nat) : State :=
  let k := s.ctx c t
  let b := k.rb (r - 24)
  let pos := bindPos b + 1
  if k.bindKind r ≥ 3 ∧ pos = patTotal (s.patDesc c t r) then
    s.setCtx c t { k.wb (r - 24) 0 with pat := k.pat.erase r, patAt := k.patAt.erase r, ahead := k.ahead.erase r }
  else s.setCtx c t { k.wb (r - 24) (setField b 24 (BitVec.ofNat 24 pos)) with
    ahead := match k.ahead.get? r with | some l => k.ahead.set r (l.drop 1) | none => k.ahead }

/-- Elements of channel n that the bundle pops before register r does; 32 stands for what comes after every pop (R66, R217). -/
def Env.popsBefore (e : Env) (n r : Nat) : Nat :=
  ((e.pops.takeWhile (· != r)).filter (fun q => decide (e.k.bindKind q = 1) && decide (bitsN (e.k.rb (q - 24)) 0 12 = n))).length

/-- What a read of a bound register meets. -/
inductive Head where
  | ready (v : Vec)
  | empty
  | stop (q : Stop)

/-- The element that a read of bound register r pops (R66, R67, R216, R217, R367). -/
def Env.head (e : Env) (r : Nat) : Head :=
  let b := e.k.rb (r - 24)
  if e.k.bindKind r = 1 then
    let n : Word := BitVec.ofNat 64 (bitsN b 0 12)
    match e.recvCheck n with
    | .error q => .stop q
    | .ok (_, ch) =>
      if ch.shape ≠ 16 then .stop (chanTrap n) else
      match ch.oldest (e.popsBefore (bitsN b 0 12) r) with
      | none => .empty
      | some i =>
        match ch.elems[i]? with
        | none => .empty
        | some x => if x.token then .stop (chanTrap n)
          else match e.readNow { pa := ch.slotAddr x.slot, leaf := 0 } 16 with
            | .error q => .stop q
            | .ok bs => .ready (BitVec.ofNat 128 (ofBytes bs))
  else
    match (e.k.ahead.getD r []).head? with
    | some v => .ready v
    | none =>
      match e.tr .load (patAddr (e.s.patDesc e.c e.t r) (bindPos b)) with
      | .error q => .stop q
      | .ok x => match poisonCheck e.s x.pa 16 with | .error q => .stop q | .ok _ => .empty

/-- Pops the element of bound register r (R66). -/
def State.pop (s : State) (c t r : Nat) : State :=
  let k := s.ctx c t
  if k.bindKind r = 1 then
    let key := chanKey k.region.toNat (bitsN (k.rb (r - 24)) 0 12)
    match s.chans.get? key with
    | none => s
    | some ch =>
      match ch.oldest with
      | none => s
      | some i =>
        match ch.elems[i]? with
        | none => s
        | some x =>
          if x.token then s else
          let s := (s.modChan key (fun ch => { ch with elems := listDel ch.elems i, popped := ch.popped + 1 })).freeElem key x
          s.bindMoved c t r
  else if (k.ahead.getD r []).isEmpty then s else s.bindMoved c t r

/-- Send endpoint i of an installed channel. -/
def State.endpoint (s : State) (key i : Nat) : Option SendEp := (s.chans.get? key).bind (fun ch => ch.eps[i]?)

/-- Does a send of endpoint i still stand in the command queue? Elements of one endpoint enter in the order in which they took
their credits (R213). -/
def State.sendQueued (s : State) (c key i : Nat) : Bool :=
  (s.core c).cmdq.any (fun q => match q with | .send k j _ _ _ _ _ _ _ _ => k == key && j == i | _ => false)

/-- Pushes 128 bits to bound register r: a send of one 16-byte element, or a store at the pattern's next address (R217, R367). -/
def Work.push (w : Work) (e : Env) (r : Nat) (v : Vec) : Except Stop Work :=
  let b := e.k.rb (r - 24)
  if e.k.bindKind r = 2 then
    let n : Word := BitVec.ofNat 64 (bitsN b 0 12)
    match e.sendCheck n with
    | .error q => .error q
    | .ok (key, ch, i) =>
      if ch.shape ≠ 16 then .error (chanTrap n) else
      match w.s.endpoint key i with
      | none => .error (chanTrap n)
      | some p =>
        if !p.free ∨ e.s.sendQueued e.c key i then .error (.forfeit 2) else
        let s := w.s.modChan key (fun ch => ch.modEp i (fun p => { p.takeCredit false with sent := p.sent + 1 }))
        let s := if e.k.appends then s.fly e.c (dstChan key i) (.elem key i (toBytes 16 v.toNat) false 0x3F 0x3F 1 p.sent) else s
        .ok { w with s := s.bindMoved e.c e.t r }
  else
    let ea := patAddr (e.s.patDesc e.c e.t r) (bindPos b)
    match e.addr ea 16 .store with
    | .error q => .error q
    | .ok x =>
      match (w.foldStore ea v).store e x (toBytes 16 v.toNat) (fun _ => true) none with
      | .error q => .error q
      | .ok w => .ok { w with s := w.s.bindMoved e.c e.t r }

/-- Does a write of bound register r have to wait (R67)? -/
def Env.full (e : Env) (r : Nat) : Bool :=
  if e.k.bindKind r = 2 then
    match e.sendCheck (BitVec.ofNat 64 (bitsN (e.k.rb (r - 24)) 0 12)) with
    | .error _ => false
    | .ok (_, ch, i) => match ch.eps[i]? with | some p => decide (ch.shape = 16) && (!p.free || e.s.sendQueued e.c (chanKey e.region.toNat (bitsN (e.k.rb (r - 24)) 0 12)) i) | none => false
  else false

/-! ### Vector operands and results (R65, R66, R287, R322, R323) -/

/-- v register r as a slot reads it: the popped element when it is bound (R66). -/
def Env.vReg (e : Env) (r : Nat) : Vec :=
  if e.k.readBound r then (match e.head r with | .ready v => v | _ => 0) else e.k.rv r

/-- A v-file operand (R287). -/
def Env.va (e : Env) (code : BitVec 6) : Vec :=
  if code.toNat < 32 then e.vReg code.toNat else e.k.rq (code.toNat - 32)

/-- Old(vd) for merging: zero when vd is bound for writing, and never a pop (R322, R323). What excluded elements keep when
`N` is set and vd is bound for reading is a value that the spec does not state: free (log 14). -/
def Env.vMerge (e : Env) (d : BitVec 6) : Vec :=
  if e.k.writeBound (dReg d) then 0
  else if e.k.readBound (dReg d) then Config.freeValue (2 * e.s.steps) ++ Config.freeValue (2 * e.s.steps + 1)
  else e.k.rv (dReg d)

/-- Old(vd) as an operand: it counts as a read of vd (R323). -/
def Env.vOld (e : Env) (d : BitVec 6) : Vec := e.vReg (dReg d)

/-- A 128-bit result for v register d: written, or pushed when it is bound, unless `N` is set; kept for the latch (R66, R71). -/
def Work.outV (w : Work) (e : Env) (d : BitVec 6) (v : Vec) : Except Stop Work :=
  let fin (w : Work) : Work := { w with lat := w.lat ++ [.val v], folds := w.folds ++ [(none, v)] }
  if dN d then .ok (fin w)
  else if e.k.writeBound (dReg d) then
    match w.push e (dReg d) v with
    | .error q => .error q
    | .ok w => .ok (fin w)
  else .ok (fin (w.modCtx e (fun k => k.wv (dReg d) v)))

/-- Element i of width n bytes (R65). -/
def vElem (v : Vec) (n i : Nat) : Nat := bitsN v (8 * n * i) (8 * n)

/-- A vector from elements of n bytes, element 0 first. -/
def vPack (n : Nat) (l : List Nat) : Vec := BitVec.ofNat 128 (l.foldr (fun x acc => x % 2 ^ (8 * n) + acc * 2 ^ (8 * n)) 0)

/-- Element i of width n is enabled: the mask bit of its lowest byte lane (R70, R322). -/
def enabled (m : BitVec 16) (n i : Nat) : Bool := bit m (n * i)

end Sys2Proof.Machine
end

