-- ==== Sys2Proof/Machine/Rings.lean ====
section
/-! DEFINITION. Operand rings: claims, fills and releases of their entries (R142 to R144, R223 to R225, R364). -/

namespace Sys2Proof.Machine

/-- Entry number n as it stands: free when not listed. -/
def Ring.ent (r : Ring) (n : Nat) : RingEnt := r.ents.getD n {}

/-- Has push n no entry to claim: the one before it in the same place is not free yet (R224)? -/
def Ring.blocked (r : Ring) (n : Nat) : Bool :=
  decide (ringCount r.desc ≤ n) && (r.ents.get? (n - ringCount r.desc)).isSome

/-- Physical address of entry number n in core c's slice (R142). -/
def Ring.addr (r : Ring) (c n : Nat) : Nat := sliceAddr c (ringBase r.desc + n % ringCount r.desc * ringEntry r.desc)

/-- A push claims the entry at the tail, and it is tagged with the layout in force (R224); none while that entry is not free. -/
def Ring.push (r : Ring) : Option (Nat × Ring) :=
  if r.blocked r.tail then none
  else some (r.tail, { r with
    tail := r.tail + 1
    ents := r.ents.set r.tail { r.ent r.tail with st := 1, tag := ringLayout r.desc, fill := 0 } })

/-- Frees an entry that is full, whose claims have all retired, one of them without the keep flag (R225). -/
def Ring.settle (r : Ring) (n : Nat) : Ring :=
  let x := r.ent n
  if x.st = 2 ∧ x.claims = 0 ∧ x.noKeep then { r with ents := r.ents.erase n } else r

/-- Bytes have been written into an entry that is filling: it becomes full with its last byte (R224). -/
def Ring.wrote (r : Ring) (n bytes : Nat) : Ring :=
  let x := r.ent n
  let full := decide (ringEntry r.desc ≤ x.fill + bytes)
  ({ r with
    ents := r.ents.set n { x with fill := x.fill + bytes, st := if full then 2 else x.st }
    filling := if full ∧ r.filling = some n then none else r.filling } : Ring).settle n

/-- An operation claims the entry at the read position, which advances unless the keep flag is set (R225). -/
def Ring.claim (r : Ring) (keep : Bool) : Nat × Ring :=
  (r.head, { r with
    head := if keep then r.head else r.head + 1
    ents := r.ents.set r.head { r.ent r.head with
      claims := (r.ent r.head).claims + 1, noKeep := (r.ent r.head).noKeep || !keep } })

/-- A claim has retired or been freed (R225, R390). -/
def Ring.retire (r : Ring) (n : Nat) : Ring :=
  ({ r with ents := r.ents.set n { r.ent n with claims := (r.ent n).claims - 1 } } : Ring).settle n

/-- `rpop`: the entry at the read position is claimed and released (R364). -/
def Ring.pop (r : Ring) : Ring :=
  ({ r with head := r.head + 1, ents := r.ents.set r.head { r.ent r.head with noKeep := true } } : Ring).settle r.head

/-- Writes bytes at the fill position of the entry that threads and stash epilogues fill, claiming one when there is none
(R364, R389); none while the entry at the tail is not free. -/
def State.ringWrite (s : State) (c r : Nat) (bs : List Byte) : Option State :=
  let g := (s.core c).ring r
  let claimed : Option (Nat × Ring) :=
    match g.filling with
    | some n => some (n, g)
    | none => (g.push).map (fun p => (p.1, { p.2 with filling := some p.1 }))
  claimed.map (fun p =>
    (s.wrBytes (p.2.addr c p.1 + (p.2.ent p.1).fill) bs).modCore c
      (fun k => { k with rings := k.rings.set r (p.2.wrote p.1 bs.length) }))

/-- `tval` of a ring trap in which no layouts are compared (R102). -/
def ringVal (r : Nat) : Word := BitVec.ofNat 64 (r % 32)

/-- A ring that may not be pushed: disabled, or with a reserved element format (R143, R223). -/
def Ring.unusable (r : Ring) : Bool := !ringEn r.desc || efmtReserved (ringLayout r.desc)

end Sys2Proof.Machine
end

