-- ==== Sys2Proof/Machine/Fork.lean ====
section
/-! DEFINITION. What the instructions that fork an engine operation share: their operand values, the choice among several causes,
descriptors read at issue, and the order after earlier accesses of the thread (R94, R121, R174, R396, R423). -/

namespace Sys2Proof.Machine

/-- Operand values of an E slot, from registers or from a stage descriptor (R423), with its field codes. -/
structure EOp where
  d : Word := 0
  a : Word := 0
  b : Word := 0
  dx : Nat := 0
  ax : Nat := 0
  bx : Nat := 0
  imm : Word := 0
  p : Option (BitVec 24) := none

/-- An E slot's operation on given operand values. -/
abbrev EngOp := EOp → Env → Work → Except Stop Work

/-! ### Choosing among causes (R94) -/

/-- Rank of a cause within a slot; what forfeits comes before every trap (R94). -/
def Stop.rank : Stop → Nat
  | .trap c _ =>
    if c = cIllegal then 1 else if c = cPrivilege then 2 else if c = cExtNone then 3 else if c = cLatchLost then 4
    else if c = cStream ∨ c = cTileWindow then 5 else if c = cChannel ∨ c = cRing then 6 else if c = cMisaligned then 7
    else if c = cTranslation then 8 else if c = cAccess then 9 else if c = cLogDrop then 10 else if c = cPoison then 11
    else 12
  | .late _ => 14
  | _ => 0

/-- The stop of lowest rank, the first among equals. -/
def pickStop : List Stop → Option Stop
  | [] => none
  | q :: l => match pickStop l with
    | none => some q
    | some r => if q.rank ≤ r.rank then some q else some r

/-- What stops a computation. -/
def stopOf {α : Type} : Except Stop α → List Stop
  | .error q => [q]
  | .ok _ => []

/-- A cause that holds under a condition. -/
def cause (b : Bool) (q : Stop) : List Stop := if b then [q] else []

/-- Goes on unless one of the stops holds. -/
def guardStops {α : Type} (l : List Stop) (k : Except Stop α) : Except Stop α :=
  match pickStop l with
  | some q => .error q
  | none => k

/-- Illegal-opcode of a slot word: source 0 (R102). -/
def Env.illegal (e : Env) : Stop := .trap cIllegal (BitVec.ofNat 64 e.word.toNat)

/-! ### Descriptors (R381, R387, R396) -/

/-- A descriptor of n words in the issuing core's own slice, aligned to `align` bytes and read at issue. -/
def Env.desc (e : Env) (ea : Word) (n align : Nat) : Except Stop (List Word) :=
  match e.addr ea align .load with
  | .error q => .error q
  | .ok x =>
    if !ownSlice e.c x.pa then .error (.trap cAccess ea)
    else match e.readNow x (8 * n) with
      | .error q => .error q
      | .ok _ => .ok (e.s.rdWords x.pa n)

/-- A stash or plain use of a value that is at hand only when a descriptor could be read. -/
def whenRead {α : Type} (r : Except Stop α) (f : α → List Stop) : List Stop :=
  match r with
  | .error q => [q]
  | .ok a => f a

/-! ### Order after earlier accesses (R174) -/

/-- Lines of n bytes at an address of the thread's memory that lie in logged pages. -/
def Env.loggedLines (e : Env) (va n : Nat) : List Nat :=
  (linesOf va n).filterMap (fun l =>
    match findLeaf e.s e.c (l * 64) with
    | some t => if leafL t.leaf then some (lineOf (t.xl (l * 64)).pa) else none
    | none => none)

/-- An engine operation that reads memory is ordered after the thread's earlier accesses: its direct stores to kinds 1 and 2
have performed, and its reads of logged memory wait for the core's own records as a load does (R174). Each source is an
address and a length. -/
def Env.forkWait (e : Env) (src : List (Nat × Nat)) : List Stop :=
  if !e.s.storesDone e.c e.t then [.forfeit 9]
  else if (e.s.core e.c).log.recs.isEmpty ∧ e.s.flight.isEmpty ∧ (e.s.cores.all (fun c => c.2.home.isEmpty)) then []
  else match e.s.ownHit e.c true ((src.map (fun p => e.loggedLines p.1 p.2)).flatten) with
    | some l => [.ownView l]
    | none => []

/-- What a gate waits for has happened: the accesses of the thread up to its bundle have performed, and the records have been applied
(R166, R174). -/
def State.gateOpen (s : State) (c : Nat) (g : Gate) : Bool :=
  !(s.flight.any (fun f => f.ofThread c g.ctx && decide (0 < f.bun) && decide (f.bun ≤ g.bun)))
  && g.lines.all (fun l => !(s.ownRecs c l).any (fun r => precedes r.seq g.tail))

/-- May the engines of core c start what has been issued to them? -/
def State.gatesOpen (s : State) (c : Nat) : Bool := (s.core c).gates.all (s.gateOpen c)

/-- The order of an engine operation, or of a new continuation, after what earlier slots of its own bundle and the thread's other
accesses still have to do (R174, R178, R285): records that the bundle has appended to the lines of its sources are released, and a
gate holds the operation back. A staged command has no bundle. -/
def Work.fork (w : Work) (e : Env) (src : List (Nat × Nat)) : Work :=
  let lines := if (w.s.core e.c).log.tail = (e.s.core e.c).log.tail then [] else
    ((src.map (fun p => e.loggedLines p.1 p.2)).flatten).filter (fun l => !(w.s.ownRecs e.c l).isEmpty)
  if e.stg.isSome ∨ (w.s.fenced e.c e.t ∧ lines = []) then w else
  let s := if lines.any (fun l => (w.s.ownRecs e.c l).any (fun r => r.st == .unpublished && decide (r.ctx.toNat = e.t)))
    then w.s.release e.c e.t else w.s
  let g : Gate := { ctx := e.t, bun := e.k.latSeq + 1, lines := lines, tail := (s.core e.c).log.tail }
  { w with s := s.modCore e.c (fun k => { k with gates := k.gates.filter (fun g => !s.gateOpen e.c g) ++ [g] }) }

/-- Stops of an engine's issue when the command queue has no room for n more entries (R395). -/
def Env.queueRoom (e : Env) (n : Nat) : List Stop := cause (decide (16 < (e.s.core e.c).cmdq.length + n)) (.forfeit 6)

/-- Generation of the continuation that issues: none when a trigger issues a staged command (R100). -/
def Env.gen (e : Env) : Option Nat := match e.stg with | some _ => none | none => some e.k.gen

/-- PC of the issuing bundle: 0 when a trigger issues a staged command (R100). -/
def Env.ipc (e : Env) : BitVec 60 := match e.stg with | some _ => 0 | none => e.pc

/-- Reproducible mode of what issues: the context's, or the region's when a trigger does (R89). -/
def Env.rmode (e : Env) : Bool :=
  match e.stg with | none => bit e.k.status 31 | some g => (e.s.region g.region.toNat).rm

end Sys2Proof.Machine
end

