-- ==== Sys2Proof/WellFormed.lean ====
section
/-! DEFINITION. Well-formed instructions. Every field of a slot is a bit vector of the width its encoding gives it (R286), so
every slot is well formed; an event is well formed when the numbers it carries name parts that the package has (R11, R12,
R16, R18, R61, R231, R275, R278). -/

namespace Sys2Proof

/-- A rate adjustment of the package time base lies within 200 ppm (R275). -/
abbrev ppmOk (ppm : Int) : Bool := decide (-200 ≤ ppm) && decide (ppm ≤ 200)

/-- The numbers that an event carries name parts that exist; every slot is well formed. -/
def Instr.wellFormed : Instr → Bool
  | .add _ => true
  | .sub _ => true
  | .and _ => true
  | .or _ => true
  | .xor _ => true
  | .andn _ => true
  | .sll _ => true
  | .srl _ => true
  | .sra _ => true
  | .mul _ => true
  | .mulh _ => true
  | .mulhu _ => true
  | .div _ => true
  | .divu _ => true
  | .rem _ => true
  | .remu _ => true
  | .min _ => true
  | .max _ => true
  | .minu _ => true
  | .maxu _ => true
  | .clz _ => true
  | .ctz _ => true
  | .popc _ => true
  | .bext _ => true
  | .bextu _ => true
  | .bins _ => true
  | .cmpeq _ => true
  | .cmpne _ => true
  | .cmplt _ => true
  | .cmpge _ => true
  | .cmpltu _ => true
  | .cmpgeu _ => true
  | .pand _ => true
  | .por _ => true
  | .pxor _ => true
  | .pandn _ => true
  | .faddF32 _ => true
  | .fsubF32 _ => true
  | .fmulF32 _ => true
  | .fdivF32 _ => true
  | .fminF32 _ => true
  | .fmaxF32 _ => true
  | .fsqrtF32 _ => true
  | .fcmpeqF32 _ => true
  | .fcmpltF32 _ => true
  | .fcmpleF32 _ => true
  | .fcmpunF32 _ => true
  | .fmaddF32 _ => true
  | .fmsubF32 _ => true
  | .fnmaddF32 _ => true
  | .fnmsubF32 _ => true
  | .fcvtF32I64 _ => true
  | .fcvtF32U64 _ => true
  | .fcvtI64F32 _ => true
  | .fcvtU64F32 _ => true
  | .fcvtBf16F32 _ => true
  | .fcvtF32Bf16 _ => true
  | .fcvtF16F32 _ => true
  | .fcvtF32F16 _ => true
  | .addi _ => true
  | .andi _ => true
  | .ori _ => true
  | .xori _ => true
  | .slli _ => true
  | .srli _ => true
  | .srai _ => true
  | .cmpeqi _ => true
  | .cmplti _ => true
  | .cmpltui _ => true
  | .li _ => true
  | .adr _ => true
  | .loop _ => true
  | .br _ => true
  | .brn _ => true
  | .call _ => true
  | .calln _ => true
  | .jr _ => true
  | .callr _ => true
  | .crr _ => true
  | .crw _ => true
  | .yield _ => true
  | .waitw _ => true
  | .migr _ => true
  | .realign _ => true
  | .brk _ => true
  | .sys _ => true
  | .tret _ => true
  | .uiret _ => true
  | .start _ => true
  | .reap _ => true
  | .pairon _ => true
  | .pairoff _ => true
  | .placept _ => true
  | .ldtab _ => true
  | .ldcurve _ => true
  | .iinv _ => true
  | .iinva _ => true
  | .chinst _ => true
  | .rgcmd _ => true
  | .xinvl _ => true
  | .xinvc _ => true
  | .xinva _ => true
  | .xinvt _ => true
  | .xsync _ => true
  | .vadd _ => true
  | .vsub _ => true
  | .vmul _ => true
  | .vmla _ => true
  | .vfma _ => true
  | .vdiv _ => true
  | .vsqrt _ => true
  | .vmin _ => true
  | .vmax _ => true
  | .vminu _ => true
  | .vmaxu _ => true
  | .vadds _ => true
  | .vsubs _ => true
  | .vand _ => true
  | .vor _ => true
  | .vxor _ => true
  | .vandn _ => true
  | .vsel _ => true
  | .vsll _ => true
  | .vsrl _ => true
  | .vsra _ => true
  | .vcmpeq _ => true
  | .vcmplt _ => true
  | .vcmpltu _ => true
  | .vcmple _ => true
  | .mand _ => true
  | .mor _ => true
  | .mxor _ => true
  | .mandn _ => true
  | .mset _ => true
  | .vshuf _ => true
  | .vzipl _ => true
  | .vziph _ => true
  | .vuzpe _ => true
  | .vuzpo _ => true
  | .vsplat _ => true
  | .vget _ => true
  | .vput _ => true
  | .vcvtBf16F32 _ => true
  | .vcvtF32Bf16 _ => true
  | .vcvtF16F32 _ => true
  | .vcvtF32F16 _ => true
  | .vcvtI32F32 _ => true
  | .vcvtF32I32 _ => true
  | .vcvtF64F32 _ => true
  | .vcvtF32F64 _ => true
  | .vcvtE4m3F32 _ => true
  | .vcvtsE4m3F32 _ => true
  | .vcvtE5m2F32 _ => true
  | .vcvtE2m1F32 _ => true
  | .vcvtF32E4m3 _ => true
  | .vcvtF32E5m2 _ => true
  | .vcvtF32E2m1 _ => true
  | .vdec _ => true
  | .vquant _ => true
  | .vbsc _ => true
  | .vdotE2m1 _ => true
  | .vdotE4m3 _ => true
  | .vdotE5m2 _ => true
  | .vdotI8 _ => true
  | .vdotBf16 _ => true
  | .vdotF16 _ => true
  | .vdotb _ => true
  | .vhsumF32 _ => true
  | .vhminF32 _ => true
  | .vhmaxF32 _ => true
  | .vhamaxF32 _ => true
  | .vhsumI32 _ => true
  | .vhsumF16 _ => true
  | .vhsumBf16 _ => true
  | .vhsumF64 _ => true
  | .vtopkF32 _ => true
  | .vtopkBf16 _ => true
  | .vamaxF32 _ => true
  | .vamaxBf16 _ => true
  | .vamaxF16 _ => true
  | .vcurve _ => true
  | .vabsF32 _ => true
  | .vnegF32 _ => true
  | .vabsI32 _ => true
  | .vnegI32 _ => true
  | .vabsF16 _ => true
  | .vnegF16 _ => true
  | .vabsF64 _ => true
  | .vnegF64 _ => true
  | .ldU8R _ => true
  | .ldI8R _ => true
  | .ldU16R _ => true
  | .ldI16R _ => true
  | .ldU32R _ => true
  | .ldI32R _ => true
  | .ldU64R _ => true
  | .vldR _ => true
  | .stU8R _ => true
  | .stU16R _ => true
  | .stU32R _ => true
  | .stU64R _ => true
  | .vstR _ => true
  | .ldU8I _ => true
  | .ldI8I _ => true
  | .ldU16I _ => true
  | .ldI16I _ => true
  | .ldU32I _ => true
  | .ldI32I _ => true
  | .ldU64I _ => true
  | .vldI _ => true
  | .stU8I _ => true
  | .stU16I _ => true
  | .stU32I _ => true
  | .stU64I _ => true
  | .vstI _ => true
  | .rel _ => true
  | .acq _ => true
  | .acqall _ => true
  | .lmark _ => true
  | .ldrop _ => true
  | .fence _ => true
  | .drain _ => true
  | .pref _ => true
  | .radd _ => true
  | .vradd _ => true
  | .ldpt _ => true
  | .ldpn _ => true
  | .pupd _ => true
  | .padam _ => true
  | .stq _ => true
  | .scommit _ => true
  | .scalc _ => true
  | .rpush _ => true
  | .rpop _ => true
  | .sbind _ => true
  | .sfree _ => true
  | .scld _ => true
  | .scst _ => true
  | .scadd _ => true
  | .scswp _ => true
  | .sccas _ => true
  | .scmin _ => true
  | .scmax _ => true
  | .scminu _ => true
  | .scmaxu _ => true
  | .mmE2m1 _ => true
  | .mmE4m3 _ => true
  | .mmE5m2 _ => true
  | .mmBf16 _ => true
  | .mmF16 _ => true
  | .mmd _ => true
  | .mmb _ => true
  | .mspE2m1 _ => true
  | .mspE4m3 _ => true
  | .mspE5m2 _ => true
  | .mspBf16 _ => true
  | .mspF16 _ => true
  | .mspd _ => true
  | .mspb _ => true
  | .mmgE2m1 _ => true
  | .mmgE4m3 _ => true
  | .mmgE5m2 _ => true
  | .mmgBf16 _ => true
  | .mmgF16 _ => true
  | .mmgd _ => true
  | .mmgb _ => true
  | .mzero _ => true
  | .mtld _ => true
  | .mtst _ => true
  | .mepi _ => true
  | .copy _ => true
  | .copy2 _ => true
  | .copyr _ => true
  | .ccan _ => true
  | .send _ => true
  | .recv _ => true
  | .eos _ => true
  | .bcast _ => true
  | .route _ => true
  | .rclose _ => true
  | .launch _ => true
  | .spawn _ => true
  | .spawnc _ => true
  | .cset _ => true
  | .cadd _ => true
  | .crd _ => true
  | .carm _ => true
  | .cdisarm _ => true
  | .cstage _ => true
  | .waitc _ => true
  | .waitct _ => true
  | .mpost _ => true
  | .mtake _ => true
  | .xPrefix _ => true
  | .powerOn => true
  | .hostLinkTrain gen width cxlVer _ => [5, 6, 7].contains gen && [4, 8, 16].contains width && [20, 31, 32].contains cxlVer
  | .hostLinkDown => true
  | .gomondPortTrain port gen => decide (port < 36) && (gen == 1 || gen == 2)
  | .gomondPortDown port => decide (port < 36)
  | .channelRouteLoss region ch => decide (region < 16777216) && decide (ch < 4096)
  | .thermalThrottle cluster _ => decide (cluster < 512)
  | .thermalShutdown die => decide (die < 8)
  | .temperatureSample die celsius => decide (die < 8) && decide (celsius < 126)
  | .timeRateAdjust ppm => ppmOk ppm
  | .registerWrite _ _ => true
  | .translationRootWrite core _ => decide (core < 4096)
  | .ringDescriptorWrite core ring _ => decide (core < 4096) && decide (ring < 32)
  | .logDescriptorWrite core _ => decide (core < 4096)
  | .logDescriptorEffect core => decide (core < 4096)
  | .logSpillDescriptorWrite core _ => decide (core < 4096)
  | .arrivalSpillDescriptorWrite core _ => decide (core < 4096)
  | .mhbWrite svc ctx _ => decide (svc < 8) && decide (ctx < 16)
  | .chronographRequest core _ => decide (core < 4096)
  | .hostLaunchPost fn _ => decide (fn < 128)
  | .regionCreate => true
  | .regionChange => true
  | .regionDestroy => true
  | .regionPreempt => true
  | .regionResume => true
  | .regionLaunch => true
  | .attestationQuote => true
  | .handOver => true
  | .hostEventQueueSetup => true
  | .stageImagePart => true
  | .probationCommit body => decide (body < 3)
  | .heartbeatFallback body => decide (body < 3)
  | .bodyRestart body => decide (body < 3)
  | .clusterTlbLookup core ctx => decide (core < 4096) && decide (ctx < 16)
  | .walkComplete cluster _ => decide (cluster < 512)
  | .invalidationComplete _ => true
  | .fetchPortServe cluster => decide (cluster < 512)
  | .fetchLineDeliver cluster => decide (cluster < 512)
  | .icacheFillComplete cluster => decide (cluster < 512)
  | .pendingResultArrive _ => true
  | .realignRelease core ctx => decide (core < 4096) && decide (ctx < 16)
  | .workerTrapStop core ctx => decide (core < 4096) && decide (ctx < 16)
  | .trapHandlerEntry core => decide (core < 4096)
  | .userInterruptEntry core ctx => decide (core < 4096) && decide (ctx < 16)
  | .matrixFaultStop core => decide (core < 4096)
  | .freezeEnd core => decide (core < 4096)
  | .hostLineWriteback line => decide (line < 281474976710656)
  | .hostSnoop line => decide (line < 281474976710656)
  | .hostCxlMemAccess line _ _ => decide (line < 549755813888)
  | .shipperSend core => decide (core < 4096)
  | .homeRecordArrive _ => true
  | .batchApply core ctx home => decide (core < 4096) && decide (ctx < 16) && decide (home < 4096)
  | .forcedCompaction core => decide (core < 4096)
  | .recordArrival _ => true
  | .spillRefill core => decide (core < 4096)
  | .dispatch core => decide (core < 4096)
  | .loadComplete core ctx => decide (core < 4096) && decide (ctx < 16)
  | .dispenserPlace cluster => decide (cluster < 512)
  | .extensionMigrate core ctx => decide (core < 4096) && decide (ctx < 16)
  | .frameRestoreDispatch core => decide (core < 4096)
  | .frameMoveRetry core ctx => decide (core < 4096) && decide (ctx < 16)
  | .deadlockDetect region => decide (region < 16777216)
  | .preemptArrive core => decide (core < 4096)
  | .preemptSave core => decide (core < 4096)
  | .resumeRestore core => decide (core < 4096)
  | .regionFaultKill => true
  | .placementApply region _ => decide (region < 16777216)
  | .counterCycleUpdate core ctr => decide (core < 4096) && decide (ctr < 64)
  | .triggerActionResume core => decide (core < 4096)
  | .waitcTimeout core _ => decide (core < 4096)
  | .packetAcknowledge _ => true
  | .copyPacketLand core _ _ => decide (core < 4096)
  | .copyEnd core _ => decide (core < 4096)
  | .copyCancelArrive core _ _ => decide (core < 4096)
  | .copyTimeout core _ => decide (core < 4096)
  | .sendEngineInject core => decide (core < 4096)
  | .channelElementLand _ => true
  | .creditReturn _ => true
  | .recvCopyComplete _ => true
  | .treeNodeCombine region ch _ => decide (region < 16777216) && decide (ch < 4096)
  | .broadcastLand _ => true
  | .mailboxArrive _ => true
  | .completionRecordPost _ => true
  | .scaleOpPerform _ => true
  | .syncCellPerform _ => true
  | .tableLoadEffect core ctx => decide (core < 4096) && decide (ctx < 16)
  | .patternReadahead core ctx reg => decide (core < 4096) && decide (ctx < 16) && decide (24 ≤ reg) && decide (reg < 32)
  | .routeJobStart cluster => decide (cluster < 512)
  | .permitRequestArrive _ => true
  | .roundCloseArrive _ => true
  | .permitAnswer _ => true
  | .binRowLand _ => true
  | .routeJobEnd cluster => decide (cluster < 512)
  | .rcloseRun cluster => decide (cluster < 512)
  | .closingCountArrive _ => true
  | .matrixStepStart core => decide (core < 4096)
  | .matrixStepRetire core => decide (core < 4096)
  | .mmgGroupTake core _ => decide (core < 4096)
  | .mmgComplete core _ => decide (core < 4096)
  | .epilogueStart core => decide (core < 4096)
  | .epilogueRowEmit core => decide (core < 4096)
  | .epilogueComplete core => decide (core < 4096)
  | .mtldComplete core => decide (core < 4096)
  | .comparePoint core ctx => decide (core < 4096) && decide (ctx < 16)
  | .tieBreakResult core ctx => decide (core < 4096) && decide (ctx < 16)
  | .binMove core => decide (core < 4096)
  | .selfTestResult core _ _ => decide (core < 4096)
  | .binRecovery core => decide (core < 4096)
  | .directStorePerform _ => true

end Sys2Proof
end

