-- ==== Sys2Proof/Decode.lean ====
section
/-! DEFINITION. The decoder of one slot (R286 to R297) and the encoder, both written from the opcode maps of the spec.
A code point that the maps leave reserved, one held for an extension that this product does not carry, and a nonzero bit in
a field that the entry marks unused are rejected by name (R287, R292). The `E` bit frames bundles and is no part of the
instruction (R279): the decoder ignores it and the encoder sets it, as for an instruction alone in its bundle. Lean's compiled
code cannot build an object of a type's 246th or later constructor with fields, so the functions that build those
constructors are marked noncomputable; the kernel evaluates them. The step, which is compiled, takes the slot of such a word
without building the instruction (`slotOfWord`), and a law says that the two agree. -/

namespace Sys2Proof

open Sys2Proof.Machine

/-- Why a slot word is no instruction. Each is raised as illegal-opcode with source 0 when the slot executes (R287, R292). -/
inductive Reject where
  /-- a code point marked reserved (R292) -/
  | reservedPoint
  /-- a code point held for extension bit 1, absent from this product (R292) -/
  | heldBitOne
  /-- a nonzero bit in a field that the instruction does not use (R287) -/
  | unusedField
deriving DecidableEq, Repr

/-- Major 0x00. -/
def decode00 (p : Option (BitVec 24)) (w : SlotWord) : Except Reject Instr :=
  match (fMinor w).toNat with
  | 0 => .ok (.add ⟨p, fD w, fA w, fB w, fG w⟩)
  | 1 => .ok (.sub ⟨p, fD w, fA w, fB w, fG w⟩)
  | 2 => .ok (.and ⟨p, fD w, fA w, fB w, fG w⟩)
  | 3 => .ok (.or ⟨p, fD w, fA w, fB w, fG w⟩)
  | 4 => .ok (.xor ⟨p, fD w, fA w, fB w, fG w⟩)
  | 5 => .ok (.andn ⟨p, fD w, fA w, fB w, fG w⟩)
  | _ => .error .reservedPoint

/-- Major 0x01. -/
def decode01 (p : Option (BitVec 24)) (w : SlotWord) : Except Reject Instr :=
  match (fMinor w).toNat with
  | 0 => .ok (.sll ⟨p, fD w, fA w, fB w, fG w⟩)
  | 1 => .ok (.srl ⟨p, fD w, fA w, fB w, fG w⟩)
  | 2 => .ok (.sra ⟨p, fD w, fA w, fB w, fG w⟩)
  | _ => .error .reservedPoint

/-- Major 0x02. -/
def decode02 (p : Option (BitVec 24)) (w : SlotWord) : Except Reject Instr :=
  match (fMinor w).toNat with
  | 0 => .ok (.mul ⟨p, fD w, fA w, fB w, fG w⟩)
  | 1 => .ok (.mulh ⟨p, fD w, fA w, fB w, fG w⟩)
  | 2 => .ok (.mulhu ⟨p, fD w, fA w, fB w, fG w⟩)
  | 3 => .ok (.div ⟨p, fD w, fA w, fB w, fG w⟩)
  | 4 => .ok (.divu ⟨p, fD w, fA w, fB w, fG w⟩)
  | 5 => .ok (.rem ⟨p, fD w, fA w, fB w, fG w⟩)
  | 6 => .ok (.remu ⟨p, fD w, fA w, fB w, fG w⟩)
  | _ => .error .reservedPoint

/-- Major 0x03. -/
def decode03 (p : Option (BitVec 24)) (w : SlotWord) : Except Reject Instr :=
  match (fMinor w).toNat with
  | 0 => .ok (.min ⟨p, fD w, fA w, fB w, fG w⟩)
  | 1 => .ok (.max ⟨p, fD w, fA w, fB w, fG w⟩)
  | 2 => .ok (.minu ⟨p, fD w, fA w, fB w, fG w⟩)
  | 3 => .ok (.maxu ⟨p, fD w, fA w, fB w, fG w⟩)
  | 4 => if w &&& 0x00000FC0#32 = 0#32 then .ok (.clz ⟨p, fD w, fA w, fG w⟩) else .error .unusedField
  | 5 => if w &&& 0x00000FC0#32 = 0#32 then .ok (.ctz ⟨p, fD w, fA w, fG w⟩) else .error .unusedField
  | 6 => if w &&& 0x00000FC0#32 = 0#32 then .ok (.popc ⟨p, fD w, fA w, fG w⟩) else .error .unusedField
  | _ => .error .reservedPoint

/-- Major 0x04. -/
def decode04 (p : Option (BitVec 24)) (w : SlotWord) : Except Reject Instr :=
  match (fMinor w).toNat with
  | 0 => .ok (.bext ⟨p, fD w, fA w, fB w, fG w⟩)
  | 1 => .ok (.bextu ⟨p, fD w, fA w, fB w, fG w⟩)
  | 2 => .ok (.bins ⟨p, fD w, fA w, fB w, fG w⟩)
  | _ => .error .reservedPoint

/-- Major 0x05. -/
def decode05 (p : Option (BitVec 24)) (w : SlotWord) : Except Reject Instr :=
  match (fMinor w).toNat with
  | 0 => .ok (.cmpeq ⟨p, fD w, fA w, fB w, fG w⟩)
  | 1 => .ok (.cmpne ⟨p, fD w, fA w, fB w, fG w⟩)
  | 2 => .ok (.cmplt ⟨p, fD w, fA w, fB w, fG w⟩)
  | 3 => .ok (.cmpge ⟨p, fD w, fA w, fB w, fG w⟩)
  | 4 => .ok (.cmpltu ⟨p, fD w, fA w, fB w, fG w⟩)
  | 5 => .ok (.cmpgeu ⟨p, fD w, fA w, fB w, fG w⟩)
  | _ => .error .reservedPoint

/-- Major 0x06. -/
def decode06 (p : Option (BitVec 24)) (w : SlotWord) : Except Reject Instr :=
  match (fMinor w).toNat with
  | 0 => .ok (.pand ⟨p, fD w, fA w, fB w, fG w⟩)
  | 1 => .ok (.por ⟨p, fD w, fA w, fB w, fG w⟩)
  | 2 => .ok (.pxor ⟨p, fD w, fA w, fB w, fG w⟩)
  | 3 => .ok (.pandn ⟨p, fD w, fA w, fB w, fG w⟩)
  | _ => .error .reservedPoint

/-- Major 0x07. -/
def decode07 (p : Option (BitVec 24)) (w : SlotWord) : Except Reject Instr :=
  match (fMinor w).toNat with
  | 0 => .ok (.faddF32 ⟨p, fD w, fA w, fB w, fG w⟩)
  | 1 => .ok (.fsubF32 ⟨p, fD w, fA w, fB w, fG w⟩)
  | 2 => .ok (.fmulF32 ⟨p, fD w, fA w, fB w, fG w⟩)
  | 3 => .ok (.fdivF32 ⟨p, fD w, fA w, fB w, fG w⟩)
  | 4 => .ok (.fminF32 ⟨p, fD w, fA w, fB w, fG w⟩)
  | 5 => .ok (.fmaxF32 ⟨p, fD w, fA w, fB w, fG w⟩)
  | 6 => if w &&& 0x00000FC0#32 = 0#32 then .ok (.fsqrtF32 ⟨p, fD w, fA w, fG w⟩) else .error .unusedField
  | _ => .error .reservedPoint

/-- Major 0x08. -/
def decode08 (p : Option (BitVec 24)) (w : SlotWord) : Except Reject Instr :=
  match (fMinor w).toNat with
  | 0 => .ok (.fcmpeqF32 ⟨p, fD w, fA w, fB w, fG w⟩)
  | 1 => .ok (.fcmpltF32 ⟨p, fD w, fA w, fB w, fG w⟩)
  | 2 => .ok (.fcmpleF32 ⟨p, fD w, fA w, fB w, fG w⟩)
  | 3 => .ok (.fcmpunF32 ⟨p, fD w, fA w, fB w, fG w⟩)
  | _ => .error .reservedPoint

/-- Major 0x09. -/
def decode09 (p : Option (BitVec 24)) (w : SlotWord) : Except Reject Instr :=
  match (fMinor w).toNat with
  | 0 => .ok (.fmaddF32 ⟨p, fD w, fA w, fB w, fG w⟩)
  | 1 => .ok (.fmsubF32 ⟨p, fD w, fA w, fB w, fG w⟩)
  | 2 => .ok (.fnmaddF32 ⟨p, fD w, fA w, fB w, fG w⟩)
  | 3 => .ok (.fnmsubF32 ⟨p, fD w, fA w, fB w, fG w⟩)
  | _ => .error .reservedPoint

/-- Major 0x0A. -/
def decode0A (p : Option (BitVec 24)) (w : SlotWord) : Except Reject Instr :=
  match (fMinor w).toNat with
  | 0 => if w &&& 0x00000FC0#32 = 0#32 then .ok (.fcvtF32I64 ⟨p, fD w, fA w, fG w⟩) else .error .unusedField
  | 1 => if w &&& 0x00000FC0#32 = 0#32 then .ok (.fcvtF32U64 ⟨p, fD w, fA w, fG w⟩) else .error .unusedField
  | 2 => if w &&& 0x00000FC0#32 = 0#32 then .ok (.fcvtI64F32 ⟨p, fD w, fA w, fG w⟩) else .error .unusedField
  | 3 => if w &&& 0x00000FC0#32 = 0#32 then .ok (.fcvtU64F32 ⟨p, fD w, fA w, fG w⟩) else .error .unusedField
  | 4 => if w &&& 0x00000FC0#32 = 0#32 then .ok (.fcvtBf16F32 ⟨p, fD w, fA w, fG w⟩) else .error .unusedField
  | 5 => if w &&& 0x00000FC0#32 = 0#32 then .ok (.fcvtF32Bf16 ⟨p, fD w, fA w, fG w⟩) else .error .unusedField
  | 6 => if w &&& 0x00000FC0#32 = 0#32 then .ok (.fcvtF16F32 ⟨p, fD w, fA w, fG w⟩) else .error .unusedField
  | _ => if w &&& 0x00000FC0#32 = 0#32 then .ok (.fcvtF32F16 ⟨p, fD w, fA w, fG w⟩) else .error .unusedField

/-- Major 0x0B. -/
def decode0B (p : Option (BitVec 24)) (w : SlotWord) : Except Reject Instr :=
  .ok (.addi ⟨p, fD w, fA w, fI9 w, fG w⟩)

/-- Major 0x0C. -/
def decode0C (p : Option (BitVec 24)) (w : SlotWord) : Except Reject Instr :=
  .ok (.andi ⟨p, fD w, fA w, fI9 w, fG w⟩)

/-- Major 0x0D. -/
def decode0D (p : Option (BitVec 24)) (w : SlotWord) : Except Reject Instr :=
  .ok (.ori ⟨p, fD w, fA w, fI9 w, fG w⟩)

/-- Major 0x0E. -/
def decode0E (p : Option (BitVec 24)) (w : SlotWord) : Except Reject Instr :=
  .ok (.xori ⟨p, fD w, fA w, fI9 w, fG w⟩)

/-- Major 0x0F. -/
def decode0F (p : Option (BitVec 24)) (w : SlotWord) : Except Reject Instr :=
  .ok (.slli ⟨p, fD w, fA w, fI9 w, fG w⟩)

/-- Major 0x10. -/
def decode10 (p : Option (BitVec 24)) (w : SlotWord) : Except Reject Instr :=
  .ok (.srli ⟨p, fD w, fA w, fI9 w, fG w⟩)

/-- Major 0x11. -/
def decode11 (p : Option (BitVec 24)) (w : SlotWord) : Except Reject Instr :=
  .ok (.srai ⟨p, fD w, fA w, fI9 w, fG w⟩)

/-- Major 0x12. -/
def decode12 (p : Option (BitVec 24)) (w : SlotWord) : Except Reject Instr :=
  .ok (.cmpeqi ⟨p, fD w, fA w, fI9 w, fG w⟩)

/-- Major 0x13. -/
def decode13 (p : Option (BitVec 24)) (w : SlotWord) : Except Reject Instr :=
  .ok (.cmplti ⟨p, fD w, fA w, fI9 w, fG w⟩)

/-- Major 0x14. -/
def decode14 (p : Option (BitVec 24)) (w : SlotWord) : Except Reject Instr :=
  .ok (.cmpltui ⟨p, fD w, fA w, fI9 w, fG w⟩)

/-- Major 0x15. -/
def decode15 (p : Option (BitVec 24)) (w : SlotWord) : Except Reject Instr :=
  .ok (.li ⟨p, fD w, fI18 w⟩)

/-- Major 0x16. -/
def decode16 (p : Option (BitVec 24)) (w : SlotWord) : Except Reject Instr :=
  .ok (.adr ⟨p, fD w, fI18 w⟩)

/-- Major 0x17. -/
def decode17 (p : Option (BitVec 24)) (w : SlotWord) : Except Reject Instr :=
  .ok (.loop ⟨p, fD w, fI18 w⟩)

/-- Major 0x18. -/
def decode18 (p : Option (BitVec 24)) (w : SlotWord) : Except Reject Instr :=
  if w.getLsbD 20 = false then .ok (.br ⟨p, fC w, fO20 w⟩)
  else .ok (.brn ⟨p, fC w, fO20 w⟩)

/-- Major 0x19. -/
def decode19 (p : Option (BitVec 24)) (w : SlotWord) : Except Reject Instr :=
  if w.getLsbD 20 = false then .ok (.call ⟨p, fC w, fO20 w⟩)
  else .ok (.calln ⟨p, fC w, fO20 w⟩)

/-- Major 0x1A. -/
def decode1A (p : Option (BitVec 24)) (w : SlotWord) : Except Reject Instr :=
  match (fMinor w).toNat with
  | 0 => if w &&& 0x00FC0FC0#32 = 0#32 then .ok (.jr ⟨p, fA w, fG w⟩) else .error .unusedField
  | 1 => if w &&& 0x00FC0FC0#32 = 0#32 then .ok (.callr ⟨p, fA w, fG w⟩) else .error .unusedField
  | _ => .error .reservedPoint

/-- Major 0x1B. -/
def decode1B (p : Option (BitVec 24)) (w : SlotWord) : Except Reject Instr :=
  if w &&& 0x0003F000#32 = 0#32 then .ok (.crr ⟨p, fD w, fI9 w, fG w⟩) else .error .unusedField

/-- Major 0x1C. -/
def decode1C (p : Option (BitVec 24)) (w : SlotWord) : Except Reject Instr :=
  if w &&& 0x00FC0000#32 = 0#32 then .ok (.crw ⟨p, fA w, fI9 w, fG w⟩) else .error .unusedField

/-- Major 0x1D. -/
def decode1D (p : Option (BitVec 24)) (w : SlotWord) : Except Reject Instr :=
  match (fMinor w).toNat with
  | 0 => if w &&& 0x00FFFFC0#32 = 0#32 then .ok (.yield ⟨p, fG w⟩) else .error .unusedField
  | 1 => if w &&& 0x00FFFFC0#32 = 0#32 then .ok (.waitw ⟨p, fG w⟩) else .error .unusedField
  | 2 => if w &&& 0x00FC0FC0#32 = 0#32 then .ok (.migr ⟨p, fA w, fG w⟩) else .error .unusedField
  | _ => .error .reservedPoint

/-- Major 0x1E. -/
def decode1E (p : Option (BitVec 24)) (w : SlotWord) : Except Reject Instr :=
  if w &&& 0x00FFF000#32 = 0#32 then .ok (.realign ⟨p, fI9 w, fG w⟩) else .error .unusedField

/-- Major 0x1F. -/
def decode1F (p : Option (BitVec 24)) (w : SlotWord) : Except Reject Instr :=
  if w &&& 0x00FFF000#32 = 0#32 then .ok (.brk ⟨p, fI9 w, fG w⟩) else .error .unusedField

/-- Major 0x20. -/
def decode20 (p : Option (BitVec 24)) (w : SlotWord) : Except Reject Instr :=
  if w &&& 0x00FFF000#32 = 0#32 then .ok (.sys ⟨p, fI9 w, fG w⟩) else .error .unusedField

/-- Major 0x21. -/
def decode21 (p : Option (BitVec 24)) (w : SlotWord) : Except Reject Instr :=
  match (fMinor w).toNat with
  | 0 => if w &&& 0x00FFFFC0#32 = 0#32 then .ok (.tret ⟨p, fG w⟩) else .error .unusedField
  | 1 => if w &&& 0x00FFFFC0#32 = 0#32 then .ok (.uiret ⟨p, fG w⟩) else .error .unusedField
  | 2 => if w &&& 0x00FC0FC0#32 = 0#32 then .ok (.start ⟨p, fA w, fG w⟩) else .error .unusedField
  | 3 => if w &&& 0x00FC0FC0#32 = 0#32 then .ok (.reap ⟨p, fA w, fG w⟩) else .error .unusedField
  | 4 => if w &&& 0x00FFFFC0#32 = 0#32 then .ok (.pairon ⟨p, fG w⟩) else .error .unusedField
  | 5 => if w &&& 0x00FFFFC0#32 = 0#32 then .ok (.pairoff ⟨p, fG w⟩) else .error .unusedField
  | 6 => if w &&& 0x00FFFFC0#32 = 0#32 then .ok (.placept ⟨p, fG w⟩) else .error .unusedField
  | _ => .error .reservedPoint

/-- Major 0x22. -/
def decode22 (p : Option (BitVec 24)) (w : SlotWord) : Except Reject Instr :=
  match (fMinor w).toNat with
  | 0 => if w &&& 0x00FC0FC0#32 = 0#32 then .ok (.ldtab ⟨p, fA w, fMinor2 w, fG w⟩) else .error .unusedField
  | 1 => if w &&& 0x00FC0FC0#32 = 0#32 then .ok (.ldtab ⟨p, fA w, fMinor2 w, fG w⟩) else .error .unusedField
  | 2 => if w &&& 0x00FC0FC0#32 = 0#32 then .ok (.ldtab ⟨p, fA w, fMinor2 w, fG w⟩) else .error .unusedField
  | 3 => if w &&& 0x00FC0FC0#32 = 0#32 then .ok (.ldtab ⟨p, fA w, fMinor2 w, fG w⟩) else .error .unusedField
  | 4 => if w &&& 0x00FC0FC0#32 = 0#32 then .ok (.ldcurve ⟨p, fA w, fMinor2 w, fG w⟩) else .error .unusedField
  | 5 => if w &&& 0x00FC0FC0#32 = 0#32 then .ok (.ldcurve ⟨p, fA w, fMinor2 w, fG w⟩) else .error .unusedField
  | 6 => if w &&& 0x00FC0FC0#32 = 0#32 then .ok (.ldcurve ⟨p, fA w, fMinor2 w, fG w⟩) else .error .unusedField
  | _ => if w &&& 0x00FC0FC0#32 = 0#32 then .ok (.ldcurve ⟨p, fA w, fMinor2 w, fG w⟩) else .error .unusedField

/-- Major 0x23. -/
def decode23 (p : Option (BitVec 24)) (w : SlotWord) : Except Reject Instr :=
  match (fMinor w).toNat with
  | 0 => if w &&& 0x00FC0FC0#32 = 0#32 then .ok (.iinv ⟨p, fA w, fG w⟩) else .error .unusedField
  | 1 => if w &&& 0x00FFFFC0#32 = 0#32 then .ok (.iinva ⟨p, fG w⟩) else .error .unusedField
  | 2 => .ok (.chinst ⟨p, fD w, fA w, fB w, fG w⟩)
  | 3 => if w &&& 0x00000FC0#32 = 0#32 then .ok (.rgcmd ⟨p, fD w, fA w, fG w⟩) else .error .unusedField
  | _ => .error .reservedPoint

/-- Major 0x2D. -/
def decode2D (p : Option (BitVec 24)) (w : SlotWord) : Except Reject Instr :=
  match (fMinor w).toNat with
  | 0 => if w &&& 0x00FC0FC0#32 = 0#32 then .ok (.xinvl ⟨p, fA w, fG w⟩) else .error .unusedField
  | 1 => if w &&& 0x00FC0FC0#32 = 0#32 then .ok (.xinvc ⟨p, fA w, fG w⟩) else .error .unusedField
  | 2 => if w &&& 0x00FC0FC0#32 = 0#32 then .ok (.xinva ⟨p, fA w, fG w⟩) else .error .unusedField
  | 3 => if w &&& 0x00FFFFC0#32 = 0#32 then .ok (.xinvt ⟨p, fG w⟩) else .error .unusedField
  | 4 => if w &&& 0x00FFFFC0#32 = 0#32 then .ok (.xsync ⟨p, fG w⟩) else .error .unusedField
  | _ => .error .reservedPoint

/-- Major 0x30. -/
def decode30 (p : Option (BitVec 24)) (w : SlotWord) : Except Reject Instr :=
  match (fMinor w).toNat with
  | 0 => .ok (.vadd ⟨p, fD w, fA w, fB w, fMinor w, fG w⟩)
  | 1 => .ok (.vadd ⟨p, fD w, fA w, fB w, fMinor w, fG w⟩)
  | 2 => .ok (.vadd ⟨p, fD w, fA w, fB w, fMinor w, fG w⟩)
  | 3 => .ok (.vadd ⟨p, fD w, fA w, fB w, fMinor w, fG w⟩)
  | 4 => .ok (.vadd ⟨p, fD w, fA w, fB w, fMinor w, fG w⟩)
  | 5 => .ok (.vadd ⟨p, fD w, fA w, fB w, fMinor w, fG w⟩)
  | 6 => .ok (.vadd ⟨p, fD w, fA w, fB w, fMinor w, fG w⟩)
  | _ => .ok (.vadd ⟨p, fD w, fA w, fB w, fMinor w, fG w⟩)

/-- Major 0x31. -/
def decode31 (p : Option (BitVec 24)) (w : SlotWord) : Except Reject Instr :=
  match (fMinor w).toNat with
  | 0 => .ok (.vsub ⟨p, fD w, fA w, fB w, fMinor w, fG w⟩)
  | 1 => .ok (.vsub ⟨p, fD w, fA w, fB w, fMinor w, fG w⟩)
  | 2 => .ok (.vsub ⟨p, fD w, fA w, fB w, fMinor w, fG w⟩)
  | 3 => .ok (.vsub ⟨p, fD w, fA w, fB w, fMinor w, fG w⟩)
  | 4 => .ok (.vsub ⟨p, fD w, fA w, fB w, fMinor w, fG w⟩)
  | 5 => .ok (.vsub ⟨p, fD w, fA w, fB w, fMinor w, fG w⟩)
  | 6 => .ok (.vsub ⟨p, fD w, fA w, fB w, fMinor w, fG w⟩)
  | _ => .ok (.vsub ⟨p, fD w, fA w, fB w, fMinor w, fG w⟩)

/-- Major 0x32. -/
def decode32 (p : Option (BitVec 24)) (w : SlotWord) : Except Reject Instr :=
  match (fMinor w).toNat with
  | 0 => .ok (.vmul ⟨p, fD w, fA w, fB w, fMinor w, fG w⟩)
  | 1 => .ok (.vmul ⟨p, fD w, fA w, fB w, fMinor w, fG w⟩)
  | 2 => .ok (.vmul ⟨p, fD w, fA w, fB w, fMinor w, fG w⟩)
  | 3 => .ok (.vmul ⟨p, fD w, fA w, fB w, fMinor w, fG w⟩)
  | 4 => .ok (.vmul ⟨p, fD w, fA w, fB w, fMinor w, fG w⟩)
  | 5 => .ok (.vmul ⟨p, fD w, fA w, fB w, fMinor w, fG w⟩)
  | 6 => .ok (.vmul ⟨p, fD w, fA w, fB w, fMinor w, fG w⟩)
  | _ => .ok (.vmul ⟨p, fD w, fA w, fB w, fMinor w, fG w⟩)

/-- Major 0x33. -/
def decode33 (p : Option (BitVec 24)) (w : SlotWord) : Except Reject Instr :=
  match (fMinor w).toNat with
  | 0 => .ok (.vmla ⟨p, fD w, fA w, fB w, fMinor2 w, fG w⟩)
  | 1 => .ok (.vmla ⟨p, fD w, fA w, fB w, fMinor2 w, fG w⟩)
  | 2 => .ok (.vmla ⟨p, fD w, fA w, fB w, fMinor2 w, fG w⟩)
  | 3 => .ok (.vmla ⟨p, fD w, fA w, fB w, fMinor2 w, fG w⟩)
  | 4 => .ok (.vfma ⟨p, fD w, fA w, fB w, fMinor2 w, fG w⟩)
  | 5 => .ok (.vfma ⟨p, fD w, fA w, fB w, fMinor2 w, fG w⟩)
  | 6 => .ok (.vfma ⟨p, fD w, fA w, fB w, fMinor2 w, fG w⟩)
  | _ => .ok (.vfma ⟨p, fD w, fA w, fB w, fMinor2 w, fG w⟩)

/-- Major 0x34. -/
def decode34 (p : Option (BitVec 24)) (w : SlotWord) : Except Reject Instr :=
  match (fMinor w).toNat with
  | 0 => .ok (.vdiv ⟨p, fD w, fA w, fB w, fMinor2 w, fG w⟩)
  | 1 => .ok (.vdiv ⟨p, fD w, fA w, fB w, fMinor2 w, fG w⟩)
  | 2 => .ok (.vdiv ⟨p, fD w, fA w, fB w, fMinor2 w, fG w⟩)
  | 3 => .ok (.vdiv ⟨p, fD w, fA w, fB w, fMinor2 w, fG w⟩)
  | 4 => if w &&& 0x00000FC0#32 = 0#32 then .ok (.vsqrt ⟨p, fD w, fA w, fMinor2 w, fG w⟩) else .error .unusedField
  | 5 => if w &&& 0x00000FC0#32 = 0#32 then .ok (.vsqrt ⟨p, fD w, fA w, fMinor2 w, fG w⟩) else .error .unusedField
  | 6 => if w &&& 0x00000FC0#32 = 0#32 then .ok (.vsqrt ⟨p, fD w, fA w, fMinor2 w, fG w⟩) else .error .unusedField
  | _ => if w &&& 0x00000FC0#32 = 0#32 then .ok (.vsqrt ⟨p, fD w, fA w, fMinor2 w, fG w⟩) else .error .unusedField

/-- Major 0x35. -/
def decode35 (p : Option (BitVec 24)) (w : SlotWord) : Except Reject Instr :=
  match (fMinor w).toNat with
  | 0 => .ok (.vmin ⟨p, fD w, fA w, fB w, fMinor w, fG w⟩)
  | 1 => .ok (.vmin ⟨p, fD w, fA w, fB w, fMinor w, fG w⟩)
  | 2 => .ok (.vmin ⟨p, fD w, fA w, fB w, fMinor w, fG w⟩)
  | 3 => .ok (.vmin ⟨p, fD w, fA w, fB w, fMinor w, fG w⟩)
  | 4 => .ok (.vmin ⟨p, fD w, fA w, fB w, fMinor w, fG w⟩)
  | 5 => .ok (.vmin ⟨p, fD w, fA w, fB w, fMinor w, fG w⟩)
  | 6 => .ok (.vmin ⟨p, fD w, fA w, fB w, fMinor w, fG w⟩)
  | _ => .ok (.vmin ⟨p, fD w, fA w, fB w, fMinor w, fG w⟩)

/-- Major 0x36. -/
def decode36 (p : Option (BitVec 24)) (w : SlotWord) : Except Reject Instr :=
  match (fMinor w).toNat with
  | 0 => .ok (.vmax ⟨p, fD w, fA w, fB w, fMinor w, fG w⟩)
  | 1 => .ok (.vmax ⟨p, fD w, fA w, fB w, fMinor w, fG w⟩)
  | 2 => .ok (.vmax ⟨p, fD w, fA w, fB w, fMinor w, fG w⟩)
  | 3 => .ok (.vmax ⟨p, fD w, fA w, fB w, fMinor w, fG w⟩)
  | 4 => .ok (.vmax ⟨p, fD w, fA w, fB w, fMinor w, fG w⟩)
  | 5 => .ok (.vmax ⟨p, fD w, fA w, fB w, fMinor w, fG w⟩)
  | 6 => .ok (.vmax ⟨p, fD w, fA w, fB w, fMinor w, fG w⟩)
  | _ => .ok (.vmax ⟨p, fD w, fA w, fB w, fMinor w, fG w⟩)

/-- Major 0x37. -/
def decode37 (p : Option (BitVec 24)) (w : SlotWord) : Except Reject Instr :=
  match (fMinor w).toNat with
  | 0 => .ok (.vminu ⟨p, fD w, fA w, fB w, fMinor2 w, fG w⟩)
  | 1 => .ok (.vminu ⟨p, fD w, fA w, fB w, fMinor2 w, fG w⟩)
  | 2 => .ok (.vminu ⟨p, fD w, fA w, fB w, fMinor2 w, fG w⟩)
  | 3 => .ok (.vminu ⟨p, fD w, fA w, fB w, fMinor2 w, fG w⟩)
  | 4 => .ok (.vmaxu ⟨p, fD w, fA w, fB w, fMinor2 w, fG w⟩)
  | 5 => .ok (.vmaxu ⟨p, fD w, fA w, fB w, fMinor2 w, fG w⟩)
  | 6 => .ok (.vmaxu ⟨p, fD w, fA w, fB w, fMinor2 w, fG w⟩)
  | _ => .ok (.vmaxu ⟨p, fD w, fA w, fB w, fMinor2 w, fG w⟩)

/-- Major 0x38. -/
def decode38 (p : Option (BitVec 24)) (w : SlotWord) : Except Reject Instr :=
  match (fMinor w).toNat with
  | 0 => .ok (.vadds ⟨p, fD w, fA w, fB w, fMinor w, fG w⟩)
  | 1 => .ok (.vadds ⟨p, fD w, fA w, fB w, fMinor w, fG w⟩)
  | 2 => .ok (.vadds ⟨p, fD w, fA w, fB w, fMinor w, fG w⟩)
  | 3 => .ok (.vadds ⟨p, fD w, fA w, fB w, fMinor w, fG w⟩)
  | 4 => .ok (.vadds ⟨p, fD w, fA w, fB w, fMinor w, fG w⟩)
  | 5 => .ok (.vadds ⟨p, fD w, fA w, fB w, fMinor w, fG w⟩)
  | 6 => .ok (.vadds ⟨p, fD w, fA w, fB w, fMinor w, fG w⟩)
  | _ => .ok (.vadds ⟨p, fD w, fA w, fB w, fMinor w, fG w⟩)

/-- Major 0x39. -/
def decode39 (p : Option (BitVec 24)) (w : SlotWord) : Except Reject Instr :=
  match (fMinor w).toNat with
  | 0 => .ok (.vsubs ⟨p, fD w, fA w, fB w, fMinor w, fG w⟩)
  | 1 => .ok (.vsubs ⟨p, fD w, fA w, fB w, fMinor w, fG w⟩)
  | 2 => .ok (.vsubs ⟨p, fD w, fA w, fB w, fMinor w, fG w⟩)
  | 3 => .ok (.vsubs ⟨p, fD w, fA w, fB w, fMinor w, fG w⟩)
  | 4 => .ok (.vsubs ⟨p, fD w, fA w, fB w, fMinor w, fG w⟩)
  | 5 => .ok (.vsubs ⟨p, fD w, fA w, fB w, fMinor w, fG w⟩)
  | 6 => .ok (.vsubs ⟨p, fD w, fA w, fB w, fMinor w, fG w⟩)
  | _ => .ok (.vsubs ⟨p, fD w, fA w, fB w, fMinor w, fG w⟩)

/-- Major 0x3A. -/
def decode3A (p : Option (BitVec 24)) (w : SlotWord) : Except Reject Instr :=
  match (fMinor w).toNat with
  | 0 => .ok (.vand ⟨p, fD w, fA w, fB w, fG w⟩)
  | 1 => .ok (.vor ⟨p, fD w, fA w, fB w, fG w⟩)
  | 2 => .ok (.vxor ⟨p, fD w, fA w, fB w, fG w⟩)
  | 3 => .ok (.vandn ⟨p, fD w, fA w, fB w, fG w⟩)
  | 4 => .ok (.vsel ⟨p, fD w, fA w, fB w, fG w⟩)
  | _ => .error .reservedPoint

/-- Major 0x3B. -/
def decode3B (p : Option (BitVec 24)) (w : SlotWord) : Except Reject Instr :=
  match (fMinor w).toNat with
  | 0 => .ok (.vsll ⟨p, fD w, fA w, fB w, fMinor2 w, fG w⟩)
  | 1 => .ok (.vsll ⟨p, fD w, fA w, fB w, fMinor2 w, fG w⟩)
  | 2 => .ok (.vsll ⟨p, fD w, fA w, fB w, fMinor2 w, fG w⟩)
  | 3 => .ok (.vsll ⟨p, fD w, fA w, fB w, fMinor2 w, fG w⟩)
  | 4 => .ok (.vsrl ⟨p, fD w, fA w, fB w, fMinor2 w, fG w⟩)
  | 5 => .ok (.vsrl ⟨p, fD w, fA w, fB w, fMinor2 w, fG w⟩)
  | 6 => .ok (.vsrl ⟨p, fD w, fA w, fB w, fMinor2 w, fG w⟩)
  | _ => .ok (.vsrl ⟨p, fD w, fA w, fB w, fMinor2 w, fG w⟩)

/-- Major 0x3C. -/
def decode3C (p : Option (BitVec 24)) (w : SlotWord) : Except Reject Instr :=
  match (fMinor w).toNat with
  | 0 => .ok (.vsra ⟨p, fD w, fA w, fB w, fMinor2 w, fG w⟩)
  | 1 => .ok (.vsra ⟨p, fD w, fA w, fB w, fMinor2 w, fG w⟩)
  | 2 => .ok (.vsra ⟨p, fD w, fA w, fB w, fMinor2 w, fG w⟩)
  | 3 => .ok (.vsra ⟨p, fD w, fA w, fB w, fMinor2 w, fG w⟩)
  | _ => .error .reservedPoint

/-- Major 0x3D. -/
def decode3D (p : Option (BitVec 24)) (w : SlotWord) : Except Reject Instr :=
  match (fMinor w).toNat with
  | 0 => .ok (.vcmpeq ⟨p, fD w, fA w, fB w, fMinor w, fG w⟩)
  | 1 => .ok (.vcmpeq ⟨p, fD w, fA w, fB w, fMinor w, fG w⟩)
  | 2 => .ok (.vcmpeq ⟨p, fD w, fA w, fB w, fMinor w, fG w⟩)
  | 3 => .ok (.vcmpeq ⟨p, fD w, fA w, fB w, fMinor w, fG w⟩)
  | 4 => .ok (.vcmpeq ⟨p, fD w, fA w, fB w, fMinor w, fG w⟩)
  | 5 => .ok (.vcmpeq ⟨p, fD w, fA w, fB w, fMinor w, fG w⟩)
  | 6 => .ok (.vcmpeq ⟨p, fD w, fA w, fB w, fMinor w, fG w⟩)
  | _ => .ok (.vcmpeq ⟨p, fD w, fA w, fB w, fMinor w, fG w⟩)

/-- Major 0x3E. -/
def decode3E (p : Option (BitVec 24)) (w : SlotWord) : Except Reject Instr :=
  match (fMinor w).toNat with
  | 0 => .ok (.vcmplt ⟨p, fD w, fA w, fB w, fMinor w, fG w⟩)
  | 1 => .ok (.vcmplt ⟨p, fD w, fA w, fB w, fMinor w, fG w⟩)
  | 2 => .ok (.vcmplt ⟨p, fD w, fA w, fB w, fMinor w, fG w⟩)
  | 3 => .ok (.vcmplt ⟨p, fD w, fA w, fB w, fMinor w, fG w⟩)
  | 4 => .ok (.vcmplt ⟨p, fD w, fA w, fB w, fMinor w, fG w⟩)
  | 5 => .ok (.vcmplt ⟨p, fD w, fA w, fB w, fMinor w, fG w⟩)
  | 6 => .ok (.vcmplt ⟨p, fD w, fA w, fB w, fMinor w, fG w⟩)
  | _ => .ok (.vcmplt ⟨p, fD w, fA w, fB w, fMinor w, fG w⟩)

/-- Major 0x3F. -/
def decode3F (p : Option (BitVec 24)) (w : SlotWord) : Except Reject Instr :=
  match (fMinor w).toNat with
  | 0 => .ok (.vcmpltu ⟨p, fD w, fA w, fB w, fMinor2 w, fG w⟩)
  | 1 => .ok (.vcmpltu ⟨p, fD w, fA w, fB w, fMinor2 w, fG w⟩)
  | 2 => .ok (.vcmpltu ⟨p, fD w, fA w, fB w, fMinor2 w, fG w⟩)
  | 3 => .ok (.vcmpltu ⟨p, fD w, fA w, fB w, fMinor2 w, fG w⟩)
  | 4 => .ok (.vcmple ⟨p, fD w, fA w, fB w, fMinor2 w, fG w⟩)
  | 5 => .ok (.vcmple ⟨p, fD w, fA w, fB w, fMinor2 w, fG w⟩)
  | 6 => .ok (.vcmple ⟨p, fD w, fA w, fB w, fMinor2 w, fG w⟩)
  | _ => .ok (.vcmple ⟨p, fD w, fA w, fB w, fMinor2 w, fG w⟩)

/-- Major 0x40. -/
def decode40 (p : Option (BitVec 24)) (w : SlotWord) : Except Reject Instr :=
  match (fMinor w).toNat with
  | 0 => .ok (.mand ⟨p, fD w, fA w, fB w, fG w⟩)
  | 1 => .ok (.mor ⟨p, fD w, fA w, fB w, fG w⟩)
  | 2 => .ok (.mxor ⟨p, fD w, fA w, fB w, fG w⟩)
  | 3 => .ok (.mandn ⟨p, fD w, fA w, fB w, fG w⟩)
  | 4 => if w &&& 0x00000FC0#32 = 0#32 then .ok (.mset ⟨p, fD w, fA w, fG w⟩) else .error .unusedField
  | _ => .error .reservedPoint

/-- Major 0x41. -/
def decode41 (p : Option (BitVec 24)) (w : SlotWord) : Except Reject Instr :=
  match (fMinor w).toNat with
  | 0 => .ok (.vshuf ⟨p, fD w, fA w, fB w, fG w⟩)
  | 1 => .ok (.vzipl ⟨p, fD w, fA w, fB w, fG w⟩)
  | 2 => .ok (.vziph ⟨p, fD w, fA w, fB w, fG w⟩)
  | 3 => .ok (.vuzpe ⟨p, fD w, fA w, fB w, fG w⟩)
  | 4 => .ok (.vuzpo ⟨p, fD w, fA w, fB w, fG w⟩)
  | _ => .error .reservedPoint

/-- Major 0x42. -/
def decode42 (p : Option (BitVec 24)) (w : SlotWord) : Except Reject Instr :=
  match (fMinor w).toNat with
  | 0 => if w &&& 0x00000FC0#32 = 0#32 then .ok (.vsplat ⟨p, fD w, fA w, fMinor2 w, fG w⟩) else .error .unusedField
  | 1 => if w &&& 0x00000FC0#32 = 0#32 then .ok (.vsplat ⟨p, fD w, fA w, fMinor2 w, fG w⟩) else .error .unusedField
  | 2 => if w &&& 0x00000FC0#32 = 0#32 then .ok (.vsplat ⟨p, fD w, fA w, fMinor2 w, fG w⟩) else .error .unusedField
  | 3 => if w &&& 0x00000FC0#32 = 0#32 then .ok (.vsplat ⟨p, fD w, fA w, fMinor2 w, fG w⟩) else .error .unusedField
  | _ => .error .reservedPoint

/-- Major 0x43. -/
def decode43 (p : Option (BitVec 24)) (w : SlotWord) : Except Reject Instr :=
  .ok (.vget ⟨p, fD w, fA w, fI9 w, fG w⟩)

/-- Major 0x44. -/
def decode44 (p : Option (BitVec 24)) (w : SlotWord) : Except Reject Instr :=
  .ok (.vput ⟨p, fD w, fA w, fI9 w, fG w⟩)

/-- Major 0x45. -/
def decode45 (p : Option (BitVec 24)) (w : SlotWord) : Except Reject Instr :=
  match (fMinor w).toNat with
  | 0 => .ok (.vcvtBf16F32 ⟨p, fD w, fA w, fB w, fG w⟩)
  | 1 => .ok (.vcvtF32Bf16 ⟨p, fD w, fA w, fB w, fG w⟩)
  | 2 => .ok (.vcvtF16F32 ⟨p, fD w, fA w, fB w, fG w⟩)
  | 3 => .ok (.vcvtF32F16 ⟨p, fD w, fA w, fB w, fG w⟩)
  | 4 => if w &&& 0x00000FC0#32 = 0#32 then .ok (.vcvtI32F32 ⟨p, fD w, fA w, fG w⟩) else .error .unusedField
  | 5 => if w &&& 0x00000FC0#32 = 0#32 then .ok (.vcvtF32I32 ⟨p, fD w, fA w, fG w⟩) else .error .unusedField
  | 6 => .ok (.vcvtF64F32 ⟨p, fD w, fA w, fB w, fG w⟩)
  | _ => .ok (.vcvtF32F64 ⟨p, fD w, fA w, fB w, fG w⟩)

/-- Major 0x46. -/
def decode46 (p : Option (BitVec 24)) (w : SlotWord) : Except Reject Instr :=
  match (fMinor w).toNat with
  | 0 => .ok (.vcvtE4m3F32 ⟨p, fD w, fA w, fB w, fG w⟩)
  | 1 => .ok (.vcvtsE4m3F32 ⟨p, fD w, fA w, fB w, fG w⟩)
  | 2 => .ok (.vcvtE5m2F32 ⟨p, fD w, fA w, fB w, fG w⟩)
  | 3 => .ok (.vcvtE2m1F32 ⟨p, fD w, fA w, fB w, fG w⟩)
  | 4 => .ok (.vcvtF32E4m3 ⟨p, fD w, fA w, fB w, fG w⟩)
  | 5 => .ok (.vcvtF32E5m2 ⟨p, fD w, fA w, fB w, fG w⟩)
  | 6 => .ok (.vcvtF32E2m1 ⟨p, fD w, fA w, fB w, fG w⟩)
  | _ => .error .reservedPoint

/-- Major 0x47. -/
def decode47 (p : Option (BitVec 24)) (w : SlotWord) : Except Reject Instr :=
  match (fMinor w).toNat with
  | 0 => .ok (.vdec ⟨p, fD w, fA w, fB w, fMinor2 w, fG w⟩)
  | 1 => .ok (.vdec ⟨p, fD w, fA w, fB w, fMinor2 w, fG w⟩)
  | 2 => .ok (.vdec ⟨p, fD w, fA w, fB w, fMinor2 w, fG w⟩)
  | 3 => .ok (.vdec ⟨p, fD w, fA w, fB w, fMinor2 w, fG w⟩)
  | 4 => .ok (.vquant ⟨p, fD w, fA w, fB w, fMinor2 w, fG w⟩)
  | 5 => .ok (.vquant ⟨p, fD w, fA w, fB w, fMinor2 w, fG w⟩)
  | 6 => .ok (.vquant ⟨p, fD w, fA w, fB w, fMinor2 w, fG w⟩)
  | _ => .ok (.vquant ⟨p, fD w, fA w, fB w, fMinor2 w, fG w⟩)

/-- Major 0x48. -/
def decode48 (p : Option (BitVec 24)) (w : SlotWord) : Except Reject Instr :=
  match (fMinor w).toNat with
  | 0 => .ok (.vbsc ⟨p, fD w, fA w, fB w, fG w⟩)
  | _ => .error .reservedPoint

/-- Major 0x49. -/
def decode49 (p : Option (BitVec 24)) (w : SlotWord) : Except Reject Instr :=
  match (fMinor w).toNat with
  | 0 => .ok (.vdotE2m1 ⟨p, fD w, fA w, fB w, fG w⟩)
  | 1 => .ok (.vdotE4m3 ⟨p, fD w, fA w, fB w, fG w⟩)
  | 2 => .ok (.vdotE5m2 ⟨p, fD w, fA w, fB w, fG w⟩)
  | 3 => .ok (.vdotI8 ⟨p, fD w, fA w, fB w, fG w⟩)
  | 4 => .ok (.vdotBf16 ⟨p, fD w, fA w, fB w, fG w⟩)
  | 5 => .ok (.vdotF16 ⟨p, fD w, fA w, fB w, fG w⟩)
  | 6 => .ok (.vdotb ⟨p, fD w, fA w, fB w, fG w⟩)
  | _ => .error .reservedPoint

/-- Major 0x4A. -/
def decode4A (p : Option (BitVec 24)) (w : SlotWord) : Except Reject Instr :=
  match (fMinor w).toNat with
  | 0 => if w &&& 0x00000FC0#32 = 0#32 then .ok (.vhsumF32 ⟨p, fD w, fA w, fG w⟩) else .error .unusedField
  | 1 => if w &&& 0x00000FC0#32 = 0#32 then .ok (.vhminF32 ⟨p, fD w, fA w, fG w⟩) else .error .unusedField
  | 2 => if w &&& 0x00000FC0#32 = 0#32 then .ok (.vhmaxF32 ⟨p, fD w, fA w, fG w⟩) else .error .unusedField
  | 3 => if w &&& 0x00000FC0#32 = 0#32 then .ok (.vhamaxF32 ⟨p, fD w, fA w, fG w⟩) else .error .unusedField
  | 4 => if w &&& 0x00000FC0#32 = 0#32 then .ok (.vhsumI32 ⟨p, fD w, fA w, fG w⟩) else .error .unusedField
  | 5 => if w &&& 0x00000FC0#32 = 0#32 then .ok (.vhsumF16 ⟨p, fD w, fA w, fG w⟩) else .error .unusedField
  | 6 => if w &&& 0x00000FC0#32 = 0#32 then .ok (.vhsumBf16 ⟨p, fD w, fA w, fG w⟩) else .error .unusedField
  | _ => if w &&& 0x00000FC0#32 = 0#32 then .ok (.vhsumF64 ⟨p, fD w, fA w, fG w⟩) else .error .unusedField

/-- Major 0x4B. -/
def decode4B (p : Option (BitVec 24)) (w : SlotWord) : Except Reject Instr :=
  match (fMinor w).toNat with
  | 0 => .ok (.vtopkF32 ⟨p, fD w, fA w, fB w, fG w⟩)
  | 1 => .ok (.vtopkBf16 ⟨p, fD w, fA w, fB w, fG w⟩)
  | 2 => .ok (.vamaxF32 ⟨p, fD w, fA w, fB w, fG w⟩)
  | 3 => .ok (.vamaxBf16 ⟨p, fD w, fA w, fB w, fG w⟩)
  | 4 => .ok (.vamaxF16 ⟨p, fD w, fA w, fB w, fG w⟩)
  | _ => .error .reservedPoint

/-- Major 0x4C. -/
def decode4C (p : Option (BitVec 24)) (w : SlotWord) : Except Reject Instr :=
  match (fMinor w).toNat with
  | 0 => if w &&& 0x00000FC0#32 = 0#32 then .ok (.vcurve ⟨p, fD w, fA w, fMinor2 w, fG w⟩) else .error .unusedField
  | 1 => if w &&& 0x00000FC0#32 = 0#32 then .ok (.vcurve ⟨p, fD w, fA w, fMinor2 w, fG w⟩) else .error .unusedField
  | 2 => if w &&& 0x00000FC0#32 = 0#32 then .ok (.vcurve ⟨p, fD w, fA w, fMinor2 w, fG w⟩) else .error .unusedField
  | 3 => if w &&& 0x00000FC0#32 = 0#32 then .ok (.vcurve ⟨p, fD w, fA w, fMinor2 w, fG w⟩) else .error .unusedField
  | _ => .error .reservedPoint

/-- Major 0x4D. -/
def decode4D (p : Option (BitVec 24)) (w : SlotWord) : Except Reject Instr :=
  match (fMinor w).toNat with
  | 0 => if w &&& 0x00000FC0#32 = 0#32 then .ok (.vabsF32 ⟨p, fD w, fA w, fG w⟩) else .error .unusedField
  | 1 => if w &&& 0x00000FC0#32 = 0#32 then .ok (.vnegF32 ⟨p, fD w, fA w, fG w⟩) else .error .unusedField
  | 2 => if w &&& 0x00000FC0#32 = 0#32 then .ok (.vabsI32 ⟨p, fD w, fA w, fG w⟩) else .error .unusedField
  | 3 => if w &&& 0x00000FC0#32 = 0#32 then .ok (.vnegI32 ⟨p, fD w, fA w, fG w⟩) else .error .unusedField
  | 4 => if w &&& 0x00000FC0#32 = 0#32 then .ok (.vabsF16 ⟨p, fD w, fA w, fG w⟩) else .error .unusedField
  | 5 => if w &&& 0x00000FC0#32 = 0#32 then .ok (.vnegF16 ⟨p, fD w, fA w, fG w⟩) else .error .unusedField
  | 6 => if w &&& 0x00000FC0#32 = 0#32 then .ok (.vabsF64 ⟨p, fD w, fA w, fG w⟩) else .error .unusedField
  | _ => if w &&& 0x00000FC0#32 = 0#32 then .ok (.vnegF64 ⟨p, fD w, fA w, fG w⟩) else .error .unusedField

/-- Major 0x58. -/
def decode58 (p : Option (BitVec 24)) (w : SlotWord) : Except Reject Instr :=
  match (fMinor w).toNat with
  | 0 => .ok (.ldU8R ⟨p, fD w, fA w, fB w, fG w⟩)
  | 1 => .ok (.ldI8R ⟨p, fD w, fA w, fB w, fG w⟩)
  | 2 => .ok (.ldU16R ⟨p, fD w, fA w, fB w, fG w⟩)
  | 3 => .ok (.ldI16R ⟨p, fD w, fA w, fB w, fG w⟩)
  | 4 => .ok (.ldU32R ⟨p, fD w, fA w, fB w, fG w⟩)
  | 5 => .ok (.ldI32R ⟨p, fD w, fA w, fB w, fG w⟩)
  | 6 => .ok (.ldU64R ⟨p, fD w, fA w, fB w, fG w⟩)
  | _ => .ok (.vldR ⟨p, fD w, fA w, fB w, fG w⟩)

/-- Major 0x59. -/
def decode59 (p : Option (BitVec 24)) (w : SlotWord) : Except Reject Instr :=
  match (fMinor w).toNat with
  | 0 => .ok (.stU8R ⟨p, fD w, fA w, fB w, fG w⟩)
  | 1 => .ok (.stU16R ⟨p, fD w, fA w, fB w, fG w⟩)
  | 2 => .ok (.stU32R ⟨p, fD w, fA w, fB w, fG w⟩)
  | 3 => .ok (.stU64R ⟨p, fD w, fA w, fB w, fG w⟩)
  | 4 => .ok (.vstR ⟨p, fD w, fA w, fB w, fG w⟩)
  | _ => .error .reservedPoint

/-- Major 0x5A. -/
def decode5A (p : Option (BitVec 24)) (w : SlotWord) : Except Reject Instr :=
  .ok (.ldU8I ⟨p, fD w, fA w, fI9 w, fG w⟩)

/-- Major 0x5B. -/
def decode5B (p : Option (BitVec 24)) (w : SlotWord) : Except Reject Instr :=
  .ok (.ldI8I ⟨p, fD w, fA w, fI9 w, fG w⟩)

/-- Major 0x5C. -/
def decode5C (p : Option (BitVec 24)) (w : SlotWord) : Except Reject Instr :=
  .ok (.ldU16I ⟨p, fD w, fA w, fI9 w, fG w⟩)

/-- Major 0x5D. -/
def decode5D (p : Option (BitVec 24)) (w : SlotWord) : Except Reject Instr :=
  .ok (.ldI16I ⟨p, fD w, fA w, fI9 w, fG w⟩)

/-- Major 0x5E. -/
def decode5E (p : Option (BitVec 24)) (w : SlotWord) : Except Reject Instr :=
  .ok (.ldU32I ⟨p, fD w, fA w, fI9 w, fG w⟩)

/-- Major 0x5F. -/
def decode5F (p : Option (BitVec 24)) (w : SlotWord) : Except Reject Instr :=
  .ok (.ldI32I ⟨p, fD w, fA w, fI9 w, fG w⟩)

/-- Major 0x60. -/
def decode60 (p : Option (BitVec 24)) (w : SlotWord) : Except Reject Instr :=
  .ok (.ldU64I ⟨p, fD w, fA w, fI9 w, fG w⟩)

/-- Major 0x61. -/
def decode61 (p : Option (BitVec 24)) (w : SlotWord) : Except Reject Instr :=
  .ok (.vldI ⟨p, fD w, fA w, fI9 w, fG w⟩)

/-- Major 0x62. -/
def decode62 (p : Option (BitVec 24)) (w : SlotWord) : Except Reject Instr :=
  .ok (.stU8I ⟨p, fD w, fA w, fI9 w, fG w⟩)

/-- Major 0x63. -/
def decode63 (p : Option (BitVec 24)) (w : SlotWord) : Except Reject Instr :=
  .ok (.stU16I ⟨p, fD w, fA w, fI9 w, fG w⟩)

/-- Major 0x64. -/
def decode64 (p : Option (BitVec 24)) (w : SlotWord) : Except Reject Instr :=
  .ok (.stU32I ⟨p, fD w, fA w, fI9 w, fG w⟩)

/-- Major 0x65. -/
def decode65 (p : Option (BitVec 24)) (w : SlotWord) : Except Reject Instr :=
  .ok (.stU64I ⟨p, fD w, fA w, fI9 w, fG w⟩)

/-- Major 0x66. -/
def decode66 (p : Option (BitVec 24)) (w : SlotWord) : Except Reject Instr :=
  .ok (.vstI ⟨p, fD w, fA w, fI9 w, fG w⟩)

/-- Major 0x67. -/
def decode67 (p : Option (BitVec 24)) (w : SlotWord) : Except Reject Instr :=
  match (fMinor w).toNat with
  | 0 => if w &&& 0x0003FFC0#32 = 0#32 then .ok (.rel ⟨p, fD w, fG w⟩) else .error .unusedField
  | 1 => if w &&& 0x00FC0FC0#32 = 0#32 then .ok (.acq ⟨p, fA w, fG w⟩) else .error .unusedField
  | 2 => if w &&& 0x00FFFFC0#32 = 0#32 then .ok (.acqall ⟨p, fG w⟩) else .error .unusedField
  | 3 => if w &&& 0x0003FFC0#32 = 0#32 then .ok (.lmark ⟨p, fD w, fG w⟩) else .error .unusedField
  | 4 => if w &&& 0x00FC0FC0#32 = 0#32 then .ok (.ldrop ⟨p, fA w, fG w⟩) else .error .unusedField
  | 5 => if w &&& 0x00FFFFC0#32 = 0#32 then .ok (.fence ⟨p, fG w⟩) else .error .unusedField
  | 6 => if w &&& 0x00FFFFC0#32 = 0#32 then .ok (.drain ⟨p, fG w⟩) else .error .unusedField
  | _ => if w &&& 0x00FC0000#32 = 0#32 then .ok (.pref ⟨p, fA w, fB w, fG w⟩) else .error .unusedField

/-- Major 0x68. -/
def decode68 (p : Option (BitVec 24)) (w : SlotWord) : Except Reject Instr :=
  match (fMinor w).toNat with
  | 0 => .ok (.radd ⟨p, fD w, fA w, fB w, fMinor w, fG w⟩)
  | 1 => .ok (.radd ⟨p, fD w, fA w, fB w, fMinor w, fG w⟩)
  | 2 => .ok (.radd ⟨p, fD w, fA w, fB w, fMinor w, fG w⟩)
  | 3 => .ok (.radd ⟨p, fD w, fA w, fB w, fMinor w, fG w⟩)
  | 4 => .ok (.radd ⟨p, fD w, fA w, fB w, fMinor w, fG w⟩)
  | 5 => .ok (.radd ⟨p, fD w, fA w, fB w, fMinor w, fG w⟩)
  | 6 => .ok (.radd ⟨p, fD w, fA w, fB w, fMinor w, fG w⟩)
  | _ => .ok (.radd ⟨p, fD w, fA w, fB w, fMinor w, fG w⟩)

/-- Major 0x69. -/
def decode69 (p : Option (BitVec 24)) (w : SlotWord) : Except Reject Instr :=
  match (fMinor w).toNat with
  | 0 => .ok (.vradd ⟨p, fD w, fA w, fB w, fMinor w, fG w⟩)
  | 1 => .ok (.vradd ⟨p, fD w, fA w, fB w, fMinor w, fG w⟩)
  | 2 => .ok (.vradd ⟨p, fD w, fA w, fB w, fMinor w, fG w⟩)
  | 3 => .ok (.vradd ⟨p, fD w, fA w, fB w, fMinor w, fG w⟩)
  | 4 => .ok (.vradd ⟨p, fD w, fA w, fB w, fMinor w, fG w⟩)
  | 5 => .ok (.vradd ⟨p, fD w, fA w, fB w, fMinor w, fG w⟩)
  | 6 => .ok (.vradd ⟨p, fD w, fA w, fB w, fMinor w, fG w⟩)
  | _ => .ok (.vradd ⟨p, fD w, fA w, fB w, fMinor w, fG w⟩)

/-- Major 0x6A. -/
def decode6A (p : Option (BitVec 24)) (w : SlotWord) : Except Reject Instr :=
  match (fMinor w).toNat with
  | 0 => .ok (.ldpt ⟨p, fD w, fA w, fB w, fMinor2 w, fG w⟩)
  | 1 => .ok (.ldpt ⟨p, fD w, fA w, fB w, fMinor2 w, fG w⟩)
  | 2 => .ok (.ldpt ⟨p, fD w, fA w, fB w, fMinor2 w, fG w⟩)
  | 3 => .ok (.ldpt ⟨p, fD w, fA w, fB w, fMinor2 w, fG w⟩)
  | 4 => .ok (.ldpn ⟨p, fD w, fA w, fB w, fMinor2 w, fG w⟩)
  | 5 => .ok (.ldpn ⟨p, fD w, fA w, fB w, fMinor2 w, fG w⟩)
  | 6 => .ok (.ldpn ⟨p, fD w, fA w, fB w, fMinor2 w, fG w⟩)
  | _ => .ok (.ldpn ⟨p, fD w, fA w, fB w, fMinor2 w, fG w⟩)

/-- Major 0x6B. -/
def decode6B (p : Option (BitVec 24)) (w : SlotWord) : Except Reject Instr :=
  match (fMinor w).toNat with
  | 0 => .ok (.pupd ⟨p, fD w, fA w, fB w, fG w⟩)
  | 1 => .ok (.padam ⟨p, fD w, fA w, fB w, fG w⟩)
  | 2 => .ok (.stq ⟨p, fD w, fA w, fB w, fG w⟩)
  | 3 => if w &&& 0x00FC0FC0#32 = 0#32 then .ok (.scommit ⟨p, fA w, fG w⟩) else .error .unusedField
  | 4 => if w &&& 0x00000FC0#32 = 0#32 then .ok (.scalc ⟨p, fD w, fA w, fG w⟩) else .error .unusedField
  | _ => .error .reservedPoint

/-- Major 0x6C. -/
def decode6C (p : Option (BitVec 24)) (w : SlotWord) : Except Reject Instr :=
  match (fMinor w).toNat with
  | 0 => if w &&& 0x00000FC0#32 = 0#32 then .ok (.rpush ⟨p, fD w, fA w, fG w⟩) else .error .unusedField
  | 1 => if w &&& 0x00FC0FC0#32 = 0#32 then .ok (.rpop ⟨p, fA w, fG w⟩) else .error .unusedField
  | 2 => if w &&& 0x00000FC0#32 = 0#32 then .ok (.sbind ⟨p, fD w, fA w, fG w⟩) else .error .unusedField
  | 3 => if w &&& 0x0003FFC0#32 = 0#32 then .ok (.sfree ⟨p, fD w, fG w⟩) else .error .unusedField
  | _ => .error .reservedPoint

/-- Major 0x6D. -/
def decode6D (p : Option (BitVec 24)) (w : SlotWord) : Except Reject Instr :=
  match (fMinor w).toNat with
  | 0 => if w &&& 0x00000FC0#32 = 0#32 then .ok (.scld ⟨p, fD w, fA w, fG w⟩) else .error .unusedField
  | 1 => if w &&& 0x00FC0000#32 = 0#32 then .ok (.scst ⟨p, fA w, fB w, fG w⟩) else .error .unusedField
  | 2 => .ok (.scadd ⟨p, fD w, fA w, fB w, fG w⟩)
  | 3 => .ok (.scswp ⟨p, fD w, fA w, fB w, fG w⟩)
  | 4 => .ok (.sccas ⟨p, fD w, fA w, fB w, fG w⟩)
  | 5 => .ok (.scmin ⟨p, fD w, fA w, fB w, fG w⟩)
  | 6 => .ok (.scmax ⟨p, fD w, fA w, fB w, fG w⟩)
  | _ => .ok (.scminu ⟨p, fD w, fA w, fB w, fG w⟩)

/-- Major 0x6E. -/
noncomputable def decode6E (p : Option (BitVec 24)) (w : SlotWord) : Except Reject Instr :=
  match (fMinor w).toNat with
  | 0 => .ok (.scmaxu ⟨p, fD w, fA w, fB w, fG w⟩)
  | _ => .error .reservedPoint

/-- Major 0x70. -/
noncomputable def decode70 (p : Option (BitVec 24)) (w : SlotWord) : Except Reject Instr :=
  match (fMinor w).toNat with
  | 0 => if w &&& 0x00800000#32 = 0#32 then .ok (.mmE2m1 ⟨p, fT w, fA w, fB w, fG w⟩) else .error .unusedField
  | 1 => if w &&& 0x00800000#32 = 0#32 then .ok (.mmE4m3 ⟨p, fT w, fA w, fB w, fG w⟩) else .error .unusedField
  | 2 => if w &&& 0x00800000#32 = 0#32 then .ok (.mmE5m2 ⟨p, fT w, fA w, fB w, fG w⟩) else .error .unusedField
  | 3 => if w &&& 0x00800000#32 = 0#32 then .ok (.mmBf16 ⟨p, fT w, fA w, fB w, fG w⟩) else .error .unusedField
  | 4 => if w &&& 0x00800000#32 = 0#32 then .ok (.mmF16 ⟨p, fT w, fA w, fB w, fG w⟩) else .error .unusedField
  | 5 => if w &&& 0x00800000#32 = 0#32 then .ok (.mmd ⟨p, fT w, fA w, fB w, fG w⟩) else .error .unusedField
  | 6 => if w &&& 0x00800000#32 = 0#32 then .ok (.mmb ⟨p, fT w, fA w, fB w, fG w⟩) else .error .unusedField
  | _ => .error .reservedPoint

/-- Major 0x71. -/
noncomputable def decode71 (p : Option (BitVec 24)) (w : SlotWord) : Except Reject Instr :=
  match (fMinor w).toNat with
  | 0 => if w &&& 0x00800000#32 = 0#32 then .ok (.mspE2m1 ⟨p, fT w, fA w, fB w, fG w⟩) else .error .unusedField
  | 1 => if w &&& 0x00800000#32 = 0#32 then .ok (.mspE4m3 ⟨p, fT w, fA w, fB w, fG w⟩) else .error .unusedField
  | 2 => if w &&& 0x00800000#32 = 0#32 then .ok (.mspE5m2 ⟨p, fT w, fA w, fB w, fG w⟩) else .error .unusedField
  | 3 => if w &&& 0x00800000#32 = 0#32 then .ok (.mspBf16 ⟨p, fT w, fA w, fB w, fG w⟩) else .error .unusedField
  | 4 => if w &&& 0x00800000#32 = 0#32 then .ok (.mspF16 ⟨p, fT w, fA w, fB w, fG w⟩) else .error .unusedField
  | 5 => if w &&& 0x00800000#32 = 0#32 then .ok (.mspd ⟨p, fT w, fA w, fB w, fG w⟩) else .error .unusedField
  | 6 => if w &&& 0x00800000#32 = 0#32 then .ok (.mspb ⟨p, fT w, fA w, fB w, fG w⟩) else .error .unusedField
  | _ => .error .reservedPoint

/-- Major 0x72. -/
noncomputable def decode72 (p : Option (BitVec 24)) (w : SlotWord) : Except Reject Instr :=
  match (fMinor w).toNat with
  | 0 => if w &&& 0x00800000#32 = 0#32 then .ok (.mmgE2m1 ⟨p, fT w, fA w, fB w, fG w⟩) else .error .unusedField
  | 1 => if w &&& 0x00800000#32 = 0#32 then .ok (.mmgE4m3 ⟨p, fT w, fA w, fB w, fG w⟩) else .error .unusedField
  | 2 => if w &&& 0x00800000#32 = 0#32 then .ok (.mmgE5m2 ⟨p, fT w, fA w, fB w, fG w⟩) else .error .unusedField
  | 3 => if w &&& 0x00800000#32 = 0#32 then .ok (.mmgBf16 ⟨p, fT w, fA w, fB w, fG w⟩) else .error .unusedField
  | 4 => if w &&& 0x00800000#32 = 0#32 then .ok (.mmgF16 ⟨p, fT w, fA w, fB w, fG w⟩) else .error .unusedField
  | 5 => if w &&& 0x00800000#32 = 0#32 then .ok (.mmgd ⟨p, fT w, fA w, fB w, fG w⟩) else .error .unusedField
  | 6 => if w &&& 0x00800000#32 = 0#32 then .ok (.mmgb ⟨p, fT w, fA w, fB w, fG w⟩) else .error .unusedField
  | _ => .error .reservedPoint

/-- Major 0x73. -/
noncomputable def decode73 (p : Option (BitVec 24)) (w : SlotWord) : Except Reject Instr :=
  match (fMinor w).toNat with
  | 0 => if w &&& 0x0083FFC0#32 = 0#32 then .ok (.mzero ⟨p, fT w, fG w⟩) else .error .unusedField
  | 1 => if w &&& 0x00800000#32 = 0#32 then .ok (.mtld ⟨p, fT w, fA w, fB w, fG w⟩) else .error .unusedField
  | 2 => if w &&& 0x00800000#32 = 0#32 then .ok (.mtst ⟨p, fT w, fA w, fB w, fG w⟩) else .error .unusedField
  | 3 => if w &&& 0x00800FC0#32 = 0#32 then .ok (.mepi ⟨p, fT w, fA w, fG w⟩) else .error .unusedField
  | _ => .error .reservedPoint

/-- Major 0x74. -/
noncomputable def decode74 (p : Option (BitVec 24)) (w : SlotWord) : Except Reject Instr :=
  match (fMinor w).toNat with
  | 0 => .ok (.copy ⟨p, fD w, fA w, fB w, fG w⟩)
  | 1 => .ok (.copy2 ⟨p, fD w, fA w, fB w, fG w⟩)
  | 2 => .ok (.copyr ⟨p, fD w, fA w, fB w, fG w⟩)
  | 3 => if w &&& 0x00FC0FC0#32 = 0#32 then .ok (.ccan ⟨p, fA w, fG w⟩) else .error .unusedField
  | _ => .error .reservedPoint

/-- Major 0x75. -/
noncomputable def decode75 (p : Option (BitVec 24)) (w : SlotWord) : Except Reject Instr :=
  .ok (.send ⟨p, fD w, fA w, fI9 w, fG w⟩)

/-- Major 0x76. -/
noncomputable def decode76 (p : Option (BitVec 24)) (w : SlotWord) : Except Reject Instr :=
  .ok (.recv ⟨p, fD w, fA w, fI9 w, fG w⟩)

/-- Major 0x77. -/
noncomputable def decode77 (p : Option (BitVec 24)) (w : SlotWord) : Except Reject Instr :=
  if w &&& 0x00FFF000#32 = 0#32 then .ok (.eos ⟨p, fI9 w, fG w⟩) else .error .unusedField

/-- Major 0x78. -/
noncomputable def decode78 (p : Option (BitVec 24)) (w : SlotWord) : Except Reject Instr :=
  .ok (.bcast ⟨p, fD w, fA w, fI9 w, fG w⟩)

/-- Major 0x79. -/
noncomputable def decode79 (p : Option (BitVec 24)) (w : SlotWord) : Except Reject Instr :=
  match (fMinor w).toNat with
  | 0 => if w &&& 0x00FC0FC0#32 = 0#32 then .ok (.route ⟨p, fA w, fG w⟩) else .error .unusedField
  | 1 => if w &&& 0x00FC0FC0#32 = 0#32 then .ok (.rclose ⟨p, fA w, fG w⟩) else .error .unusedField
  | _ => .error .reservedPoint

/-- Major 0x7A. -/
noncomputable def decode7A (p : Option (BitVec 24)) (w : SlotWord) : Except Reject Instr :=
  match (fMinor w).toNat with
  | 0 => if w &&& 0x00FC0000#32 = 0#32 then .ok (.launch ⟨p, fA w, fB w, fG w⟩) else .error .unusedField
  | 1 => if w &&& 0x00FC0000#32 = 0#32 then .ok (.spawn ⟨p, fA w, fB w, fG w⟩) else .error .unusedField
  | 2 => if w &&& 0x00FC0000#32 = 0#32 then .ok (.spawnc ⟨p, fA w, fB w, fG w⟩) else .error .unusedField
  | _ => .error .reservedPoint

/-- Major 0x7B. -/
noncomputable def decode7B (p : Option (BitVec 24)) (w : SlotWord) : Except Reject Instr :=
  match (fMinor w).toNat with
  | 0 => if w &&& 0x00FC0000#32 = 0#32 then .ok (.cset ⟨p, fA w, fB w, fG w⟩) else .error .unusedField
  | 1 => if w &&& 0x00FC0000#32 = 0#32 then .ok (.cadd ⟨p, fA w, fB w, fG w⟩) else .error .unusedField
  | 2 => if w &&& 0x00000FC0#32 = 0#32 then .ok (.crd ⟨p, fD w, fA w, fG w⟩) else .error .unusedField
  | 3 => if w &&& 0x00FC0000#32 = 0#32 then .ok (.carm ⟨p, fA w, fB w, fG w⟩) else .error .unusedField
  | 4 => if w &&& 0x00FC0000#32 = 0#32 then .ok (.cdisarm ⟨p, fA w, fB w, fG w⟩) else .error .unusedField
  | 5 => if w &&& 0x00FC0000#32 = 0#32 then .ok (.cstage ⟨p, fA w, fB w, fG w⟩) else .error .unusedField
  | 6 => if w &&& 0x00FC0000#32 = 0#32 then .ok (.waitc ⟨p, fA w, fB w, fG w⟩) else .error .unusedField
  | _ => .ok (.waitct ⟨p, fD w, fA w, fB w, fG w⟩)

/-- Major 0x7C. -/
noncomputable def decode7C (p : Option (BitVec 24)) (w : SlotWord) : Except Reject Instr :=
  match (fMinor w).toNat with
  | 0 => .ok (.mpost ⟨p, fD w, fA w, fB w, fG w⟩)
  | 1 => .ok (.mtake ⟨p, fD w, fA w, fB w, fG w⟩)
  | _ => .error .reservedPoint

/-- The instruction of a slot word of a major below 0x6E; every other major is a reserved point here (R292). -/
def decodeLow (p : Option (BitVec 24)) (w : SlotWord) : Except Reject Instr :=
  match (fMajor w).toNat with
  | 0 => decode00 p w
  | 1 => decode01 p w
  | 2 => decode02 p w
  | 3 => decode03 p w
  | 4 => decode04 p w
  | 5 => decode05 p w
  | 6 => decode06 p w
  | 7 => decode07 p w
  | 8 => decode08 p w
  | 9 => decode09 p w
  | 10 => decode0A p w
  | 11 => decode0B p w
  | 12 => decode0C p w
  | 13 => decode0D p w
  | 14 => decode0E p w
  | 15 => decode0F p w
  | 16 => decode10 p w
  | 17 => decode11 p w
  | 18 => decode12 p w
  | 19 => decode13 p w
  | 20 => decode14 p w
  | 21 => decode15 p w
  | 22 => decode16 p w
  | 23 => decode17 p w
  | 24 => decode18 p w
  | 25 => decode19 p w
  | 26 => decode1A p w
  | 27 => decode1B p w
  | 28 => decode1C p w
  | 29 => decode1D p w
  | 30 => decode1E p w
  | 31 => decode1F p w
  | 32 => decode20 p w
  | 33 => decode21 p w
  | 34 => decode22 p w
  | 35 => decode23 p w
  | 45 => decode2D p w
  | 48 => decode30 p w
  | 49 => decode31 p w
  | 50 => decode32 p w
  | 51 => decode33 p w
  | 52 => decode34 p w
  | 53 => decode35 p w
  | 54 => decode36 p w
  | 55 => decode37 p w
  | 56 => decode38 p w
  | 57 => decode39 p w
  | 58 => decode3A p w
  | 59 => decode3B p w
  | 60 => decode3C p w
  | 61 => decode3D p w
  | 62 => decode3E p w
  | 63 => decode3F p w
  | 64 => decode40 p w
  | 65 => decode41 p w
  | 66 => decode42 p w
  | 67 => decode43 p w
  | 68 => decode44 p w
  | 69 => decode45 p w
  | 70 => decode46 p w
  | 71 => decode47 p w
  | 72 => decode48 p w
  | 73 => decode49 p w
  | 74 => decode4A p w
  | 75 => decode4B p w
  | 76 => decode4C p w
  | 77 => decode4D p w
  | 88 => decode58 p w
  | 89 => decode59 p w
  | 90 => decode5A p w
  | 91 => decode5B p w
  | 92 => decode5C p w
  | 93 => decode5D p w
  | 94 => decode5E p w
  | 95 => decode5F p w
  | 96 => decode60 p w
  | 97 => decode61 p w
  | 98 => decode62 p w
  | 99 => decode63 p w
  | 100 => decode64 p w
  | 101 => decode65 p w
  | 102 => decode66 p w
  | 103 => decode67 p w
  | 104 => decode68 p w
  | 105 => decode69 p w
  | 106 => decode6A p w
  | 107 => decode6B p w
  | 108 => decode6C p w
  | 109 => decode6D p w
  | 80 => .error .heldBitOne
  | 81 => .error .heldBitOne
  | 82 => .error .heldBitOne
  | 83 => .error .heldBitOne
  | _ => .error .reservedPoint

/-- The instruction that a slot word stands for, after the X prefix `p` if one precedes it (R291). -/
noncomputable def decodeSlot (p : Option (BitVec 24)) (w : SlotWord) : Except Reject Instr :=
  match (fMajor w).toNat with
  | 110 => decode6E p w
  | 112 => decode70 p w
  | 113 => decode71 p w
  | 114 => decode72 p w
  | 115 => decode73 p w
  | 116 => decode74 p w
  | 117 => decode75 p w
  | 118 => decode76 p w
  | 119 => decode77 p w
  | 120 => decode78 p w
  | 121 => decode79 p w
  | 122 => decode7A p w
  | 123 => decode7B p w
  | 124 => decode7C p w
  | 127 => .ok (.xPrefix (fI24 w))
  | _ => decodeLow p w

/-- The word of the X prefix that stands before a slot, if any (R291). -/
def encodePrefix : Option (BitVec 24) → List SlotWord
  | none => []
  | some i => [packX 0#1 i]

/-- The words of an instruction alone in its bundle, `E` set on the last (R279, R286); an event has no words. -/
def encode : Instr → List SlotWord
  | .add o => encodePrefix o.p ++ [packR 0x00#7 o.d o.a o.b 0#3 o.g]
  | .sub o => encodePrefix o.p ++ [packR 0x00#7 o.d o.a o.b 1#3 o.g]
  | .and o => encodePrefix o.p ++ [packR 0x00#7 o.d o.a o.b 2#3 o.g]
  | .or o => encodePrefix o.p ++ [packR 0x00#7 o.d o.a o.b 3#3 o.g]
  | .xor o => encodePrefix o.p ++ [packR 0x00#7 o.d o.a o.b 4#3 o.g]
  | .andn o => encodePrefix o.p ++ [packR 0x00#7 o.d o.a o.b 5#3 o.g]
  | .sll o => encodePrefix o.p ++ [packR 0x01#7 o.d o.a o.b 0#3 o.g]
  | .srl o => encodePrefix o.p ++ [packR 0x01#7 o.d o.a o.b 1#3 o.g]
  | .sra o => encodePrefix o.p ++ [packR 0x01#7 o.d o.a o.b 2#3 o.g]
  | .mul o => encodePrefix o.p ++ [packR 0x02#7 o.d o.a o.b 0#3 o.g]
  | .mulh o => encodePrefix o.p ++ [packR 0x02#7 o.d o.a o.b 1#3 o.g]
  | .mulhu o => encodePrefix o.p ++ [packR 0x02#7 o.d o.a o.b 2#3 o.g]
  | .div o => encodePrefix o.p ++ [packR 0x02#7 o.d o.a o.b 3#3 o.g]
  | .divu o => encodePrefix o.p ++ [packR 0x02#7 o.d o.a o.b 4#3 o.g]
  | .rem o => encodePrefix o.p ++ [packR 0x02#7 o.d o.a o.b 5#3 o.g]
  | .remu o => encodePrefix o.p ++ [packR 0x02#7 o.d o.a o.b 6#3 o.g]
  | .min o => encodePrefix o.p ++ [packR 0x03#7 o.d o.a o.b 0#3 o.g]
  | .max o => encodePrefix o.p ++ [packR 0x03#7 o.d o.a o.b 1#3 o.g]
  | .minu o => encodePrefix o.p ++ [packR 0x03#7 o.d o.a o.b 2#3 o.g]
  | .maxu o => encodePrefix o.p ++ [packR 0x03#7 o.d o.a o.b 3#3 o.g]
  | .clz o => encodePrefix o.p ++ [packR 0x03#7 o.d o.a 0#6 4#3 o.g]
  | .ctz o => encodePrefix o.p ++ [packR 0x03#7 o.d o.a 0#6 5#3 o.g]
  | .popc o => encodePrefix o.p ++ [packR 0x03#7 o.d o.a 0#6 6#3 o.g]
  | .bext o => encodePrefix o.p ++ [packR 0x04#7 o.d o.a o.b 0#3 o.g]
  | .bextu o => encodePrefix o.p ++ [packR 0x04#7 o.d o.a o.b 1#3 o.g]
  | .bins o => encodePrefix o.p ++ [packR 0x04#7 o.d o.a o.b 2#3 o.g]
  | .cmpeq o => encodePrefix o.p ++ [packR 0x05#7 o.d o.a o.b 0#3 o.g]
  | .cmpne o => encodePrefix o.p ++ [packR 0x05#7 o.d o.a o.b 1#3 o.g]
  | .cmplt o => encodePrefix o.p ++ [packR 0x05#7 o.d o.a o.b 2#3 o.g]
  | .cmpge o => encodePrefix o.p ++ [packR 0x05#7 o.d o.a o.b 3#3 o.g]
  | .cmpltu o => encodePrefix o.p ++ [packR 0x05#7 o.d o.a o.b 4#3 o.g]
  | .cmpgeu o => encodePrefix o.p ++ [packR 0x05#7 o.d o.a o.b 5#3 o.g]
  | .pand o => encodePrefix o.p ++ [packR 0x06#7 o.d o.a o.b 0#3 o.g]
  | .por o => encodePrefix o.p ++ [packR 0x06#7 o.d o.a o.b 1#3 o.g]
  | .pxor o => encodePrefix o.p ++ [packR 0x06#7 o.d o.a o.b 2#3 o.g]
  | .pandn o => encodePrefix o.p ++ [packR 0x06#7 o.d o.a o.b 3#3 o.g]
  | .faddF32 o => encodePrefix o.p ++ [packR 0x07#7 o.d o.a o.b 0#3 o.g]
  | .fsubF32 o => encodePrefix o.p ++ [packR 0x07#7 o.d o.a o.b 1#3 o.g]
  | .fmulF32 o => encodePrefix o.p ++ [packR 0x07#7 o.d o.a o.b 2#3 o.g]
  | .fdivF32 o => encodePrefix o.p ++ [packR 0x07#7 o.d o.a o.b 3#3 o.g]
  | .fminF32 o => encodePrefix o.p ++ [packR 0x07#7 o.d o.a o.b 4#3 o.g]
  | .fmaxF32 o => encodePrefix o.p ++ [packR 0x07#7 o.d o.a o.b 5#3 o.g]
  | .fsqrtF32 o => encodePrefix o.p ++ [packR 0x07#7 o.d o.a 0#6 6#3 o.g]
  | .fcmpeqF32 o => encodePrefix o.p ++ [packR 0x08#7 o.d o.a o.b 0#3 o.g]
  | .fcmpltF32 o => encodePrefix o.p ++ [packR 0x08#7 o.d o.a o.b 1#3 o.g]
  | .fcmpleF32 o => encodePrefix o.p ++ [packR 0x08#7 o.d o.a o.b 2#3 o.g]
  | .fcmpunF32 o => encodePrefix o.p ++ [packR 0x08#7 o.d o.a o.b 3#3 o.g]
  | .fmaddF32 o => encodePrefix o.p ++ [packR 0x09#7 o.d o.a o.b 0#3 o.g]
  | .fmsubF32 o => encodePrefix o.p ++ [packR 0x09#7 o.d o.a o.b 1#3 o.g]
  | .fnmaddF32 o => encodePrefix o.p ++ [packR 0x09#7 o.d o.a o.b 2#3 o.g]
  | .fnmsubF32 o => encodePrefix o.p ++ [packR 0x09#7 o.d o.a o.b 3#3 o.g]
  | .fcvtF32I64 o => encodePrefix o.p ++ [packR 0x0A#7 o.d o.a 0#6 0#3 o.g]
  | .fcvtF32U64 o => encodePrefix o.p ++ [packR 0x0A#7 o.d o.a 0#6 1#3 o.g]
  | .fcvtI64F32 o => encodePrefix o.p ++ [packR 0x0A#7 o.d o.a 0#6 2#3 o.g]
  | .fcvtU64F32 o => encodePrefix o.p ++ [packR 0x0A#7 o.d o.a 0#6 3#3 o.g]
  | .fcvtBf16F32 o => encodePrefix o.p ++ [packR 0x0A#7 o.d o.a 0#6 4#3 o.g]
  | .fcvtF32Bf16 o => encodePrefix o.p ++ [packR 0x0A#7 o.d o.a 0#6 5#3 o.g]
  | .fcvtF16F32 o => encodePrefix o.p ++ [packR 0x0A#7 o.d o.a 0#6 6#3 o.g]
  | .fcvtF32F16 o => encodePrefix o.p ++ [packR 0x0A#7 o.d o.a 0#6 7#3 o.g]
  | .addi o => encodePrefix o.p ++ [packI 0x0B#7 o.d o.a o.i o.g]
  | .andi o => encodePrefix o.p ++ [packI 0x0C#7 o.d o.a o.i o.g]
  | .ori o => encodePrefix o.p ++ [packI 0x0D#7 o.d o.a o.i o.g]
  | .xori o => encodePrefix o.p ++ [packI 0x0E#7 o.d o.a o.i o.g]
  | .slli o => encodePrefix o.p ++ [packI 0x0F#7 o.d o.a o.i o.g]
  | .srli o => encodePrefix o.p ++ [packI 0x10#7 o.d o.a o.i o.g]
  | .srai o => encodePrefix o.p ++ [packI 0x11#7 o.d o.a o.i o.g]
  | .cmpeqi o => encodePrefix o.p ++ [packI 0x12#7 o.d o.a o.i o.g]
  | .cmplti o => encodePrefix o.p ++ [packI 0x13#7 o.d o.a o.i o.g]
  | .cmpltui o => encodePrefix o.p ++ [packI 0x14#7 o.d o.a o.i o.g]
  | .li o => encodePrefix o.p ++ [packL 0x15#7 o.d o.i]
  | .adr o => encodePrefix o.p ++ [packL 0x16#7 o.d o.i]
  | .loop o => encodePrefix o.p ++ [packL 0x17#7 o.d o.i]
  | .br o => encodePrefix o.p ++ [packB 0x18#7 o.c 0#1 o.o]
  | .brn o => encodePrefix o.p ++ [packB 0x18#7 o.c 1#1 o.o]
  | .call o => encodePrefix o.p ++ [packB 0x19#7 o.c 0#1 o.o]
  | .calln o => encodePrefix o.p ++ [packB 0x19#7 o.c 1#1 o.o]
  | .jr o => encodePrefix o.p ++ [packR 0x1A#7 0#6 o.a 0#6 0#3 o.g]
  | .callr o => encodePrefix o.p ++ [packR 0x1A#7 0#6 o.a 0#6 1#3 o.g]
  | .crr o => encodePrefix o.p ++ [packI 0x1B#7 o.d 0#6 o.i o.g]
  | .crw o => encodePrefix o.p ++ [packI 0x1C#7 0#6 o.a o.i o.g]
  | .yield o => encodePrefix o.p ++ [packR 0x1D#7 0#6 0#6 0#6 0#3 o.g]
  | .waitw o => encodePrefix o.p ++ [packR 0x1D#7 0#6 0#6 0#6 1#3 o.g]
  | .migr o => encodePrefix o.p ++ [packR 0x1D#7 0#6 o.a 0#6 2#3 o.g]
  | .realign o => encodePrefix o.p ++ [packI 0x1E#7 0#6 0#6 o.i o.g]
  | .brk o => encodePrefix o.p ++ [packI 0x1F#7 0#6 0#6 o.i o.g]
  | .sys o => encodePrefix o.p ++ [packI 0x20#7 0#6 0#6 o.i o.g]
  | .tret o => encodePrefix o.p ++ [packR 0x21#7 0#6 0#6 0#6 0#3 o.g]
  | .uiret o => encodePrefix o.p ++ [packR 0x21#7 0#6 0#6 0#6 1#3 o.g]
  | .start o => encodePrefix o.p ++ [packR 0x21#7 0#6 o.a 0#6 2#3 o.g]
  | .reap o => encodePrefix o.p ++ [packR 0x21#7 0#6 o.a 0#6 3#3 o.g]
  | .pairon o => encodePrefix o.p ++ [packR 0x21#7 0#6 0#6 0#6 4#3 o.g]
  | .pairoff o => encodePrefix o.p ++ [packR 0x21#7 0#6 0#6 0#6 5#3 o.g]
  | .placept o => encodePrefix o.p ++ [packR 0x21#7 0#6 0#6 0#6 6#3 o.g]
  | .ldtab o => encodePrefix o.p ++ [packR 0x22#7 0#6 o.a 0#6 (0#1 ++ o.t) o.g]
  | .ldcurve o => encodePrefix o.p ++ [packR 0x22#7 0#6 o.a 0#6 (1#1 ++ o.t) o.g]
  | .iinv o => encodePrefix o.p ++ [packR 0x23#7 0#6 o.a 0#6 0#3 o.g]
  | .iinva o => encodePrefix o.p ++ [packR 0x23#7 0#6 0#6 0#6 1#3 o.g]
  | .chinst o => encodePrefix o.p ++ [packR 0x23#7 o.d o.a o.b 2#3 o.g]
  | .rgcmd o => encodePrefix o.p ++ [packR 0x23#7 o.d o.a 0#6 3#3 o.g]
  | .xinvl o => encodePrefix o.p ++ [packR 0x2D#7 0#6 o.a 0#6 0#3 o.g]
  | .xinvc o => encodePrefix o.p ++ [packR 0x2D#7 0#6 o.a 0#6 1#3 o.g]
  | .xinva o => encodePrefix o.p ++ [packR 0x2D#7 0#6 o.a 0#6 2#3 o.g]
  | .xinvt o => encodePrefix o.p ++ [packR 0x2D#7 0#6 0#6 0#6 3#3 o.g]
  | .xsync o => encodePrefix o.p ++ [packR 0x2D#7 0#6 0#6 0#6 4#3 o.g]
  | .vadd o => encodePrefix o.p ++ [packR 0x30#7 o.d o.a o.b o.t o.g]
  | .vsub o => encodePrefix o.p ++ [packR 0x31#7 o.d o.a o.b o.t o.g]
  | .vmul o => encodePrefix o.p ++ [packR 0x32#7 o.d o.a o.b o.t o.g]
  | .vmla o => encodePrefix o.p ++ [packR 0x33#7 o.d o.a o.b (0#1 ++ o.t) o.g]
  | .vfma o => encodePrefix o.p ++ [packR 0x33#7 o.d o.a o.b (1#1 ++ o.t) o.g]
  | .vdiv o => encodePrefix o.p ++ [packR 0x34#7 o.d o.a o.b (0#1 ++ o.t) o.g]
  | .vsqrt o => encodePrefix o.p ++ [packR 0x34#7 o.d o.a 0#6 (1#1 ++ o.t) o.g]
  | .vmin o => encodePrefix o.p ++ [packR 0x35#7 o.d o.a o.b o.t o.g]
  | .vmax o => encodePrefix o.p ++ [packR 0x36#7 o.d o.a o.b o.t o.g]
  | .vminu o => encodePrefix o.p ++ [packR 0x37#7 o.d o.a o.b (0#1 ++ o.t) o.g]
  | .vmaxu o => encodePrefix o.p ++ [packR 0x37#7 o.d o.a o.b (1#1 ++ o.t) o.g]
  | .vadds o => encodePrefix o.p ++ [packR 0x38#7 o.d o.a o.b o.t o.g]
  | .vsubs o => encodePrefix o.p ++ [packR 0x39#7 o.d o.a o.b o.t o.g]
  | .vand o => encodePrefix o.p ++ [packR 0x3A#7 o.d o.a o.b 0#3 o.g]
  | .vor o => encodePrefix o.p ++ [packR 0x3A#7 o.d o.a o.b 1#3 o.g]
  | .vxor o => encodePrefix o.p ++ [packR 0x3A#7 o.d o.a o.b 2#3 o.g]
  | .vandn o => encodePrefix o.p ++ [packR 0x3A#7 o.d o.a o.b 3#3 o.g]
  | .vsel o => encodePrefix o.p ++ [packR 0x3A#7 o.d o.a o.b 4#3 o.g]
  | .vsll o => encodePrefix o.p ++ [packR 0x3B#7 o.d o.a o.b (0#1 ++ o.t) o.g]
  | .vsrl o => encodePrefix o.p ++ [packR 0x3B#7 o.d o.a o.b (1#1 ++ o.t) o.g]
  | .vsra o => encodePrefix o.p ++ [packR 0x3C#7 o.d o.a o.b (0#1 ++ o.t) o.g]
  | .vcmpeq o => encodePrefix o.p ++ [packR 0x3D#7 o.d o.a o.b o.t o.g]
  | .vcmplt o => encodePrefix o.p ++ [packR 0x3E#7 o.d o.a o.b o.t o.g]
  | .vcmpltu o => encodePrefix o.p ++ [packR 0x3F#7 o.d o.a o.b (0#1 ++ o.t) o.g]
  | .vcmple o => encodePrefix o.p ++ [packR 0x3F#7 o.d o.a o.b (1#1 ++ o.t) o.g]
  | .mand o => encodePrefix o.p ++ [packR 0x40#7 o.d o.a o.b 0#3 o.g]
  | .mor o => encodePrefix o.p ++ [packR 0x40#7 o.d o.a o.b 1#3 o.g]
  | .mxor o => encodePrefix o.p ++ [packR 0x40#7 o.d o.a o.b 2#3 o.g]
  | .mandn o => encodePrefix o.p ++ [packR 0x40#7 o.d o.a o.b 3#3 o.g]
  | .mset o => encodePrefix o.p ++ [packR 0x40#7 o.d o.a 0#6 4#3 o.g]
  | .vshuf o => encodePrefix o.p ++ [packR 0x41#7 o.d o.a o.b 0#3 o.g]
  | .vzipl o => encodePrefix o.p ++ [packR 0x41#7 o.d o.a o.b 1#3 o.g]
  | .vziph o => encodePrefix o.p ++ [packR 0x41#7 o.d o.a o.b 2#3 o.g]
  | .vuzpe o => encodePrefix o.p ++ [packR 0x41#7 o.d o.a o.b 3#3 o.g]
  | .vuzpo o => encodePrefix o.p ++ [packR 0x41#7 o.d o.a o.b 4#3 o.g]
  | .vsplat o => encodePrefix o.p ++ [packR 0x42#7 o.d o.a 0#6 (0#1 ++ o.t) o.g]
  | .vget o => encodePrefix o.p ++ [packI 0x43#7 o.d o.a o.i o.g]
  | .vput o => encodePrefix o.p ++ [packI 0x44#7 o.d o.a o.i o.g]
  | .vcvtBf16F32 o => encodePrefix o.p ++ [packR 0x45#7 o.d o.a o.b 0#3 o.g]
  | .vcvtF32Bf16 o => encodePrefix o.p ++ [packR 0x45#7 o.d o.a o.b 1#3 o.g]
  | .vcvtF16F32 o => encodePrefix o.p ++ [packR 0x45#7 o.d o.a o.b 2#3 o.g]
  | .vcvtF32F16 o => encodePrefix o.p ++ [packR 0x45#7 o.d o.a o.b 3#3 o.g]
  | .vcvtI32F32 o => encodePrefix o.p ++ [packR 0x45#7 o.d o.a 0#6 4#3 o.g]
  | .vcvtF32I32 o => encodePrefix o.p ++ [packR 0x45#7 o.d o.a 0#6 5#3 o.g]
  | .vcvtF64F32 o => encodePrefix o.p ++ [packR 0x45#7 o.d o.a o.b 6#3 o.g]
  | .vcvtF32F64 o => encodePrefix o.p ++ [packR 0x45#7 o.d o.a o.b 7#3 o.g]
  | .vcvtE4m3F32 o => encodePrefix o.p ++ [packR 0x46#7 o.d o.a o.b 0#3 o.g]
  | .vcvtsE4m3F32 o => encodePrefix o.p ++ [packR 0x46#7 o.d o.a o.b 1#3 o.g]
  | .vcvtE5m2F32 o => encodePrefix o.p ++ [packR 0x46#7 o.d o.a o.b 2#3 o.g]
  | .vcvtE2m1F32 o => encodePrefix o.p ++ [packR 0x46#7 o.d o.a o.b 3#3 o.g]
  | .vcvtF32E4m3 o => encodePrefix o.p ++ [packR 0x46#7 o.d o.a o.b 4#3 o.g]
  | .vcvtF32E5m2 o => encodePrefix o.p ++ [packR 0x46#7 o.d o.a o.b 5#3 o.g]
  | .vcvtF32E2m1 o => encodePrefix o.p ++ [packR 0x46#7 o.d o.a o.b 6#3 o.g]
  | .vdec o => encodePrefix o.p ++ [packR 0x47#7 o.d o.a o.b (0#1 ++ o.t) o.g]
  | .vquant o => encodePrefix o.p ++ [packR 0x47#7 o.d o.a o.b (1#1 ++ o.t) o.g]
  | .vbsc o => encodePrefix o.p ++ [packR 0x48#7 o.d o.a o.b 0#3 o.g]
  | .vdotE2m1 o => encodePrefix o.p ++ [packR 0x49#7 o.d o.a o.b 0#3 o.g]
  | .vdotE4m3 o => encodePrefix o.p ++ [packR 0x49#7 o.d o.a o.b 1#3 o.g]
  | .vdotE5m2 o => encodePrefix o.p ++ [packR 0x49#7 o.d o.a o.b 2#3 o.g]
  | .vdotI8 o => encodePrefix o.p ++ [packR 0x49#7 o.d o.a o.b 3#3 o.g]
  | .vdotBf16 o => encodePrefix o.p ++ [packR 0x49#7 o.d o.a o.b 4#3 o.g]
  | .vdotF16 o => encodePrefix o.p ++ [packR 0x49#7 o.d o.a o.b 5#3 o.g]
  | .vdotb o => encodePrefix o.p ++ [packR 0x49#7 o.d o.a o.b 6#3 o.g]
  | .vhsumF32 o => encodePrefix o.p ++ [packR 0x4A#7 o.d o.a 0#6 0#3 o.g]
  | .vhminF32 o => encodePrefix o.p ++ [packR 0x4A#7 o.d o.a 0#6 1#3 o.g]
  | .vhmaxF32 o => encodePrefix o.p ++ [packR 0x4A#7 o.d o.a 0#6 2#3 o.g]
  | .vhamaxF32 o => encodePrefix o.p ++ [packR 0x4A#7 o.d o.a 0#6 3#3 o.g]
  | .vhsumI32 o => encodePrefix o.p ++ [packR 0x4A#7 o.d o.a 0#6 4#3 o.g]
  | .vhsumF16 o => encodePrefix o.p ++ [packR 0x4A#7 o.d o.a 0#6 5#3 o.g]
  | .vhsumBf16 o => encodePrefix o.p ++ [packR 0x4A#7 o.d o.a 0#6 6#3 o.g]
  | .vhsumF64 o => encodePrefix o.p ++ [packR 0x4A#7 o.d o.a 0#6 7#3 o.g]
  | .vtopkF32 o => encodePrefix o.p ++ [packR 0x4B#7 o.d o.a o.b 0#3 o.g]
  | .vtopkBf16 o => encodePrefix o.p ++ [packR 0x4B#7 o.d o.a o.b 1#3 o.g]
  | .vamaxF32 o => encodePrefix o.p ++ [packR 0x4B#7 o.d o.a o.b 2#3 o.g]
  | .vamaxBf16 o => encodePrefix o.p ++ [packR 0x4B#7 o.d o.a o.b 3#3 o.g]
  | .vamaxF16 o => encodePrefix o.p ++ [packR 0x4B#7 o.d o.a o.b 4#3 o.g]
  | .vcurve o => encodePrefix o.p ++ [packR 0x4C#7 o.d o.a 0#6 (0#1 ++ o.t) o.g]
  | .vabsF32 o => encodePrefix o.p ++ [packR 0x4D#7 o.d o.a 0#6 0#3 o.g]
  | .vnegF32 o => encodePrefix o.p ++ [packR 0x4D#7 o.d o.a 0#6 1#3 o.g]
  | .vabsI32 o => encodePrefix o.p ++ [packR 0x4D#7 o.d o.a 0#6 2#3 o.g]
  | .vnegI32 o => encodePrefix o.p ++ [packR 0x4D#7 o.d o.a 0#6 3#3 o.g]
  | .vabsF16 o => encodePrefix o.p ++ [packR 0x4D#7 o.d o.a 0#6 4#3 o.g]
  | .vnegF16 o => encodePrefix o.p ++ [packR 0x4D#7 o.d o.a 0#6 5#3 o.g]
  | .vabsF64 o => encodePrefix o.p ++ [packR 0x4D#7 o.d o.a 0#6 6#3 o.g]
  | .vnegF64 o => encodePrefix o.p ++ [packR 0x4D#7 o.d o.a 0#6 7#3 o.g]
  | .ldU8R o => encodePrefix o.p ++ [packR 0x58#7 o.d o.a o.b 0#3 o.g]
  | .ldI8R o => encodePrefix o.p ++ [packR 0x58#7 o.d o.a o.b 1#3 o.g]
  | .ldU16R o => encodePrefix o.p ++ [packR 0x58#7 o.d o.a o.b 2#3 o.g]
  | .ldI16R o => encodePrefix o.p ++ [packR 0x58#7 o.d o.a o.b 3#3 o.g]
  | .ldU32R o => encodePrefix o.p ++ [packR 0x58#7 o.d o.a o.b 4#3 o.g]
  | .ldI32R o => encodePrefix o.p ++ [packR 0x58#7 o.d o.a o.b 5#3 o.g]
  | .ldU64R o => encodePrefix o.p ++ [packR 0x58#7 o.d o.a o.b 6#3 o.g]
  | .vldR o => encodePrefix o.p ++ [packR 0x58#7 o.d o.a o.b 7#3 o.g]
  | .stU8R o => encodePrefix o.p ++ [packR 0x59#7 o.d o.a o.b 0#3 o.g]
  | .stU16R o => encodePrefix o.p ++ [packR 0x59#7 o.d o.a o.b 1#3 o.g]
  | .stU32R o => encodePrefix o.p ++ [packR 0x59#7 o.d o.a o.b 2#3 o.g]
  | .stU64R o => encodePrefix o.p ++ [packR 0x59#7 o.d o.a o.b 3#3 o.g]
  | .vstR o => encodePrefix o.p ++ [packR 0x59#7 o.d o.a o.b 4#3 o.g]
  | .ldU8I o => encodePrefix o.p ++ [packI 0x5A#7 o.d o.a o.i o.g]
  | .ldI8I o => encodePrefix o.p ++ [packI 0x5B#7 o.d o.a o.i o.g]
  | .ldU16I o => encodePrefix o.p ++ [packI 0x5C#7 o.d o.a o.i o.g]
  | .ldI16I o => encodePrefix o.p ++ [packI 0x5D#7 o.d o.a o.i o.g]
  | .ldU32I o => encodePrefix o.p ++ [packI 0x5E#7 o.d o.a o.i o.g]
  | .ldI32I o => encodePrefix o.p ++ [packI 0x5F#7 o.d o.a o.i o.g]
  | .ldU64I o => encodePrefix o.p ++ [packI 0x60#7 o.d o.a o.i o.g]
  | .vldI o => encodePrefix o.p ++ [packI 0x61#7 o.d o.a o.i o.g]
  | .stU8I o => encodePrefix o.p ++ [packI 0x62#7 o.d o.a o.i o.g]
  | .stU16I o => encodePrefix o.p ++ [packI 0x63#7 o.d o.a o.i o.g]
  | .stU32I o => encodePrefix o.p ++ [packI 0x64#7 o.d o.a o.i o.g]
  | .stU64I o => encodePrefix o.p ++ [packI 0x65#7 o.d o.a o.i o.g]
  | .vstI o => encodePrefix o.p ++ [packI 0x66#7 o.d o.a o.i o.g]
  | .rel o => encodePrefix o.p ++ [packR 0x67#7 o.d 0#6 0#6 0#3 o.g]
  | .acq o => encodePrefix o.p ++ [packR 0x67#7 0#6 o.a 0#6 1#3 o.g]
  | .acqall o => encodePrefix o.p ++ [packR 0x67#7 0#6 0#6 0#6 2#3 o.g]
  | .lmark o => encodePrefix o.p ++ [packR 0x67#7 o.d 0#6 0#6 3#3 o.g]
  | .ldrop o => encodePrefix o.p ++ [packR 0x67#7 0#6 o.a 0#6 4#3 o.g]
  | .fence o => encodePrefix o.p ++ [packR 0x67#7 0#6 0#6 0#6 5#3 o.g]
  | .drain o => encodePrefix o.p ++ [packR 0x67#7 0#6 0#6 0#6 6#3 o.g]
  | .pref o => encodePrefix o.p ++ [packR 0x67#7 0#6 o.a o.b 7#3 o.g]
  | .radd o => encodePrefix o.p ++ [packR 0x68#7 o.d o.a o.b o.t o.g]
  | .vradd o => encodePrefix o.p ++ [packR 0x69#7 o.d o.a o.b o.t o.g]
  | .ldpt o => encodePrefix o.p ++ [packR 0x6A#7 o.d o.a o.b (0#1 ++ o.n) o.g]
  | .ldpn o => encodePrefix o.p ++ [packR 0x6A#7 o.d o.a o.b (1#1 ++ o.n) o.g]
  | .pupd o => encodePrefix o.p ++ [packR 0x6B#7 o.d o.a o.b 0#3 o.g]
  | .padam o => encodePrefix o.p ++ [packR 0x6B#7 o.d o.a o.b 1#3 o.g]
  | .stq o => encodePrefix o.p ++ [packR 0x6B#7 o.d o.a o.b 2#3 o.g]
  | .scommit o => encodePrefix o.p ++ [packR 0x6B#7 0#6 o.a 0#6 3#3 o.g]
  | .scalc o => encodePrefix o.p ++ [packR 0x6B#7 o.d o.a 0#6 4#3 o.g]
  | .rpush o => encodePrefix o.p ++ [packR 0x6C#7 o.d o.a 0#6 0#3 o.g]
  | .rpop o => encodePrefix o.p ++ [packR 0x6C#7 0#6 o.a 0#6 1#3 o.g]
  | .sbind o => encodePrefix o.p ++ [packR 0x6C#7 o.d o.a 0#6 2#3 o.g]
  | .sfree o => encodePrefix o.p ++ [packR 0x6C#7 o.d 0#6 0#6 3#3 o.g]
  | .scld o => encodePrefix o.p ++ [packR 0x6D#7 o.d o.a 0#6 0#3 o.g]
  | .scst o => encodePrefix o.p ++ [packR 0x6D#7 0#6 o.a o.b 1#3 o.g]
  | .scadd o => encodePrefix o.p ++ [packR 0x6D#7 o.d o.a o.b 2#3 o.g]
  | .scswp o => encodePrefix o.p ++ [packR 0x6D#7 o.d o.a o.b 3#3 o.g]
  | .sccas o => encodePrefix o.p ++ [packR 0x6D#7 o.d o.a o.b 4#3 o.g]
  | .scmin o => encodePrefix o.p ++ [packR 0x6D#7 o.d o.a o.b 5#3 o.g]
  | .scmax o => encodePrefix o.p ++ [packR 0x6D#7 o.d o.a o.b 6#3 o.g]
  | .scminu o => encodePrefix o.p ++ [packR 0x6D#7 o.d o.a o.b 7#3 o.g]
  | .scmaxu o => encodePrefix o.p ++ [packR 0x6E#7 o.d o.a o.b 0#3 o.g]
  | .mmE2m1 o => encodePrefix o.p ++ [packR 0x70#7 (0#1 ++ o.d) o.a o.b 0#3 o.g]
  | .mmE4m3 o => encodePrefix o.p ++ [packR 0x70#7 (0#1 ++ o.d) o.a o.b 1#3 o.g]
  | .mmE5m2 o => encodePrefix o.p ++ [packR 0x70#7 (0#1 ++ o.d) o.a o.b 2#3 o.g]
  | .mmBf16 o => encodePrefix o.p ++ [packR 0x70#7 (0#1 ++ o.d) o.a o.b 3#3 o.g]
  | .mmF16 o => encodePrefix o.p ++ [packR 0x70#7 (0#1 ++ o.d) o.a o.b 4#3 o.g]
  | .mmd o => encodePrefix o.p ++ [packR 0x70#7 (0#1 ++ o.d) o.a o.b 5#3 o.g]
  | .mmb o => encodePrefix o.p ++ [packR 0x70#7 (0#1 ++ o.d) o.a o.b 6#3 o.g]
  | .mspE2m1 o => encodePrefix o.p ++ [packR 0x71#7 (0#1 ++ o.d) o.a o.b 0#3 o.g]
  | .mspE4m3 o => encodePrefix o.p ++ [packR 0x71#7 (0#1 ++ o.d) o.a o.b 1#3 o.g]
  | .mspE5m2 o => encodePrefix o.p ++ [packR 0x71#7 (0#1 ++ o.d) o.a o.b 2#3 o.g]
  | .mspBf16 o => encodePrefix o.p ++ [packR 0x71#7 (0#1 ++ o.d) o.a o.b 3#3 o.g]
  | .mspF16 o => encodePrefix o.p ++ [packR 0x71#7 (0#1 ++ o.d) o.a o.b 4#3 o.g]
  | .mspd o => encodePrefix o.p ++ [packR 0x71#7 (0#1 ++ o.d) o.a o.b 5#3 o.g]
  | .mspb o => encodePrefix o.p ++ [packR 0x71#7 (0#1 ++ o.d) o.a o.b 6#3 o.g]
  | .mmgE2m1 o => encodePrefix o.p ++ [packR 0x72#7 (0#1 ++ o.d) o.a o.b 0#3 o.g]
  | .mmgE4m3 o => encodePrefix o.p ++ [packR 0x72#7 (0#1 ++ o.d) o.a o.b 1#3 o.g]
  | .mmgE5m2 o => encodePrefix o.p ++ [packR 0x72#7 (0#1 ++ o.d) o.a o.b 2#3 o.g]
  | .mmgBf16 o => encodePrefix o.p ++ [packR 0x72#7 (0#1 ++ o.d) o.a o.b 3#3 o.g]
  | .mmgF16 o => encodePrefix o.p ++ [packR 0x72#7 (0#1 ++ o.d) o.a o.b 4#3 o.g]
  | .mmgd o => encodePrefix o.p ++ [packR 0x72#7 (0#1 ++ o.d) o.a o.b 5#3 o.g]
  | .mmgb o => encodePrefix o.p ++ [packR 0x72#7 (0#1 ++ o.d) o.a o.b 6#3 o.g]
  | .mzero o => encodePrefix o.p ++ [packR 0x73#7 (0#1 ++ o.d) 0#6 0#6 0#3 o.g]
  | .mtld o => encodePrefix o.p ++ [packR 0x73#7 (0#1 ++ o.d) o.a o.b 1#3 o.g]
  | .mtst o => encodePrefix o.p ++ [packR 0x73#7 (0#1 ++ o.d) o.a o.b 2#3 o.g]
  | .mepi o => encodePrefix o.p ++ [packR 0x73#7 (0#1 ++ o.d) o.a 0#6 3#3 o.g]
  | .copy o => encodePrefix o.p ++ [packR 0x74#7 o.d o.a o.b 0#3 o.g]
  | .copy2 o => encodePrefix o.p ++ [packR 0x74#7 o.d o.a o.b 1#3 o.g]
  | .copyr o => encodePrefix o.p ++ [packR 0x74#7 o.d o.a o.b 2#3 o.g]
  | .ccan o => encodePrefix o.p ++ [packR 0x74#7 0#6 o.a 0#6 3#3 o.g]
  | .send o => encodePrefix o.p ++ [packI 0x75#7 o.d o.a o.i o.g]
  | .recv o => encodePrefix o.p ++ [packI 0x76#7 o.d o.a o.i o.g]
  | .eos o => encodePrefix o.p ++ [packI 0x77#7 0#6 0#6 o.i o.g]
  | .bcast o => encodePrefix o.p ++ [packI 0x78#7 o.d o.a o.i o.g]
  | .route o => encodePrefix o.p ++ [packR 0x79#7 0#6 o.a 0#6 0#3 o.g]
  | .rclose o => encodePrefix o.p ++ [packR 0x79#7 0#6 o.a 0#6 1#3 o.g]
  | .launch o => encodePrefix o.p ++ [packR 0x7A#7 0#6 o.a o.b 0#3 o.g]
  | .spawn o => encodePrefix o.p ++ [packR 0x7A#7 0#6 o.a o.b 1#3 o.g]
  | .spawnc o => encodePrefix o.p ++ [packR 0x7A#7 0#6 o.a o.b 2#3 o.g]
  | .cset o => encodePrefix o.p ++ [packR 0x7B#7 0#6 o.a o.b 0#3 o.g]
  | .cadd o => encodePrefix o.p ++ [packR 0x7B#7 0#6 o.a o.b 1#3 o.g]
  | .crd o => encodePrefix o.p ++ [packR 0x7B#7 o.d o.a 0#6 2#3 o.g]
  | .carm o => encodePrefix o.p ++ [packR 0x7B#7 0#6 o.a o.b 3#3 o.g]
  | .cdisarm o => encodePrefix o.p ++ [packR 0x7B#7 0#6 o.a o.b 4#3 o.g]
  | .cstage o => encodePrefix o.p ++ [packR 0x7B#7 0#6 o.a o.b 5#3 o.g]
  | .waitc o => encodePrefix o.p ++ [packR 0x7B#7 0#6 o.a o.b 6#3 o.g]
  | .waitct o => encodePrefix o.p ++ [packR 0x7B#7 o.d o.a o.b 7#3 o.g]
  | .mpost o => encodePrefix o.p ++ [packR 0x7C#7 o.d o.a o.b 0#3 o.g]
  | .mtake o => encodePrefix o.p ++ [packR 0x7C#7 o.d o.a o.b 1#3 o.g]
  | .xPrefix i => [packX 1#1 i]
  | .powerOn => []
  | .hostLinkTrain _ _ _ _ => []
  | .hostLinkDown => []
  | .gomondPortTrain _ _ => []
  | .gomondPortDown _ => []
  | .channelRouteLoss _ _ => []
  | .thermalThrottle _ _ => []
  | .thermalShutdown _ => []
  | .temperatureSample _ _ => []
  | .timeRateAdjust _ => []
  | .registerWrite _ _ => []
  | .translationRootWrite _ _ => []
  | .ringDescriptorWrite _ _ _ => []
  | .logDescriptorWrite _ _ => []
  | .logDescriptorEffect _ => []
  | .logSpillDescriptorWrite _ _ => []
  | .arrivalSpillDescriptorWrite _ _ => []
  | .mhbWrite _ _ _ => []
  | .chronographRequest _ _ => []
  | .hostLaunchPost _ _ => []
  | .regionCreate => []
  | .regionChange => []
  | .regionDestroy => []
  | .regionPreempt => []
  | .regionResume => []
  | .regionLaunch => []
  | .attestationQuote => []
  | .handOver => []
  | .hostEventQueueSetup => []
  | .stageImagePart => []
  | .probationCommit _ => []
  | .heartbeatFallback _ => []
  | .bodyRestart _ => []
  | .clusterTlbLookup _ _ => []
  | .walkComplete _ _ => []
  | .invalidationComplete _ => []
  | .fetchPortServe _ => []
  | .fetchLineDeliver _ => []
  | .icacheFillComplete _ => []
  | .pendingResultArrive _ => []
  | .realignRelease _ _ => []
  | .workerTrapStop _ _ => []
  | .trapHandlerEntry _ => []
  | .userInterruptEntry _ _ => []
  | .matrixFaultStop _ => []
  | .freezeEnd _ => []
  | .hostLineWriteback _ => []
  | .hostSnoop _ => []
  | .hostCxlMemAccess _ _ _ => []
  | .shipperSend _ => []
  | .homeRecordArrive _ => []
  | .batchApply _ _ _ => []
  | .forcedCompaction _ => []
  | .recordArrival _ => []
  | .spillRefill _ => []
  | .dispatch _ => []
  | .loadComplete _ _ => []
  | .dispenserPlace _ => []
  | .extensionMigrate _ _ => []
  | .frameRestoreDispatch _ => []
  | .frameMoveRetry _ _ => []
  | .deadlockDetect _ => []
  | .preemptArrive _ => []
  | .preemptSave _ => []
  | .resumeRestore _ => []
  | .regionFaultKill => []
  | .placementApply _ _ => []
  | .counterCycleUpdate _ _ => []
  | .triggerActionResume _ => []
  | .waitcTimeout _ _ => []
  | .packetAcknowledge _ => []
  | .copyPacketLand _ _ _ => []
  | .copyEnd _ _ => []
  | .copyCancelArrive _ _ _ => []
  | .copyTimeout _ _ => []
  | .sendEngineInject _ => []
  | .channelElementLand _ => []
  | .creditReturn _ => []
  | .recvCopyComplete _ => []
  | .treeNodeCombine _ _ _ => []
  | .broadcastLand _ => []
  | .mailboxArrive _ => []
  | .completionRecordPost _ => []
  | .scaleOpPerform _ => []
  | .syncCellPerform _ => []
  | .tableLoadEffect _ _ => []
  | .patternReadahead _ _ _ => []
  | .routeJobStart _ => []
  | .permitRequestArrive _ => []
  | .roundCloseArrive _ => []
  | .permitAnswer _ => []
  | .binRowLand _ => []
  | .routeJobEnd _ => []
  | .rcloseRun _ => []
  | .closingCountArrive _ => []
  | .matrixStepStart _ => []
  | .matrixStepRetire _ => []
  | .mmgGroupTake _ _ => []
  | .mmgComplete _ _ => []
  | .epilogueStart _ => []
  | .epilogueRowEmit _ => []
  | .epilogueComplete _ => []
  | .mtldComplete _ => []
  | .comparePoint _ _ => []
  | .tieBreakResult _ _ => []
  | .binMove _ => []
  | .selfTestResult _ _ _ => []
  | .binRecovery _ => []
  | .directStorePerform _ => []

/-- The words of one instruction, an X prefix first if there is one, back to the instruction (R291); no prefix follows a prefix
(R282). -/
noncomputable def decodeWords : List SlotWord → Except Reject Instr
  | [w] => decodeSlot none w
  | [x, w] => if fMajor x = 0x7F#7 ∧ fMajor w ≠ 0x7F#7 then decodeSlot (some (fI24 x)) w else .error .reservedPoint
  | _ => .error .reservedPoint

/-- The instruction that the decoder reads from an instruction whose bits are `w`, bit 0 the least significant bit of its one
slot word (R286). -/
noncomputable def decodeTableWord (nbits w : Nat) : Option Instr :=
  match decodeWords [BitVec.ofNat 32 (w % 2 ^ nbits)] with
  | .ok i => some i
  | .error _ => none

end Sys2Proof
end

