-- ==== Sys2Proof/Machine/Framing.lean ====
section
/-! DEFINITION. The checks of a bundle as a whole, made on its raw words before any slot is looked at more closely (R279 to R284):
majors, minors and fields only. -/

namespace Sys2Proof.Machine

/-- What the `d` field of a code point writes, for the double-write check (R283). -/
inductive Writes where
  /-- a reserved code point, or one held for an extension, FP64 among them: it writes nothing and is no control slot (R282) -/
  | reserved
  | none
  /-- the x register of field d, unless `N` is set or it is x0 -/
  | x
  /-- the v register of field d, unless `N` is set -/
  | v
  /-- a predicate and the one above it -/
  | pair
  | pred
  | mask
  /-- the control register that a `crw` names -/
  | cr
  /-- the status predicate p1 (R415) -/
  | status
  /-- an x register and the status predicate -/
  | xStatus
deriving DecidableEq, Repr

/-- The entry of a minor; a major without minors has one entry. -/
def pickWrites (l : List Writes) (f : Nat) : Writes :=
  match l with
  | [a] => a
  | l => l.getD f .reserved

/-- What the code points of a major write, minor by minor (R282, R283, R294 to R297). The FP64 code points of R344 are held for an
extension: for these checks they write nothing on any core, which look at majors, minors and fields alone (R282). A `crd` and an
`mtake` are E slots that no engine answers later, so they write nothing here either (R71, R283). -/
def writesOf (major : Nat) : List Writes :=
  match major with
  | 0x00 => [.x, .x, .x, .x, .x, .x]
  | 0x01 | 0x04 => [.x, .x, .x]
  | 0x02 | 0x03 | 0x07 => [.x, .x, .x, .x, .x, .x, .x]
  | 0x05 => [.pair, .pair, .pair, .pair, .pair, .pair]
  | 0x06 => [.pred, .pred, .pred, .pred]
  | 0x08 => [.pair, .pair, .pair, .pair]
  | 0x09 => [.x, .x, .x, .x]
  | 0x0A => [.x, .x, .x, .x, .x, .x, .x, .x]
  | 0x0B | 0x0C | 0x0D | 0x0E | 0x0F | 0x10 | 0x11 | 0x15 | 0x16 | 0x1B | 0x43 | 0x5A | 0x5B | 0x5C | 0x5D | 0x5E | 0x5F | 0x60 | 0x76 => [.x]
  | 0x12 | 0x13 | 0x14 => [.pair]
  | 0x17 | 0x18 | 0x19 | 0x1E | 0x1F | 0x20 | 0x62 | 0x63 | 0x64 | 0x65 | 0x66 | 0x75 | 0x77 | 0x78 => [.none]
  | 0x1A | 0x79 => [.none, .none]
  | 0x1C => [.cr]
  | 0x1D => [.none, .none, .none]
  | 0x21 => [.none, .none, .none, .none, .status, .none, .none]
  | 0x22 | 0x68 | 0x69 => [.none, .none, .none, .none, .none, .none, .none, .none]
  | 0x23 => [.none, .none, .x, .x]
  | 0x2D | 0x59 => [.none, .none, .none, .none, .none]
  | 0x30 | 0x31 | 0x32 | 0x33 | 0x35 | 0x36 | 0x4A => [.v, .v, .v, .v, .v, .v, .v, .reserved]
  | 0x34 => [.v, .v, .v, .reserved, .v, .v, .v, .reserved]
  | 0x37 | 0x38 | 0x39 | 0x3B | 0x47 | 0x6A => [.v, .v, .v, .v, .v, .v, .v, .v]
  | 0x45 | 0x4D => [.v, .v, .v, .v, .v, .v, .reserved, .reserved]
  | 0x3A | 0x41 | 0x4B => [.v, .v, .v, .v, .v]
  | 0x3C | 0x42 | 0x4C => [.v, .v, .v, .v]
  | 0x3D | 0x3E | 0x3F => [.mask, .mask, .mask, .mask, .mask, .mask, .mask, .reserved]
  | 0x40 => [.mask, .mask, .mask, .mask, .mask]
  | 0x44 | 0x61 => [.v]
  | 0x46 | 0x49 => [.v, .v, .v, .v, .v, .v, .v]
  | 0x48 => [.v, .reserved]
  | 0x58 => [.x, .x, .x, .x, .x, .x, .x, .v]
  | 0x67 => [.x, .none, .none, .x, .none, .none, .none, .none]
  | 0x6B => [.none, .none, .none, .none, .xStatus]
  | 0x6C | 0x73 | 0x74 => [.none, .none, .none, .none]
  | 0x6D => [.x, .none, .x, .x, .x, .x, .x, .x]
  | 0x6E => [.x, .reserved]
  | 0x70 | 0x71 | 0x72 => [.none, .none, .none, .none, .none, .none, .none]
  | 0x7A => [.status, .status, .status]
  | 0x7B => [.none, .none, .none, .status, .none, .none, .status, .status]
  | 0x7C => [.none, .none]
  | _ => [.reserved]

/-- What a slot word writes. -/
def wordWrites (w : SlotWord) : Writes := pickWrites (writesOf (fMajor w).toNat) (fMinor w).toNat

/-- Is a slot word a control slot (R284)? -/
def isControl (w : SlotWord) : Bool :=
  let f := (fMinor w).toNat
  match (fMajor w).toNat with
  | 0x18 => true
  | 0x19 => true
  | 0x1A => decide (f = 0) || decide (f = 1)
  | 0x1D => decide (f = 0) || decide (f = 1) || decide (f = 2)
  | 0x21 => decide (f = 0) || decide (f = 1)
  | 0x75 => true
  | 0x76 => true
  | 0x77 => true
  | 0x7B => decide (f = 6) || decide (f = 7)
  | 0x7C => decide (f = 1)
  | _ => false

/-! ### Framing (R279, R280) -/

/-- Scans the words from the PC to the end of the line, n of which have been scanned: the bundle's words, or the reason and slot
of the illegal bundle. -/
def frameFrom : Nat → List SlotWord → Except (Nat × Nat) (List SlotWord)
  | n, [] => .error (4, n - 1)
  | n, w :: ws =>
    if fE w then .ok [w]
    else if n = 7 then .error (3, 7)
    else match frameFrom (n + 1) ws with
      | .ok l => .ok (w :: l)
      | .error e => .error e

/-! ### Checks after framing (R281 to R284) -/

/-- Is a word an X slot? -/
def isX (w : SlotWord) : Bool := fMajor w == 0x7F#7

/-- Class of a major other than X: 0 S, 1 V, 2 M, 3 E (R281). -/
def classOf (w : SlotWord) : Nat :=
  let m := (fMajor w).toNat
  if m < 0x30 then 0 else if m < 0x58 then 1 else if m < 0x70 then 2 else 3

/-- Most slots of a class in a bundle. -/
def classLimit (k : Nat) : Nat := match k with | 0 => 2 | 1 => 3 | 2 => 2 | _ => 1

/-- Class of the first word of a list: an X slot takes the class of the slot that follows it. -/
def headClass : List SlotWord → Option Nat
  | [] => none
  | w :: ws => if isX w then headClass ws else some (classOf w)

/-- The things that a slot writes, as (kind, number) (R283); `p` is its prefix, which extends the number of a `crw`. -/
def writeSet (p : Option (BitVec 24)) (w : SlotWord) : List (Nat × Nat) :=
  let d := fD w
  let reg (file : Nat) : List (Nat × Nat) :=
    if bit d 5 ∨ (file = 0 ∧ bitsN d 0 5 = 0) then [] else [(file, bitsN d 0 5)]
  let preds (l : List Nat) : List (Nat × Nat) := if d.toNat < 8 then (l.filter (· ≠ 0)).map (fun n => (2, n)) else []
  match wordWrites w with
  | .reserved => []
  | .none => []
  | .x => reg 0
  | .v => reg 1
  | .pair => preds [d.toNat, d.toNat + 1]
  | .pred => preds [d.toNat]
  | .mask => if d.toNat < 8 ∧ d.toNat ≠ 0 then [(3, d.toNat)] else []
  | .cr => [(4, match p with | none => (fI9 w).toNat | some x => x.toNat * 512 + (fI9 w).toNat)]
  | .status => [(2, 1)]
  | .xStatus => reg 0 ++ [(2, 1)]

/-- What the checks know of the earlier slots. -/
structure FrameSeen where
  writes : List (Nat × Nat) := []
  cls : Nat := 0
  count : List Nat := []
  control : Bool := false
  pre : Option (BitVec 24) := none

/-- The first slot at which a reason holds, with the lowest reason there (R282); i is the emitted index of the first word. -/
def frameCheck (y : FrameSeen) : Nat → List SlotWord → Option (Nat × Nat)
  | _, [] => none
  | i, w :: ws =>
    let cls := headClass (w :: ws)
    let order := match cls with | some c => decide (c < y.cls) | none => false
    if isX w then
      if order then some (2, i)
      else if (match ws with | [] => true | v :: _ => isX v) then some (6, i)
      else frameCheck { y with cls := cls.getD y.cls, pre := some (fI24 w) } (i + 1) ws
    else
      let set := writeSet y.pre w
      let c := classOf w
      if set.any (fun a => y.writes.contains a) then some (1, i)
      else if order then some (2, i)
      else if classLimit c ≤ (y.count.filter (· == c)).length then some (3, i)
      else if isControl w && y.control then some (5, i)
      else frameCheck
        { writes := set ++ y.writes, cls := c, count := c :: y.count, control := y.control || isControl w, pre := none } (i + 1) ws

/-- The words of the bundle that starts a list of words, or the reason and slot of the illegal bundle (R280, R282). -/
def frameBundle (ws : List SlotWord) : Except (Nat × Nat) (List SlotWord) :=
  match frameFrom 0 ws with
  | .error e => .error e
  | .ok l => match frameCheck {} 0 l with
    | some e => .error e
    | none => .ok l

/-- `tval` of illegal-bundle (R282). -/
def bundleVal (r : Nat × Nat) : Word := BitVec.ofNat 64 (16 * r.1 + r.2)

/-- The slots of a framed bundle: emitted index, prefix and word of each slot that is no prefix itself. -/
def bundleSlots : Nat → Option (BitVec 24) → List SlotWord → List (Nat × Option (BitVec 24) × SlotWord)
  | _, _, [] => []
  | i, p, w :: ws => if isX w then bundleSlots (i + 1) (some (fI24 w)) ws else (i, p, w) :: bundleSlots (i + 1) none ws

end Sys2Proof.Machine
end

