-- ==== Sys2Proof/Machine/Sched.lean ====
section
/-! DEFINITION. Arrival queues, suspension and parking (R79, R187 to R204, R416 to R419), extension migration's choice (R200)
and the end of a core's cycle. -/

namespace Sys2Proof.Machine

/-- The eight words of a record (R78). -/
def Rec.words (r : Rec) : List Word := r.word0 :: r.word1 :: r.xs.toList

/-- Where record n of a core's spill ring lies (R193; log 11: its place is its number modulo the ring's size). -/
def spillSlot (c : Nat) (d : Word) (n : Nat) : Nat := sliceAddr c (bitsN d 12 9 * 4096 + 64 * (n % spillRecords d))

/-- Has a spill ring of n records, under its descriptor, room for one more (R194)? -/
def ringRoom (d : Word) (n : Nat) : Bool := bit d 63 && decide (n < spillRecords d)

/-- A record enters core c's spill ring at its tail, with `S` set (R193, R194). -/
def State.spill (s : State) (c : Nat) (q : Cont) : State :=
  let k := s.core c
  let q := { q with rcd := { q.rcd with s := true } }
  (s.setCore c { k with spilled := k.spilled ++ [q], spillTail := k.spillTail + 1 }).wrWords (spillSlot c k.aspill k.spillTail) q.rcd.words

/-- Tag of the tenant of a record. -/
def State.recTag (s : State) (q : Cont) : BitVec 7 := s.tagOf q.rcd.region.toNat

/-- Puts a record into the arrival queue or the spill ring, or, for a tenant that is not resident, into its saved spill ring; none
while there is no room (R191, R193, R194, R197). -/
def State.arrive (s : State) (c : Nat) (q : Cont) : Option State :=
  let k := s.core c
  let q := { q with entry := k.cycle, loading := none, toCluster := false, rcd := { q.rcd with s := false } }
  if s.recTag q ≠ k.tag then
    (if s.tenants.any (fun t => t.core == c && t.tag == s.recTag q && ringRoom t.aspill t.spilled.length) then
      some { s with tenants := s.tenants.map (fun t =>
        if t.core = c ∧ t.tag = s.recTag q
        then { t with spilled := t.spilled ++ [{ q with rcd := { q.rcd with s := true } }], spillTail := t.spillTail + 1, late := t.late + 1 }
        else t) }
    else none)
  else if k.spilled.isEmpty ∧ k.aq.length < 48 then some (s.setCore c { k with aq := k.aq ++ [q] })
  else if ringRoom k.aspill k.spilled.length then
    some (((s.spill c q).modCore c (fun k => k.perfAdd 0x14 none)).notifyEvent c cArrivalSpill 0 0
      (fun o => match o with | some v => v + 1 | none => 1))
  else none

/-- Room for a record of the resident tenant at core c's arrival path (R194). -/
def State.canArrive (s : State) (c : Nat) : Bool :=
  let k := s.core c
  (k.spilled.isEmpty && decide (k.aq.length < 48)) || ringRoom k.aspill k.spilled.length

/-- Would core c's arrival path take a record now (R194, R197)? -/
def State.takesRecord (s : State) (c : Nat) (q : Cont) : Bool :=
  if s.recTag q = (s.core c).tag then s.canArrive c
  else s.tenants.any (fun t => t.core == c && t.tag == s.recTag q && ringRoom t.aspill t.spilled.length)

/-- A context gives up its continuation: idle, or off when a reap is pending (R187, R419). -/
def State.freeCtx (s : State) (c t : Nat) : State :=
  s.modCtx c t (fun k => { k.dropLatches with
    mode := if k.reap then .off else .idle, reap := false, fbuf := .empty, freq := none, tlb := .none, acq := none
    ownLine := none, wake := .none, realign := none, realigned := false, stop := none, loaded := [], inv := none
    dues := [], pendX := 0, pendY := 0, pendV := 0, susp := none, bind := Vector.replicate 8 0, pat := [], patAt := [], ahead := []
    status := k.status &&& 0x3#64, tiles := 0, onExt := false })

/-- Pairing ends: the secondary's context becomes idle and `PAIR` clears in the primary (R428, R439). -/
def State.endPairing (s : State) (c t : Nat) : State :=
  match (s.ctx c t).pair with
  | none => s
  | some p =>
    let (pc, pt, sc, st) := if p.primary then (c, t, p.twinCore, p.twinCtx) else (p.twinCore, p.twinCtx, c, t)
    let s := (s.modCtx sc st (fun k => { k with pair := none })).freeCtx sc st
    s.modCtx pc pt (fun k => { k with pair := none, status := k.status &&& ~~~(1#64 <<< 30) })

/-- The carried pair of a context after its release: its core and the log's tail (R178). -/
def State.pointOf (s : State) (c : Nat) : Option Point := some { core := c, point := (s.core c).log.tail }

/-- `yield`: the record goes to this core's own arrival queue (R419). -/
def State.doYield (s : State) (c t : Nat) : State :=
  let s := (s.endPairing c t).release c t
  let rcd := s.recOf c t (s.ctx c t).pc
  let q : Cont := { rcd := rcd, pair := s.pointOf c }
  let s := s.freeCtx c t
  match s.arrive c q with
  | some s' => s'
  | none => s.fly c (dstCore c) (.cont q)

/-- `migr`: the record goes to the home core of the address (R199, R419). -/
def State.doMigr (s : State) (c t n : Nat) : State :=
  let s := (s.endPairing c t).release c t
  let r := s.recOf c t (s.ctx c t).pc
  let rcd := { r with m := true, ext := false, hop := if r.hop = 255 then 255 else r.hop + 1 }
  let q : Cont := { rcd := rcd, pair := s.pointOf c }
  let s := s.freeCtx c t
  if n = c then (match s.arrive c q with | some s' => s' | none => s.fly c (dstCore c) (.cont q))
  else s.fly c (dstCore n) (.cont q)

/-- May a suspension take effect: every access of the thread has performed, x1 to x6 have their values, and the record finds room
(R64, R177, R194, R419)? -/
def State.mayLeave (s : State) (c t : Nat) (x : Susp) : Bool :=
  s.fenced c t && decide (field (s.ctx c t).pendX 1 6 = (0#6))
  && (match x with | .yield => s.canArrive c | .migr n => decide (n ≠ c) || s.canArrive c)

/-- A suspension takes effect at once, or waits at the thread's next bundle for its fence (R178, R419). -/
def State.suspendOn (s : State) (c t : Nat) (x : Susp) : State :=
  if s.mayLeave c t x then (match x with | .yield => s.doYield c t | .migr n => s.doMigr c t n)
  else s.modCtx c t (fun k => { k.dropLatches with susp := some x })

/-- `waitw`: a release, and the continuation ends (R189, R419). -/
def State.doWaitw (s : State) (c t : Nat) : State :=
  let s := (s.endPairing c t).release c t
  (s.contEnd (s.ctx c t).region.toNat).freeCtx c t

/-- The parked form of the continuation of a context: its record executes the parking bundle again (R203). -/
def State.parked (s : State) (c t : Nat) (pc : BitVec 60) : Cont := { rcd := s.recOf c t pc }

/-- Parks in the core's wait list (R203); a region counts what reaches its placement point (R242). -/
def State.parkWait (s : State) (c t : Nat) (pc : BitVec 60) (w : WaitFor) : State :=
  let s := (s.endPairing c t).release c t
  let q := s.parked c t pc
  let s := match w with
    | .place => s.modRegion (s.ctx c t).region.toNat (fun g => { g with placed := g.placed + 1 })
    | _ => s
  (s.modCore c (fun k => { k with waits := k.waits ++ [{ cont := q, ctx := t, cond := w }] })).freeCtx c t

/-- Parks in the receive endpoint's waiter slot (R214). -/
def State.parkRecv (s : State) (c t : Nat) (pc : BitVec 60) (key : Nat) (a : Word) : State :=
  let s := (s.endPairing c t).release c t
  let q := s.parked c t pc
  (s.modChan key (fun ch => { ch with rwaiter := some { cont := q, core := c, a := a } })).freeCtx c t

/-- Parks in a send endpoint's waiter slot (R214). -/
def State.parkSend (s : State) (c t : Nat) (pc : BitVec 60) (key ep : Nat) (a d : Word) : State :=
  let s := (s.endPairing c t).release c t
  let q := s.parked c t pc
  (s.modChan key (fun ch => ch.modEp ep (fun p => { p with waiter := some { cont := q, core := c, a := a, d := d } }))).freeCtx c t

/-- Load of a core: worker contexts loading, running or stopped, and queued and spilled records; one that loads is not queued (R188,
R198). -/
def State.loadOf (s : State) (c : Nat) : Nat :=
  ((List.range 16).filter (fun t =>
    decide (t ≠ 0) && ((s.ctx c t).mode == .loading || (s.ctx c t).mode == .running || (s.ctx c t).mode == .stopped))).length
  + ((s.core c).aq.filter (fun q => q.loading.isNone)).length + (s.core c).spilled.length

/-- The element of a list with the smallest measure; the first among equals. -/
def minBy (f : Nat → Nat) : List Nat → Option Nat
  | [] => none
  | a :: l => match minBy f l with
    | none => some a
    | some b => if f a ≤ f b then some a else some b

/-- The core to which a bundle of extension FP64 migrates: in the same cluster with the lowest load, else on the same die at
the fewest hops (R200); none where only another die has one (DEDUCED, log 112). -/
def State.extTarget (s : State) (c r : Nat) : Option Nat :=
  if 4096 ≤ c then none else
  let ok (x : Nat) : Bool := hasFp64 x && s.acceptsRegion x r
  match minBy s.loadOf (((List.range 8).map (· + c / 8 * 8)).filter ok) with
  | some x => some x
  | none => minBy (fun x => meshHops (clusterOf x) (clusterOf c)) (((List.range 64).map (fun j => dieOf c * 512 + 8 * j + 7)).filter ok)

/-- One cycle of the matrix unit: the step in the array has one cycle less to go, unless the core is frozen (R130, R277, R371). -/
def Core.arrayCycle (k : Core) : Core :=
  match k.run with
  | none => k
  | some r => if k.freeze ≠ 0 then k else { k with run := some { r with left := r.left - 1 } }.perfAdd 0x10 none

/-- The end of one cycle of core c: its counters, and time (R87, R277). -/
def State.endCycle (s : State) (c : Nat) : State :=
  let s := s.modCore c (fun k => ({ k.arrayCycle with cycle := k.cycle + 1 }.perfAdd 0x00 none))
  { s with steps := s.steps + 1, time := s.time + Config.nsPerStep s.steps }

end Sys2Proof.Machine
end

