-- ==== Sys2Proof/Machine/Issue.lean ====
section
/-! DEFINITION. The issue of a bundle: which slots forfeit, which trap is reported, and what a bundle that completes leaves
(R10, R64 to R73, R76, R90 to R94, R179, R180, R285, R292, R434, R435). -/

namespace Sys2Proof.Machine

/-- A slot of a bundle: its emitted index, its word, its description. -/
structure Item where
  idx : Nat
  word : SlotWord
  d : SlotDef

/-- `tval` of illegal-opcode: the word, and its source in [35:32] (R102). -/
def illegalVal (w : SlotWord) (src : Nat) : Word := BitVec.ofNat 64 (src * 2 ^ 32 + w.toNat)

/-! ### Forfeits that need no evaluation (R64, R66, R67, R76) -/

/-- Does the guard of a slot hold (R289)? -/
def SlotDef.live (d : SlotDef) (k : Ctx) : Bool := k.rp d.g

/-- Is the result of the register that x register number r names awaited (R64, R74)? -/
def Ctx.xPending (k : Ctx) (r : Nat) : Bool := if k.shadowed r then bit k.pendY (r - 1) else bit k.pendX r
/-- Is the result of a v register awaited? -/
def Ctx.vPending (k : Ctx) (r : Nat) : Bool := bit k.pendV r
/-- Is the result that a valid latch will hold awaited (R64, R71)? -/
def Ctx.latchPending (k : Ctx) (code : BitVec 6) : Bool :=
  decide (32 ≤ code.toNat) && decide (code.toNat < 36) && bit k.qv (code.toNat - 32) && bit k.pendQ (code.toNat - 32)

/-- The registers of a file that codes name. -/
def regsOf (l : List (BitVec 6)) : List Nat := (l.filter (fun c => decide (c.toNat < 32))).map (·.toNat)

/-- Some register or latch of the slot is pending (R64): a slot counts whether or not its guard holds. A call writes x31. -/
def SlotDef.waits (d : SlotDef) (k : Ctx) : Bool :=
  (regsOf d.xs ++ d.xo ++ d.xd.toList.map dReg ++ d.xe.toList.map dReg ++ (if d.link then [31] else [])).any k.xPending
  || (regsOf d.vs ++ d.vo ++ d.vm ++ d.vd.toList.map dReg).any k.vPending
  || (d.xs ++ d.vs).any k.latchPending

/-- v registers that the slot reads as streams (R66, R323). -/
def SlotDef.streamReads (d : SlotDef) (k : Ctx) : List Nat := (regsOf d.vs ++ d.vo).filter k.readBound

/-- The v register that the slot pushes, if any: its guard holds and `N` is 0 (R66). -/
def SlotDef.pushes (d : SlotDef) (k : Ctx) : Option Nat :=
  match d.vd with
  | some v => if !dN v ∧ d.live k ∧ k.writeBound (dReg v) then some (dReg v) else none
  | none => none

/-- An empty source or a full destination (R67). -/
def SlotDef.streamWait (d : SlotDef) (e : Env) : Bool :=
  ((d.streamReads e.k).any (fun r => match e.head r with | .empty => true | _ => false))
  || (match d.pushes e.k with | some r => e.full r | none => false)

/-- Physical tile of a window tile (R75). -/
def physTile (tiles : Word) (n : Nat) : Nat := bitsN tiles 0 5 + n
/-- Window count. -/
def winCount (tiles : Word) : Nat := bitsN tiles 8 6
/-- Physical tiles of a window (R75). -/
def windowTiles (tiles : Word) : List Nat := (List.range (winCount tiles)).map (· + bitsN tiles 0 5)

/-- Core tc receives the tiles of a window as core c holds them; `shadow` holds those that differ at the checkpoint (R427, R436). -/
def State.copyTiles (s : State) (c tc : Nat) (tiles : Word) (shadow : Tab (List (BitVec 32))) : State :=
  s.modCore tc (fun k => (windowTiles tiles).foldl (fun k n => k.setTile n (shadow.getD n ((s.core c).tile n))) k)

/-- A tile operand is busy (R76): a slot that names it counts whether or not its guard holds. -/
def SlotDef.tileBusy (d : SlotDef) (e : Env) : Bool :=
  d.tiles.any (fun n => decide (n < winCount e.k.tiles) && bit (e.s.core e.c).busy (physTile e.k.tiles n))

/-! ### Evaluation of one slot (R94) -/

/-- What one slot comes to. -/
inductive SlotEnd where
  | done (w : Work)
  | trap (code : BitVec 8) (tval : Word)
  /-- the slot needs FP64 and the core does not list it; with a false guard it raises nothing itself (R94) -/
  | ext (w : Option Work)
  | stop (q : Stop)

/-- The first operand that reads an invalid latch (R73). -/
def SlotDef.lost (d : SlotDef) (k : Ctx) : Option Nat :=
  ((d.xs ++ d.vs).find? (fun c => decide (32 ≤ c.toNat) && decide (c.toNat < 36) && !bit k.qv (c.toNat - 32))).map (fun c => c.toNat - 32)

/-- The illegal-opcode conditions of a slot, with their `tval` (R46, R287, R291, R292). -/
def SlotDef.illegal (d : SlotDef) (e : Env) : Option Word :=
  match d.badMod with
  | some m => some (illegalVal (packX 0 m) 0)
  | none =>
    if d.bad then some (illegalVal e.word 0)
    else if (d.xs ++ d.vs).any (fun c => decide (36 ≤ c.toNat)) then some (illegalVal e.word 3)
    else match d.check e with
      | some v => some v
      | none => if (d.lost e.k).isNone && d.ill e then some (illegalVal e.word 0) else none

/-- The register of a stream used in the wrong direction (R67); a form that reads its destination as an operand may not name a
bound one at all (R323). -/
def SlotDef.wrongWay (d : SlotDef) (k : Ctx) : Option Nat :=
  match (regsOf d.vs).find? k.writeBound with
  | some r => some r
  | none => match d.vo.find? (fun r => decide (k.bindKind r ≠ 0)) with
    | some r => some r
    | none => match d.vd with
      | some v => if !dN v ∧ k.readBound (dReg v) then some (dReg v) else none
      | none => none

/-- The tile operand that lies outside the window (R75). -/
def SlotDef.outside (d : SlotDef) (k : Ctx) : Option Nat := d.tiles.find? (fun n => decide (winCount k.tiles ≤ n))

/-- The cause that keeps a stream read from popping (R214, R216, R367). -/
def SlotDef.badHead (d : SlotDef) (e : Env) : Option Stop :=
  ((d.streamReads e.k).filterMap (fun r => match e.head r with | .stop q => some q | _ => none)).head?

/-- The latch entry of a result-producing slot whose guard is false (R71). -/
def Work.skip (w : Work) (d : SlotDef) : Work :=
  if d.xd.isSome ∨ d.vd.isSome then { w with lat := w.lat ++ [.none] } else w

/-- A secondary folds an external slot and takes its results from the primary (R434): the register or the latched result, and
the status predicate in bit 127 of the value. -/
def Work.folded (w : Work) (e : Env) (d : SlotDef) : Except Stop Work :=
  match w.take e with
  | .error q => .error q
  | .ok (v, w) =>
    let w := match d.xd with | some r => w.outX e r (v.setWidth 64) | none => w
    let w := match d.xe with | some r => w.outE e r (v.setWidth 64) | none => w
    .ok (w.modCtx e (fun k => if bit v 126 then k.wp 1 (bit v 127) else k))

/-- The value that a primary sends for an external slot: x result, and whether and how it wrote p1 (R434). -/
def Work.sendFolded (w0 w : Work) (e : Env) (d : SlotDef) (p1 : Bool) : Work :=
  let k := w.s.ctx e.c e.t
  let x := match d.xd, d.xe with
    | some r, _ => (match w.lat.getLast? with | some (.val v) => v.setWidth 64 | _ => k.rx (dReg r))
    | none, some r => k.rx (dReg r)
    | none, none => 0
  if (w.s.ctx e.c e.t).role = .give ∧ ((w0.s.ctx e.c e.t).pair.map (·.issued)) = (k.pair.map (·.issued)) then
    w.give e (((x : Word).setWidth 128) ||| (if p1 then (1#128 <<< 126) ||| (if k.rp 1 then 1#128 <<< 127 else 0) else 0))
  else w

/-- The effect of a slot; a secondary folds an external slot instead (R434). -/
def SlotDef.effect (d : SlotDef) (e : Env) (w : Work) : Except Stop Work :=
  let external := d.sync && !d.both
  match (if external && decide (e.k.role = .take) then w.folded e d else d.run e w) with
  | .ok w' => .ok (if external then Work.sendFolded w w' e d true else w')
  | .error q => .error q

/-- What a stop makes of a slot. -/
def Stop.end (q : Stop) : SlotEnd := match q with | .trap c v => .trap c v | _ => .stop q

/-- The stream and tile-window causes of a slot, and what keeps its stream reads from popping (R67, R75, R214, R367). -/
def SlotDef.early (d : SlotDef) (e : Env) : Option Stop :=
  match d.wrongWay e.k with
  | some r => some (.trap cStream (BitVec.ofNat 64 r))
  | none => match d.outside e.k with
    | some n => some (.trap cTileWindow (BitVec.ofNat 64 n))
    | none => d.badHead e

/-- Evaluates one slot against the state before the bundle, in the rank order of R94. -/
def SlotDef.eval (d : SlotDef) (e : Env) (w : Work) : SlotEnd :=
  match d.illegal e with
  | some v => .trap cIllegal v
  | none =>
    if e.k.prv < d.lvl then .trap cPrivilege (e.word.setWidth 64)
    else if !d.live e.k then (if d.fp64 && !hasFp64 e.c then .ext (some (w.skip d)) else .done (w.skip d))
    else if d.fp64 && !hasFp64 e.c then .ext none
    else match d.lost e.k with
    | some q => .trap cLatchLost (BitVec.ofNat 64 q)
    | none =>
    match d.early e, d.effect e w with
    | none, .ok w' => .done w'
    | none, .error q => q.end
    | some q, .ok _ => q.end
    | some q, .error r => if r.rank < q.rank then r.end else q.end

/-! ### The whole bundle -/

/-- A trap that a slot raises. -/
structure Cand where
  slot : Nat
  code : BitVec 8
  tval : Word

/-- What the slots of a bundle come to together. -/
structure Tally where
  w : Work
  traps : List Cand := []
  stop : Option Stop := none
  /-- the bundle holds a slot of an extension that the core does not list -/
  held : Bool := false
  /-- the first such slot whose guard is true -/
  ext : Option Nat := none
  /-- a translation is missing beside one whose walk has failed (R120) -/
  late : Option Stop := none

/-- Puts a candidate at its place in emitted order. -/
def insertCand (c : Cand) : List Cand → List Cand
  | [] => [c]
  | b :: l => if c.slot ≤ b.slot then c :: b :: l else b :: insertCand c l

/-- Identifiers of the registers whose check a slot makes (R442): its operands, and with them the predicates and masks, which
are read for every bundle (log 17). -/
def SlotDef.checked (d : SlotDef) (k : Ctx) : List (BitVec 8) :=
  let x (r : Nat) : BitVec 8 := BitVec.ofNat 8 (if bit k.status 4 ∧ 1 ≤ r ∧ r ≤ 4 then 0x45 + r else r)
  let v (r : Nat) : BitVec 8 := BitVec.ofNat 8 (0x20 + r)
  let latch (c : BitVec 6) : BitVec 8 := BitVec.ofNat 8 (0x42 + (c.toNat - 32))
  [0x40, 0x41] ++ (regsOf d.xs ++ d.xo).map x ++ (regsOf d.vs ++ d.vo ++ d.vm).map v
  ++ ((d.xs ++ d.vs).filter (fun c => decide (32 ≤ c.toNat))).map latch

/-- The first register error of a slot's operands that cannot be corrected (R442). -/
def SlotDef.damaged (d : SlotDef) (k : Ctx) : Option (BitVec 8) :=
  if k.regErr = [] then none
  else (d.checked k).find? (fun i => k.regErr.any (fun r => r.1 == i && !r.2))

/-- `tval` of a register's poison (R442). -/
def regVal (i : BitVec 8) : Word := BitVec.ofNat 64 (15 * 2 ^ 48 + i.toNat)

/-- Adds one slot to the tally; `ctl` says whether the bundle holds a control slot. -/
def Tally.slot (e : Env) (ctl : Bool) (y : Tally) (i : Item) : Tally :=
  let e := { e with word := i.word, idx := BitVec.ofNat 3 i.idx }
  let pre : Option Stop :=
    if i.d.waits e.k then some (.forfeit 1) else if i.d.streamWait e then some (.forfeit 2)
    else if i.d.tileBusy e then some (.forfeit 3) else none
  if i.d.place && ctl then { y with traps := insertCand ⟨i.idx, cIllegal, illegalVal i.word 0⟩ y.traps, stop := y.stop.or pre } else
  match i.d.eval e { y.w with flags := 0 } with
  | .trap c v => { y with traps := insertCand ⟨i.idx, c, v⟩ y.traps, stop := y.stop.or pre }
  | .ext none => { y with held := true, ext := y.ext.or (some i.idx), stop := y.stop.or pre }
  | .ext (some w) => { y with held := true, w := { w with flags := y.w.flags }, stop := y.stop.or pre }
  | .stop (.late va) => { y with late := y.late.or (some (.late va)), stop := y.stop.or pre }
  | .stop q => { y with stop := (y.stop.or pre).or (some q) }
  | .done w =>
    let bad := if i.d.live e.k then i.d.damaged e.k else none
    match (if e.k.pair.isNone then bad else none) with
    | some r => { y with traps := insertCand ⟨i.idx, cPoison, regVal r⟩ y.traps, stop := y.stop.or pre }
    | none =>
    let w := if bad.isSome then { w with folds := w.folds ++ [(none, 0xDEAD)] } else w
    let fp := w.flags &&& (field e.k.status 8 5)
    { y with
      w := { w with flags := y.w.flags ||| w.flags }
      traps := if fp ≠ 0 then insertCand ⟨i.idx, cFp, 0⟩ y.traps else y.traps
      stop := y.stop.or pre }

/-- The v registers that the bundle pops, each once (R66). -/
def popsOf (k : Ctx) (l : List Item) : List Nat := uniq (l.map (fun i => i.d.streamReads k)).flatten

/-- Evaluates the slots of a bundle in emitted order. -/
def tally (e : Env) (l : List Item) : Tally :=
  l.foldl (Tally.slot { e with pops := popsOf e.k l } (l.any (fun i => isControl i.word))) { w := { s := e.s } }

/-- The slot whose trap is reported (R94): the lowest that raises a cause other than poison or fp, else the lowest that raises
poison, else the lowest that raises fp. -/
def chooseTrap (l : List Cand) : Option Cand :=
  match l.find? (fun c => c.code != cPoison && c.code != cFp) with
  | some c => some c
  | none => match l.find? (fun c => c.code == cPoison) with
    | some c => some c
    | none => l.head?

/-! ### Pairing fingerprints (R276, R434 to R436) -/

/-- `Fold` (R276). -/
def foldFp (fp : Word) (w : Vec) : Word :=
  (fp.rotateLeft 7 ^^^ w.setWidth 64 ^^^ w.extractLsb' 64 64) * 0x9E3779B97F4A7C15#64

/-- Folds what is known at the head of the queue of results to fold. -/
def Pair.flush (p : Pair) : List (Option Nat × Vec) → Pair
  | [] => { p with foldq := [] }
  | (some n, v) :: l => { p with foldq := (some n, v) :: l }
  | (none, v) :: l => { p with fp := foldFp p.fp v }.flush l

/-- Takes in what a bundle folds. -/
def Pair.fold (p : Pair) (l : List (Option Nat × Vec)) : Pair := p.flush (p.foldq ++ l)

/-- A bundle of a paired context that has to meet the other twin first (R435): it holds an external slot or traps, 4,096
bundles have completed, or the replay buffer holds 512 values. -/
def needsAgreement (p : Pair) (l : List Item) (trapping : Bool) : Bool :=
  !p.agreed && (trapping || l.any (fun i => i.d.sync) || decide (4096 ≤ p.count) || (decide (p.phase = 0) && decide (512 ≤ p.issued - p.ckBase))
    || decide (512 ≤ p.taken - p.ckBase))

/-- The checkpoint after a bundle that waited for its agreement, or the count of completed bundles (R435, R436). -/
def State.pairDone (s : State) (c t : Nat) : State :=
  let k := s.ctx c t
  match k.pair with
  | none => s
  | some p =>
    if p.agreed then
      s.modPair c t (fun p => { p with
        ckpt := s.image c t k.pc 0, ckTail := (s.core c).log.tail, shadow := [], ckOp := (s.core c).nextId, count := 0, agreed := false, waiting := false, wrote := none
        ckBase := if p.primary then p.issued else p.taken, fp := 0, efp := 0 })
    else s.modPair c t (fun p => { p with count := p.count + 1 })

/-- `pairon` (R427): the twin receives a copy of the thread's whole context as it stands after the bundle; both run with `PAIR`
set from a first agreement and checkpoint (R435, R436). -/
def State.couple (s : State) (c t tc tt : Nat) : State :=
  let s := s.modCtx c t (fun k => { k with status := k.status ||| (1#64 <<< 30) })
  let p : Pair :=
    { twinCore := tc, twinCtx := tt, primary := true, ckpt := s.image c t (s.ctx c t).pc 0, ckTail := (s.core c).log.tail
      ckOp := (s.core c).nextId }
  let s := (s.modCtx c t (fun k => { k with pair := some p })).copyTiles c tc (s.ctx c t).tiles []
  let k := s.ctx c t
  s.setCtx tc tt { k with
    gen := (s.ctx tc tt).gen + 1, latSeq := Nat.max k.latSeq (s.ctx tc tt).latSeq, pair := some { p with twinCore := c, twinCtx := t, primary := false, ckpt := [] } }

/-- The secondary of a stopped primary is freed; `PAIR` stays set for the frame (R440). -/
def State.dropTwin (s : State) (c t : Nat) : State :=
  match (s.ctx c t).pair with
  | none => s
  | some p =>
    if p.primary then ((s.modCtx p.twinCore p.twinCtx (fun k => { k with pair := none })).freeCtx p.twinCore p.twinCtx).modCtx c t
      (fun k => { k with pair := none })
    else s

/-! ### How a bundle ends -/

/-- Counts a bundle that issues, whether it completes, parks or traps (R277). -/
def State.countIssue (s : State) (c t : Nat) : State := s.modCore c (fun k => k.perfAdd 0x01 (some t))

/-- Counts a forfeit of cause `why` (R179, R277). -/
def State.countForfeit (s : State) (c t why : Nat) : State := s.modCore c (fun k => k.perfAdd (2 + why) (some t))

/-- The log-full event: the record at the frontier is unpublished (R170). -/
def State.logFull (s : State) (c : Nat) : State :=
  let l := (s.core c).log
  match l.recs.find? (fun r => r.st == .unpublished) with
  | some r => if r.seq = l.frontier then
      s.notifyEvent c cLogFull r.ctx (s.ctx c r.ctx.toNat).pc (fun _ => r.ctx.setWidth 64) else s
  | none => s

/-- A bundle forfeits its issue cycle (R179, R180). What it waits for is remembered where the spec says that it was fixed at
issue: a translation miss (R120), an own-view load (R166), an acquire's set (R164). -/
def State.forfeit (s : State) (c t : Nat) (q : Stop) : State :=
  match q with
  | .forfeit why => let s := s.countForfeit c t why; if why = 8 then s.logFull c else s
  | .miss va =>
    (s.modCtx c t (fun k => match k.tlb with
      | .none => { k with tlb := .lookup va }
      | .failed _ _ _ => { k with tlb := .lookup va }
      | _ => k)).countForfeit c t 7
  | .ownView line => (s.ownViewStart c t line).countForfeit c t 9
  | .acquire set => (s.modCtx c t (fun k => { k with acq := some ((match k.acq with | some p => p.1 | none => 0), some set), ownLine := none })).countForfeit c t 9
  | .wait why s' => s'.countForfeit c t why
  | .late va => (s.modCtx c t (fun k => { k with tlb := .lookup va })).countForfeit c t 7
  | .trap _ _ => s

/-- A paired context reaches a compare point and waits for its twin; a bundle that traps folds its cause (R434, R435). -/
def State.awaitTwin (s : State) (c t : Nat) (code : Option (BitVec 8)) : State :=
  (s.modPair c t (fun p =>
    if p.waiting then p else
    { (match code with | some q => p.fold [(none, q.setWidth 128)] | none => p) with waiting := true })).countForfeit c t 9

/-- A load of a line with held records of its own thread performs a release, which completes with an agreement (R166, R172, R173): the
primary is there when it meets those records, and a twin that takes values when it asks for the one that has not been performed. -/
def State.heldView (s : State) (c t : Nat) (q : Stop) : Bool :=
  match (s.ctx c t).pair with
  | none => false
  | some p =>
    !p.agreed && (match q with
    | .ownView line => p.primary && (s.ownRecs c line).any (fun r => r.held && decide (r.ctx.toNat = t))
    | .forfeit 1 =>
      (match (if p.primary then some p else (s.ctx p.twinCore p.twinCtx).pair) with
       | none => false
       | some g => decide (p.taken = g.issued) && (if p.phase = 0 then !p.primary && g.waiting && decide (p.count = g.count) else true))
    | _ => false)

/-- What consuming an uncorrectable error leaves besides the trap (R442): the read's own effects and a record of kind 0x05. -/
def State.consumed (s : State) (c t : Nat) (pc : BitVec 60) (tval : Word) : State :=
  let reg := decide (bitsN tval 48 4 = 15)
  let s := if reg then s.modCtx c t (fun k => { k with regErr := [] }) else s.eccRange (tval.toNat / 64 * 64) 64
  let pa := tval.toNat
  s.chronicle 0x05 c (if reg = false ∧ kindOf pa = 0 then pa / 1024 % 16 else 0)
    (if reg then 1 else if kindOf pa = 0 then 0 else if kindOf pa = 1 then 2 else 3) (s.ctx c t).region.toNat (if reg then 0 else pa)
    (BitVec.ofNat 64 (t + 256 * (if reg then bitsN tval 0 8 else 0xFF))) (pc.setWidth 64)

/-- A bundle traps (R94): in a paired context the cause is folded in place of its results. -/
def State.bundleTrap (s : State) (c t slot : Nat) (code : BitVec 8) (tval : Word) : State :=
  let s := s.countIssue c t
  let s := if code = cPoison then s.consumed c t (s.ctx c t).pc tval else s
  let s := if 4096 ≤ c then s else s.dropTwin c t
  s.takeTrap c t code (BitVec.ofNat 3 slot) tval

/-- The latches after a bundle with these results (R71): valid bits, awaited bits, contents. -/
def Ctx.fillLatches (k : Ctx) (l : List LatRes) : Ctx :=
  let one (k : Ctx) (i : Nat) : Ctx :=
    match l[i]? with
    | some (.val v) => { k with q := k.q.set (i % 4) v (Nat.mod_lt _ (by decide)), qv := k.qv ||| (1#4 <<< i) }
    | some (.await _) => { k with qv := k.qv ||| (1#4 <<< i), pendQ := k.pendQ ||| (1#4 <<< i) }
    | _ => k
  (List.range 4).foldl one { k with qv := 0, pendQ := 0, latSeq := k.latSeq + 1 }

/-- The next bundle of a context whose bundle took no branch, and the action on `lc` (R93). -/
def Ctx.fallThrough (k : Ctx) (pc next : BitVec 60) : Ctx :=
  if pc = k.le then
    (if 1 < k.lc.toNat then { k with pc := k.ls, lc := k.lc - 1 }
     else if k.lc = 1 then { k with pc := next, lc := 0 }
     else { k with pc := next })
  else { k with pc := next }

/-- A result in flight to x31 of context t, of a slot of the bundle that makes a call: it reaches its latch alone, for the return
address is written after every other effect (R315). -/
def Body.notLink (t : Nat) (b : Body) : Body :=
  match b with
  | .load u false 31 n sgn pa q logged mask old => if u = t then .load u false 32 n sgn pa q logged mask old else b
  | .cell u op n x d (some 31) q => if u = t then .cell u op n x d (some 32) q else b
  | b => b

/-- The return address prevails over what the bundle's other slots write to x31 (R315). -/
def State.keepLink (s : State) (c t : Nat) : State :=
  if bit (s.ctx c t).pendX 31 then
    ({ s with flight := s.flight.map (fun (f : Flight) => if f.src = c then { f with body := f.body.notLink t } else f) }).modCtx c t
      (fun k => { k with pendX := setField k.pendX 31 0#1 })
  else s

/-- The transfer or suspension of a bundle, after all its other effects (R285). -/
def State.transfer (s : State) (c t : Nat) (pc next : BitVec 60) (x : Xfer) : State :=
  match x with
  | .none => (s.modCtx c t (fun k => k.fallThrough pc next)).wantLine c t
  | .goto a => s.goTo c t a
  | .call a => ((s.keepLink c t).modCtx c t (fun k => k.wx 31 (next.setWidth 64))).goTo c t a
  | .tret => s.trapReturn c t
  | .uiret => s.userReturn c t
  | .yield => (s.modCtx c t (fun k => k.fallThrough pc next)).suspendOn c t .yield
  | .migr _ n => (s.modCtx c t (fun k => k.fallThrough pc next)).suspendOn c t (.migr n)
  | .waitw => s.doWaitw c t
  | .park w => s.parkWait c t pc w
  | .parkRecv key a => s.parkRecv c t pc key a
  | .parkSend key ep a d => s.parkSend c t pc key ep a d

/-- Does the transfer give up the context? -/
def Xfer.suspends : Xfer → Bool
  | .none => false
  | .goto _ => false
  | .call _ => false
  | .tret => false
  | .uiret => false
  | .yield => true
  | .migr _ _ => true
  | .waitw => true
  | .park _ => true
  | .parkRecv _ _ => true
  | .parkSend _ _ _ _ => true

/-- Does the transfer park the continuation? Its bundle has no effect of its own then: it issues again after the wake (R203,
R416). -/
def Xfer.parks : Xfer → Bool
  | .none => false
  | .goto _ => false
  | .call _ => false
  | .tret => false
  | .uiret => false
  | .yield => false
  | .migr _ _ => false
  | .waitw => false
  | .park _ => true
  | .parkRecv _ _ => true
  | .parkSend _ _ _ _ => true

/-- Installs or clears the binding of a register; what the old binding had read ahead is discarded (R365, R366). -/
def Ctx.setBinding (k : Ctx) (r : Nat) (b : Word) (desc : List Word) : Ctx :=
  { k.wb (r - 24) b with
    pat := if bitsN b 61 3 ≥ 3 then k.pat.set r desc else k.pat.erase r
    patAt := if bitsN b 61 3 ≥ 3 then k.patAt.set r (k.latSeq + 1) else k.patAt.erase r
    ahead := k.ahead.erase r }

/-- A load in flight. -/
def Body.isLoad : Body → Bool
  | .load _ _ _ _ _ _ _ _ _ _ => true
  | .planed _ _ _ _ _ _ _ _ => true
  | _ => false

/-- The loads of a bundle perform before its stores (R285, R348): of what the bundle has sent, from position n on, they go
first. -/
def State.loadsFirst (s : State) (n gen bun : Nat) (uh : Bool) : State :=
  let new := (s.flight.drop n).map (fun f => { f with gen := gen, uh := uh, bun := bun })
  { s with flight := s.flight.take n ++ new.filter (fun f => f.body.isLoad) ++ new.filter (fun f => !f.body.isLoad) }

/-- The correctable register errors that a bundle's reads have found are corrected and recorded (R443); of the others those of slots
whose guards hold (R94). -/
def State.mendRegs (s : State) (c t : Nat) (l : List Item) : State :=
  let k := s.ctx c t
  if k.regErr = [] then s else
  let ids := (l.map (fun i => i.d.checked k)).flatten
  let live := ((l.filter (fun i => i.d.live k)).map (fun i => i.d.checked k)).flatten
  let hit (r : BitVec 8 × Bool) : Bool := if r.2 then ids.contains r.1 else live.contains r.1
  let found := k.regErr.filter hit
  let s := s.modCtx c t (fun k => { k with regErr := k.regErr.filter (fun r => !hit r) })
  found.foldl (fun s r => s.chronicle (if r.2 then 0x03 else 0x05) c 0 1 k.region.toNat 0 (BitVec.ofNat 64 (t + 256 * r.1.toNat))
    (if r.2 then 0 else k.pc.setWidth 64)) s

/-- A bundle completes (R10, R71, R90, R93, R285). -/
def State.commit (e : Env) (l : List Item) (w : Work) : State :=
  let s := (popsOf e.k l).foldl (fun s r => s.pop e.c e.t r) ((w.s.mendRegs e.c e.t l).loadsFirst e.s.flight.length e.k.gen (e.k.latSeq + 1) (bit e.k.status 4))
  let s := w.binds.foldl (fun s b => s.modCtx e.c e.t (fun k => k.setBinding b.1 b.2.1 b.2.2)) s
  let s := s.modCtx e.c e.t (fun k =>
    { (k.fillLatches w.lat) with
      fflags := k.fflags ||| w.flags, tlb := .none, acq := none, ownLine := none, wake := .none, realigned := false, loaded := []
      inv := none, dues := [], pair := k.pair.map (fun p => p.fold w.folds) })
  let s := s.countIssue e.c e.t
  let s := if w.refetch then s.modCtx e.c e.t (fun k => { k with fbuf := .empty }) else s
  let s := (s.transfer e.c e.t e.pc e.next w.xfer).pairDone e.c e.t
  let s := match w.pairOn with | some (tc, tt) => s.couple e.c e.t tc tt | none => s
  if w.pairOff then s.endPairing e.c e.t else s

/-- Does the transfer form a record of x1 to x6 (R79)? -/
def Xfer.carries : Xfer → Bool
  | .waitw => false
  | x => x.suspends

/-- Extension migration: the context stops, its frame is written with `STOP` 0 and moves when it can (R200, R201). -/
def State.startMigrate (s : State) (c t : Nat) : State :=
  let s := s.dropTwin c t
  s.modCtx c t (fun k => { k with
    stop := some { code := 0, tval := 0, framePc := k.pc, npc := k.pc }, tlb := .none, acq := none, ownLine := none, realign := none })

/-- The issue of a framed bundle by context t of core c (R94, R179, R180, R292). Context 0, which holds no continuation and is never
idle (R186, R417), finds no core for an FP64 slot (log 92). A suspension forms its record of x1 to x6, so it waits for the ones
among them that are pending (R64, R79; log 93). The table loads of a bundle are queued together, and it goes on when they have taken
effect (R252). -/
def State.issue (e : Env) (l : List Item) : State :=
  let y := tally e l
  match y.stop with
  | some q =>
    if e.s.heldView e.c e.t q then (if e.k.appends then e.s.release e.c e.t else e.s).awaitTwin e.c e.t none
    else e.s.forfeit e.c e.t q
  | none =>
    let legal := !(y.traps.any (fun c => c.code == cIllegal || c.code == cPrivilege))
    let target := if e.t = 0 then none else e.s.extTarget e.c e.k.region.toNat
    if y.held ∧ legal ∧ target.isSome then e.s.startMigrate e.c e.t else
    let traps := match y.ext with
      | some i => if target.isNone then insertCand ⟨i, cExtNone, 0⟩ y.traps else y.traps
      | none => y.traps
    match (if traps.isEmpty then y.late else none) with
    | some q => e.s.forfeit e.c e.t q
    | none =>
    if traps.isEmpty ∧ y.w.xfer.carries ∧ field e.k.pendX 1 6 ≠ (0#6) then e.s.forfeit e.c e.t (.forfeit 1) else
    let twin := match e.k.pair with | some p => needsAgreement p l (!traps.isEmpty || y.w.xfer.suspends) | none => false
    if twin then e.s.awaitTwin e.c e.t ((chooseTrap traps).map (·.code)) else
    match chooseTrap traps with
    | some c =>
      if !e.k.appends then e.s.countForfeit e.c e.t 9
      else e.s.bundleTrap e.c e.t c.slot c.code (if c.code = cFp then (y.w.flags.setWidth 64) else c.tval)
    | none =>
      if y.w.xfer.suspends ∧ !e.k.appends then e.s.countForfeit e.c e.t 9
      else if !y.w.loads.isEmpty then (e.s.modCore e.c (fun k => { k with tload := k.tload ++ y.w.loads })).countForfeit e.c e.t 9
      else if y.w.xfer.parks then (e.s.countIssue e.c e.t).transfer e.c e.t e.pc e.next y.w.xfer
      else State.commit e l y.w

/-- The environment of the bundle at a context's PC, of n slots. -/
def State.env (s : State) (c t n : Nat) : Env :=
  let pc := (s.ctx c t).pc
  { s := s, c := c, t := t, pc := pc, next := pc + BitVec.ofNat 60 (4 * n) }

/-- A slot instruction alone in its bundle, given with the bundle's words, issues in the context whose cycle it is on the core
whose turn it is; any other context only lets its cycle pass (R21, R179). -/
def runSlot (words : List SlotWord) (d : SlotDef) (s : State) : Out :=
  let c := s.turn
  let t := (s.core c).cycle % 16
  if (s.ctx c t).mode = .running ∧ (s.ctx c t).stop = none then
    .next ((State.issue (s.env c t words.length) [{ idx := words.length - 1, word := words.getLastD 0, d := d }]).endCycle c)
  else .next (s.endCycle c)

end Sys2Proof.Machine
end

