-- ==== Sys2Proof/Machine/Flags.lean ====
section
/-! DEFINITION. Results that raise floating-point flags (R50 to R52, R90, R324): a code together with its flags, under the
rounding mode that the bundle reads, and the flags of a vector's enabled elements. -/

namespace Sys2Proof.Machine

/-- The rounding mode that the slots of a bundle use: `frm` before the bundle (R50, R90). -/
def Env.rm (e : Env) : RMode := RMode.of e.k.frm

/-- The low 32 bits of a word as an FP32 code (R311). -/
def lo32 (w : Word) : Nat := w.toNat % 2 ^ 32
/-- The low 16 bits. -/
def lo16 (w : Word) : Nat := w.toNat % 2 ^ 16

/-- All flags of a list of coded results. -/
def flagsOf (l : List (Nat × FFlags)) : FFlags := l.foldl (fun f r => f ||| r.2) 0

/-- NV of an equality or unordered comparison: only a signalling operand (R312, R329). -/
def nvQuiet (x y : FVal) : FFlags := nvSig [x, y]
/-- NV of an ordered comparison: any NaN operand (R312, R329). -/
def nvAny (x y : FVal) : FFlags := if x.isNan || y.isNan then flNV else 0

/-- A ≤ B of values (R312). -/
def FVal.le (x y : FVal) : Bool := !x.isNan && !y.isNan && !(y.lt x)

end Sys2Proof.Machine
end

