-- ==== Sys2Proof/Machine/Operands.lean ====
section
/-! DEFINITION. The operand forms of the slots: for each shape of operands, the slot that computes a result from them (R287 to
R291, R302, R321, R322). -/

namespace Sys2Proof.Machine

/-! ### Scalar forms (R302) -/

/-- x, x to x. -/
def sBin (o : OpDab) (f : Word → Word → Word) : SlotDef :=
  { g := o.g.toNat, xs := [o.a, o.b], xd := some o.d, badMod := modCheck o.p false false false
    run := fun e w => .ok (w.outX e o.d (f (e.xa o.a) (e.xa o.b))) }

/-- x to x. -/
def sUn (o : OpDa) (f : Word → Word) : SlotDef :=
  { g := o.g.toNat, xs := [o.a], xd := some o.d, badMod := modCheck o.p false false false
    run := fun e w => .ok (w.outX e o.d (f (e.xa o.a))) }

/-- x and a sign-extended immediate to x. -/
def sImm (o : OpDai) (f : Word → Word → Word) : SlotDef :=
  { g := o.g.toNat, xs := [o.a], xd := some o.d
    run := fun e w => .ok (w.outX e o.d (f (e.xa o.a) (immS o.p o.i))) }

/-- x, x and Old(d) to x. -/
def sTri (o : OpDab) (f : Word → Word → Word → Word) : SlotDef :=
  { g := o.g.toNat, xs := [o.a, o.b], xo := [dReg o.d], xd := some o.d, badMod := modCheck o.p false false false
    run := fun e w => .ok (w.outX e o.d (f (e.xa o.a) (e.xa o.b) (e.xOld o.d))) }

/-- A destination of a predicate pair: `N` 0, an even number below 8 (R69, R309). -/
def badPair (d : BitVec 6) : Bool := decide (7 < d.toNat) || bit d 0

/-- A compare of x, x (R309). -/
def sCmp (o : OpDab) (f : Word → Word → Bool) : SlotDef :=
  { g := o.g.toNat, xs := [o.a, o.b], bad := badPair o.d, badMod := modCheck o.p false false false
    run := fun e w => .ok (w.outP e (dReg o.d) (f (e.xa o.a) (e.xa o.b))) }

/-- A compare of x and a sign-extended immediate (R309). -/
def sCmpI (o : OpDai) (f : Word → Word → Bool) : SlotDef :=
  { g := o.g.toNat, xs := [o.a], bad := badPair o.d
    run := fun e w => .ok (w.outP e (dReg o.d) (f (e.xa o.a) (immS o.p o.i))) }

/-- Predicate logic: every field below 8 (R310). -/
def sPred (o : OpDab) (f : Bool → Bool → Bool) : SlotDef :=
  { g := o.g.toNat, bad := decide (7 < o.d.toNat) || decide (7 < o.a.toNat) || decide (7 < o.b.toNat)
    badMod := modCheck o.p false false false
    run := fun e w => .ok (w.modCtx e (fun k => k.wp o.d.toNat (f (e.k.rp o.a.toNat) (e.k.rp o.b.toNat)))) }

/-! ### Scalar floating-point forms (R311 to R313) -/

/-- x, x to x with flags. -/
def sfBin (o : OpDab) (f : RMode → Word → Word → Nat × FFlags) : SlotDef :=
  { g := o.g.toNat, xs := [o.a, o.b], xd := some o.d, badMod := modCheck o.p false false false
    run := fun e w =>
      let r := f e.rm (e.xa o.a) (e.xa o.b)
      .ok ((w.outX e o.d (BitVec.ofNat 64 r.1)).raise r.2) }

/-- x, x and Old(d) to x with flags. -/
def sfTri (o : OpDab) (f : RMode → Word → Word → Word → Nat × FFlags) : SlotDef :=
  { g := o.g.toNat, xs := [o.a, o.b], xo := [dReg o.d], xd := some o.d, badMod := modCheck o.p false false false
    run := fun e w =>
      let r := f e.rm (e.xa o.a) (e.xa o.b) (e.xOld o.d)
      .ok ((w.outX e o.d (BitVec.ofNat 64 r.1)).raise r.2) }

/-- x to x with flags. -/
def sfUn (o : OpDa) (f : RMode → Word → Nat × FFlags) : SlotDef :=
  { g := o.g.toNat, xs := [o.a], xd := some o.d, badMod := modCheck o.p false false false
    run := fun e w =>
      let r := f e.rm (e.xa o.a)
      .ok ((w.outX e o.d (BitVec.ofNat 64 r.1)).raise r.2) }

/-- A floating-point compare (R312). -/
def sfCmp (o : OpDab) (f : FVal → FVal → Bool) (nv : FVal → FVal → FFlags) : SlotDef :=
  { g := o.g.toNat, xs := [o.a, o.b], bad := badPair o.d, badMod := modCheck o.p false false false
    run := fun e w =>
      let x := Fmt.f32.decode (lo32 (e.xa o.a))
      let y := Fmt.f32.decode (lo32 (e.xa o.b))
      .ok ((w.outP e (dReg o.d) (f x y)).raise (nv x y)) }

/-! ### Vector forms (R321 to R324) -/

/-- The mask that a slot names (R70, R291). -/
def Env.mask (e : Env) (p : Option (BitVec 24)) : BitVec 16 := e.k.rm (modMsk p)

/-- Elements of n bytes, each the operation's or the old one (R322). -/
def vMap (n : Nat) (m : BitVec 16) (old : Vec) (f : Nat → Nat) : Vec :=
  vPack n ((List.range (16 / n)).map (fun i => if enabled m n i then f i else vElem old n i))

/-- v, v to v, element by element. -/
def vBin (p : Option (BitVec 24)) (d a b : BitVec 6) (g : BitVec 3) (n : Nat) (f : Nat → Nat → Nat) : SlotDef :=
  { g := g.toNat, vs := [a, b], vm := [dReg d], vd := some d, badMod := modCheck p false false true
    run := fun e w => w.outV e d (vMap n (e.mask p) (e.vMerge d) (fun i => f (vElem (e.va a) n i) (vElem (e.va b) n i))) }

/-- v to v, element by element. -/
def vUn (p : Option (BitVec 24)) (d a : BitVec 6) (g : BitVec 3) (n : Nat) (f : Nat → Nat) : SlotDef :=
  { g := g.toNat, vs := [a], vm := [dReg d], vd := some d, badMod := modCheck p false false true
    run := fun e w => w.outV e d (vMap n (e.mask p) (e.vMerge d) (fun i => f (vElem (e.va a) n i))) }

/-- v, v and Old(vd) to v, element by element (R323). -/
def vTri (p : Option (BitVec 24)) (d a b : BitVec 6) (g : BitVec 3) (n : Nat) (f : Nat → Nat → Nat → Nat) : SlotDef :=
  { g := g.toNat, vs := [a, b], vo := [dReg d], vd := some d, badMod := modCheck p false false true
    run := fun e w => w.outV e d (vMap n (e.mask p) (e.vOld d)
      (fun i => f (vElem (e.va a) n i) (vElem (e.va b) n i) (vElem (e.vOld d) n i))) }

/-- The flags of the enabled elements (R322, R324). -/
def vFlags (n : Nat) (m : BitVec 16) (f : Nat → Nat × FFlags) : FFlags :=
  flagsOf (((List.range (16 / n)).filter (enabled m n)).map f)

/-- A result of n-byte elements with flags. -/
def Work.outVF (w : Work) (e : Env) (d : BitVec 6) (n : Nat) (m : BitVec 16) (old : Vec) (f : Nat → Nat × FFlags) :
    Except Stop Work :=
  (w.raise (vFlags n m f)).outV e d (vMap n m old (fun i => (f i).1))

/-- v, v to v in a floating-point format. -/
def vfBin (p : Option (BitVec 24)) (d a b : BitVec 6) (g : BitVec 3) (n : Nat) (x64 : Bool)
    (f : RMode → Nat → Nat → Nat × FFlags) : SlotDef :=
  { g := g.toNat, vs := [a, b], vm := [dReg d], vd := some d, fp64 := x64, badMod := modCheck p false false true
    run := fun e w => w.outVF e d n (e.mask p) (e.vMerge d) (fun i => f e.rm (vElem (e.va a) n i) (vElem (e.va b) n i)) }

/-- v to v in a floating-point format. -/
def vfUn (p : Option (BitVec 24)) (d a : BitVec 6) (g : BitVec 3) (n : Nat) (x64 : Bool) (f : RMode → Nat → Nat × FFlags) :
    SlotDef :=
  { g := g.toNat, vs := [a], vm := [dReg d], vd := some d, fp64 := x64, badMod := modCheck p false false true
    run := fun e w => w.outVF e d n (e.mask p) (e.vMerge d) (fun i => f e.rm (vElem (e.va a) n i)) }

/-- v, v and Old(vd) to v in a floating-point format. -/
def vfTri (p : Option (BitVec 24)) (d a b : BitVec 6) (g : BitVec 3) (n : Nat) (x64 : Bool)
    (f : RMode → Nat → Nat → Nat → Nat × FFlags) : SlotDef :=
  { g := g.toNat, vs := [a, b], vo := [dReg d], vd := some d, fp64 := x64, badMod := modCheck p false false true
    run := fun e w => w.outVF e d n (e.mask p) (e.vOld d)
      (fun i => f e.rm (vElem (e.va a) n i) (vElem (e.va b) n i) (vElem (e.vOld d) n i)) }

/-- Mask bits of n-byte elements: an enabled element's bits receive its result, excluded bits stay (R329). -/
def maskMerge (n : Nat) (m old : BitVec 16) (f : Nat → Bool) : BitVec 16 :=
  BitVec.ofNat 16 ((List.range 16).foldl (fun acc j =>
    acc + (if (if enabled m n (j / n) then f (j / n) else bit old j) then 2 ^ j else 0)) 0)

/-- A mask destination: `N` 0 and a number below 8 (R329). -/
def badMask (d : BitVec 6) : Bool := decide (7 < d.toNat)

/-- A vector compare into a mask. -/
def vCmp (p : Option (BitVec 24)) (d a b : BitVec 6) (g : BitVec 3) (n : Nat) (x64 : Bool)
    (f : Nat → Nat → Bool × FFlags) : SlotDef :=
  { g := g.toNat, vs := [a, b], fp64 := x64, bad := badMask d, badMod := modCheck p false false true
    run := fun e w =>
      let r (i : Nat) := f (vElem (e.va a) n i) (vElem (e.va b) n i)
      .ok ((w.modCtx e (fun k => k.wm d.toNat (maskMerge n (e.mask p) (e.k.rm d.toNat) (fun i => (r i).1)))).raise
        (vFlags n (e.mask p) (fun i => (0, (r i).2)))) }

/-- Width in bytes of a type of set A, I or U (R293). -/
def typeWidth (t : Nat) : Nat :=
  match t with | 0 => 1 | 1 => 2 | 2 => 4 | 3 => 8 | 4 => 2 | 5 => 2 | 6 => 4 | _ => 8

/-- Format of a floating-point type of set A (R293). -/
def typeFmt (t : Nat) : Fmt := match t with | 4 => .bf16 | 5 => .f16 | 6 => .f32 | _ => .f64

end Sys2Proof.Machine
end

