-- ==== Sys2Proof/Machine/Memory.lean ====
section
/-! DEFINITION. Loads, stores, add records and prefetch (R346 to R352, R355, R356). -/

namespace Sys2Proof.Machine

/-! ### Operand forms (R346) -/

/-- EA of an R form. -/
def Env.eaR (e : Env) (o : OpDab) : Word := e.xa o.a + e.xa o.b
/-- EA of an I form whose accesses have n bytes. -/
def Env.eaI (e : Env) (o : OpDai) (n : Nat) : Word := e.xa o.a + immS o.p o.i * BitVec.ofNat 64 n

/-! ### Loads (R349, R350) -/

/-- A load's result that is at hand. -/
def Work.outLoad (w : Work) (e : Env) (isV : Bool) (d : BitVec 6) (v : Vec) : Except Stop Work :=
  if isV then w.outV e d v else .ok (w.outX e d (v.setWidth 64))

/-- A load whose address has been translated: taken from the primary in a secondary (R434); behind the core's own records
(R166); at once from the own slice or from the logged-read buffer (R133, R167), and by a load in flight elsewhere (R64). A
vector load to a stream register that pushes reads at once when nothing of the core is ahead of it (log 15). -/
def Work.loadAt (w : Work) (e : Env) (x : Xl) (isV : Bool) (d : BitVec 6) (size : Nat) (sgn : Bool) (mask : BitVec 16) :
    Except Stop Work :=
  if w.takes e then
    match w.take e with
    | .error q => .error q
    | .ok (v, w) => w.outLoad e isV d v
  else
  match e.s.ownHit e.c (leafL x.leaf) [lineOf x.pa] with
  | some l => .error (.ownView l)
  | none =>
    let s := w.s.eccRange x.pa size
    match poisonCheck s x.pa size with
    | .error q => .error q
    | .ok _ =>
      let w := { w with s := s }
      let old : Vec := if isV then e.vMerge d else 0
      let now (raw : List Byte) : Except Stop Work :=
        let v := loadValue isV size sgn mask old raw
        (w.give e v).outLoad e isV d v
      if ownSlice e.c x.pa then now (Mem.bytes e.s.mem x.pa size)
      else
        let busy := e.s.unitBusy e.c x.pa
        match e.s.heldRead e.c x size with
        | some raw => now raw
        | none =>
          if isV ∧ e.k.writeBound (dReg d) ∧ dN d = false then
            (if busy ∨ e.s.serves x.pa = false then .error (.forfeit 1) else now (e.s.readPhys e.c x.pa size))
          else
            let (rep, w) := w.number e
            let latch := w.latchName e
            let s := w.s.fly e.c (orderUnit x.pa)
              (.load e.t isV (destReg isV d) size sgn x.pa latch (leafL x.leaf) mask old) rep e.pc e.idx
            .ok ({ w with s := s }.pend e isV d rep)

/-- A scalar load. -/
def sLoad (g : BitVec 3) (xs : List (BitVec 6)) (d : BitVec 6) (bm : Option (BitVec 24)) (size : Nat) (sgn : Bool)
    (ea : Env → Word) : SlotDef :=
  { g := g.toNat, xs := xs, xd := some d, badMod := bm
    run := fun e w =>
      match e.addr (ea e) size .load with
      | .error q => .error q
      | .ok x => w.loadAt e x false d size sgn 0xFFFF }

/-- A vector load. -/
def sVload (g : BitVec 3) (xs : List (BitVec 6)) (d : BitVec 6) (bm : Option (BitVec 24)) (mask : Env → BitVec 16)
    (ea : Env → Word) : SlotDef :=
  { g := g.toNat, xs := xs, vm := [dReg d], vd := some d, badMod := bm
    run := fun e w =>
      match e.addr (ea e) 16 .load with
      | .error q => .error q
      | .ok x => w.loadAt e x true d 16 false (mask e) }

/-- A scalar load in R form. -/
def sLoadR (o : OpDab) (size : Nat) (sgn : Bool) : SlotDef :=
  sLoad o.g [o.a, o.b] o.d (modCheck o.p false false false) size sgn (fun e => e.eaR o)
/-- A scalar load in I form. -/
def sLoadI (o : OpDai) (size : Nat) (sgn : Bool) : SlotDef := sLoad o.g [o.a] o.d none size sgn (fun e => e.eaI o size)

/-- `ld.u8`, R form (R349). -/
def slotLdU8R (o : OpDab) : SlotDef := sLoadR o 1 false
/-- `ld.i8`, R form (R349). -/
def slotLdI8R (o : OpDab) : SlotDef := sLoadR o 1 true
/-- `ld.u16`, R form (R349). -/
def slotLdU16R (o : OpDab) : SlotDef := sLoadR o 2 false
/-- `ld.i16`, R form (R349). -/
def slotLdI16R (o : OpDab) : SlotDef := sLoadR o 2 true
/-- `ld.u32`, R form (R349). -/
def slotLdU32R (o : OpDab) : SlotDef := sLoadR o 4 false
/-- `ld.i32`, R form (R349). -/
def slotLdI32R (o : OpDab) : SlotDef := sLoadR o 4 true
/-- `ld.u64`, R form (R349). -/
def slotLdU64R (o : OpDab) : SlotDef := sLoadR o 8 false
/-- `vld`, R form (R350). -/
def slotVldR (o : OpDab) : SlotDef :=
  sVload o.g [o.a, o.b] o.d (modCheck o.p false false true) (fun e => e.mask o.p) (fun e => e.eaR o)
/-- `ld.u8`, I form (R349). -/
def slotLdU8I (o : OpDai) : SlotDef := sLoadI o 1 false
/-- `ld.i8`, I form (R349). -/
def slotLdI8I (o : OpDai) : SlotDef := sLoadI o 1 true
/-- `ld.u16`, I form (R349). -/
def slotLdU16I (o : OpDai) : SlotDef := sLoadI o 2 false
/-- `ld.i16`, I form (R349). -/
def slotLdI16I (o : OpDai) : SlotDef := sLoadI o 2 true
/-- `ld.u32`, I form (R349). -/
def slotLdU32I (o : OpDai) : SlotDef := sLoadI o 4 false
/-- `ld.i32`, I form (R349). -/
def slotLdI32I (o : OpDai) : SlotDef := sLoadI o 4 true
/-- `ld.u64`, I form (R349). -/
def slotLdU64I (o : OpDai) : SlotDef := sLoadI o 8 false
/-- `vld`, I form, whose mask is m0 (R291, R350). -/
def slotVldI (o : OpDai) : SlotDef := sVload o.g [o.a] o.d none (fun _ => 0xFFFF) (fun e => e.eaI o 16)

/-! ### Stores (R351, R352) -/

/-- A scalar store: the data register is read from before the bundle, and its `N` is 0 (R347). -/
def sStore (g : BitVec 3) (xs : List (BitVec 6)) (d : BitVec 6) (bm : Option (BitVec 24)) (size : Nat) (ea : Env → Word) :
    SlotDef :=
  { g := g.toNat, xs := xs, xo := [dReg d], bad := dN d, badMod := bm
    run := fun e w =>
      match e.addr (ea e) size .store with
      | .error q => .error q
      | .ok x =>
        let data := (e.xOld d).toNat % 2 ^ (8 * size)
        (w.foldStore (ea e) (BitVec.ofNat 128 data)).store e x (toBytes size data) (fun _ => true) none }

/-- A vector store under a mask. -/
def sVstore (g : BitVec 3) (xs : List (BitVec 6)) (d : BitVec 6) (bm : Option (BitVec 24)) (mask : Env → BitVec 16)
    (ea : Env → Word) : SlotDef :=
  { g := g.toNat, xs := xs, vo := [dReg d], bad := dN d, badMod := bm
    run := fun e w =>
      match e.addr (ea e) 16 .store with
      | .error q => .error q
      | .ok x => (w.foldStore (ea e) (e.vOld d)).store e x (toBytes 16 (e.vOld d).toNat) (fun i => bit (mask e) i) none }

/-- A scalar store in R form. -/
def sStoreR (o : OpDab) (size : Nat) : SlotDef :=
  sStore o.g [o.a, o.b] o.d (modCheck o.p false false false) size (fun e => e.eaR o)
/-- A scalar store in I form. -/
def sStoreI (o : OpDai) (size : Nat) : SlotDef := sStore o.g [o.a] o.d none size (fun e => e.eaI o size)

/-- `st.u8`, R form (R351). -/
def slotStU8R (o : OpDab) : SlotDef := sStoreR o 1
/-- `st.u16`, R form (R351). -/
def slotStU16R (o : OpDab) : SlotDef := sStoreR o 2
/-- `st.u32`, R form (R351). -/
def slotStU32R (o : OpDab) : SlotDef := sStoreR o 4
/-- `st.u64`, R form (R351). -/
def slotStU64R (o : OpDab) : SlotDef := sStoreR o 8
/-- `vst`, R form (R351, R352). -/
def slotVstR (o : OpDab) : SlotDef :=
  sVstore o.g [o.a, o.b] o.d (modCheck o.p false false true) (fun e => e.mask o.p) (fun e => e.eaR o)
/-- `st.u8`, I form (R351). -/
def slotStU8I (o : OpDai) : SlotDef := sStoreI o 1
/-- `st.u16`, I form (R351). -/
def slotStU16I (o : OpDai) : SlotDef := sStoreI o 2
/-- `st.u32`, I form (R351). -/
def slotStU32I (o : OpDai) : SlotDef := sStoreI o 4
/-- `st.u64`, I form (R351). -/
def slotStU64I (o : OpDai) : SlotDef := sStoreI o 8
/-- `vst`, I form (R351). -/
def slotVstI (o : OpDai) : SlotDef := sVstore o.g [o.a] o.d none (fun _ => 0xFFFF) (fun e => e.eaI o 16)

/-! ### Prefetch and adds (R355, R356) -/

/-- `pref` (R355): checked as a load of the line, without effect on what a program can observe; its read of the line meets the
line's latent errors as any read does (R130, R131). -/
def slotPref (o : OpAb) : SlotDef :=
  { g := o.g.toNat, xs := [o.a, o.b], badMod := modCheck o.p false false false
    run := fun e w =>
      match e.addr ((e.xa o.a + e.xa o.b) &&& ~~~(63#64)) 1 .load with
      | .error q => .error q
      | .ok x => .ok (if e.k.appends then { w with s := w.s.eccRange x.pa 64 } else w) }

/-- `FMT` of an add record for a type of set A (R356). -/
def addFmt (t : Nat) : BitVec 8 := BitVec.ofNat 8 (if t < 4 then t else 0x10 + (t - 4))

/-- `radd` (R356). -/
def slotRadd (o : OpDabT3) : SlotDef :=
  { g := o.g.toNat, xs := [o.a, o.b], xo := [dReg o.d], bad := dN o.d, badMod := modCheck o.p false false false
    run := fun e w =>
      let n := typeWidth o.t.toNat
      let ea := e.xa o.a + e.xa o.b
      match e.addr ea n .store with
      | .error q => .error q
      | .ok x =>
        let data := (e.xOld o.d).toNat % 2 ^ (8 * n)
        (w.foldStore ea (BitVec.ofNat 128 data)).store e x (toBytes n data) (fun _ => true) (some (addFmt o.t.toNat)) }

/-- `vradd` (R356, R352): elements under the mask at their width. -/
def slotVradd (o : OpDabT3) : SlotDef :=
  { g := o.g.toNat, xs := [o.a, o.b], vo := [dReg o.d], bad := dN o.d, badMod := modCheck o.p false false true
    run := fun e w =>
      let n := typeWidth o.t.toNat
      let ea := e.xa o.a + e.xa o.b
      match e.addr ea 16 .store with
      | .error q => .error q
      | .ok x =>
        (w.foldStore ea (e.vOld o.d)).store e x (toBytes 16 (e.vOld o.d).toNat)
          (fun i => enabled (e.mask o.p) n (i / n)) (some (addFmt o.t.toNat)) }

/-! ### Meanings -/

/-- LD_U8_R (R349). -/
def execLdU8R (o : OpDab) (s : State) : Out := runSlot (encode (.ldU8R o)) (slotLdU8R o) s

/-- LD_I8_R (R349). -/
def execLdI8R (o : OpDab) (s : State) : Out := runSlot (encode (.ldI8R o)) (slotLdI8R o) s

/-- LD_U16_R (R349). -/
def execLdU16R (o : OpDab) (s : State) : Out := runSlot (encode (.ldU16R o)) (slotLdU16R o) s

/-- LD_I16_R (R349). -/
def execLdI16R (o : OpDab) (s : State) : Out := runSlot (encode (.ldI16R o)) (slotLdI16R o) s

/-- LD_U32_R (R349). -/
def execLdU32R (o : OpDab) (s : State) : Out := runSlot (encode (.ldU32R o)) (slotLdU32R o) s

/-- LD_I32_R (R349). -/
def execLdI32R (o : OpDab) (s : State) : Out := runSlot (encode (.ldI32R o)) (slotLdI32R o) s

/-- LD_U64_R (R349). -/
def execLdU64R (o : OpDab) (s : State) : Out := runSlot (encode (.ldU64R o)) (slotLdU64R o) s

/-- VLD_R (R350). -/
def execVldR (o : OpDab) (s : State) : Out := runSlot (encode (.vldR o)) (slotVldR o) s

/-- ST_U8_R (R351). -/
def execStU8R (o : OpDab) (s : State) : Out := runSlot (encode (.stU8R o)) (slotStU8R o) s

/-- ST_U16_R (R351). -/
def execStU16R (o : OpDab) (s : State) : Out := runSlot (encode (.stU16R o)) (slotStU16R o) s

/-- ST_U32_R (R351). -/
def execStU32R (o : OpDab) (s : State) : Out := runSlot (encode (.stU32R o)) (slotStU32R o) s

/-- ST_U64_R (R351). -/
def execStU64R (o : OpDab) (s : State) : Out := runSlot (encode (.stU64R o)) (slotStU64R o) s

/-- VST_R (R351). -/
def execVstR (o : OpDab) (s : State) : Out := runSlot (encode (.vstR o)) (slotVstR o) s

/-- LD_U8_I (R349). -/
def execLdU8I (o : OpDai) (s : State) : Out := runSlot (encode (.ldU8I o)) (slotLdU8I o) s

/-- LD_I8_I (R349). -/
def execLdI8I (o : OpDai) (s : State) : Out := runSlot (encode (.ldI8I o)) (slotLdI8I o) s

/-- LD_U16_I (R349). -/
def execLdU16I (o : OpDai) (s : State) : Out := runSlot (encode (.ldU16I o)) (slotLdU16I o) s

/-- LD_I16_I (R349). -/
def execLdI16I (o : OpDai) (s : State) : Out := runSlot (encode (.ldI16I o)) (slotLdI16I o) s

/-- LD_U32_I (R349). -/
def execLdU32I (o : OpDai) (s : State) : Out := runSlot (encode (.ldU32I o)) (slotLdU32I o) s

/-- LD_I32_I (R349). -/
def execLdI32I (o : OpDai) (s : State) : Out := runSlot (encode (.ldI32I o)) (slotLdI32I o) s

/-- LD_U64_I (R349). -/
def execLdU64I (o : OpDai) (s : State) : Out := runSlot (encode (.ldU64I o)) (slotLdU64I o) s

/-- VLD_I (R350). -/
def execVldI (o : OpDai) (s : State) : Out := runSlot (encode (.vldI o)) (slotVldI o) s

/-- ST_U8_I (R351). -/
def execStU8I (o : OpDai) (s : State) : Out := runSlot (encode (.stU8I o)) (slotStU8I o) s

/-- ST_U16_I (R351). -/
def execStU16I (o : OpDai) (s : State) : Out := runSlot (encode (.stU16I o)) (slotStU16I o) s

/-- ST_U32_I (R351). -/
def execStU32I (o : OpDai) (s : State) : Out := runSlot (encode (.stU32I o)) (slotStU32I o) s

/-- ST_U64_I (R351). -/
def execStU64I (o : OpDai) (s : State) : Out := runSlot (encode (.stU64I o)) (slotStU64I o) s

/-- VST_I (R351). -/
def execVstI (o : OpDai) (s : State) : Out := runSlot (encode (.vstI o)) (slotVstI o) s

/-- PREF (R355). -/
def execPref (o : OpAb) (s : State) : Out := runSlot (encode (.pref o)) (slotPref o) s

/-- RADD (R356). -/
def execRadd (o : OpDabT3) (s : State) : Out := runSlot (encode (.radd o)) (slotRadd o) s

/-- VRADD (R356). -/
def execVradd (o : OpDabT3) (s : State) : Out := runSlot (encode (.vradd o)) (slotVradd o) s

end Sys2Proof.Machine
end

