-- ==== Sys2Proof/Machine/Tables.lean ====
section
/-! DEFINITION. Decode tables, curve tables and scaled-block formats (R40 to R49, R244 to R253). -/

namespace Sys2Proof.Machine

/-! ### Decode tables (R244 to R249) -/

/-- The default tables that firmware loads at package reset (R249). -/
def defaultDec (t : Nat) : DecTable :=
  let of (f : Fmt) (n : Nat) : List (BitVec 19) := (List.range n).map (fun c => BitVec.ofNat 19 (f.cvt .e8m10 .rne false c).1)
  match t with
  | 0 => { ents := of .e4m3 256, ord := 1, nib := false, enc := true }
  | 1 => { ents := of .e5m2 256, ord := 1, nib := false, enc := true }
  | 2 => { ents := of .e2m1 16, ord := 1, nib := true, enc := true }
  | _ => { ents := (List.range 256).map (fun c => BitVec.ofNat 19 (Fmt.e8m10.round .rne false (FVal.ofInt (sInt 8 c))).1)
           ord := 2, nib := false, enc := true }

/-- Decode table t of a core. -/
def Core.decTab (k : Core) (t : Nat) : DecTable := k.dec.getD t (defaultDec t)

/-- Value of an entry. -/
def DecTable.entry (d : DecTable) (c : Nat) : FVal := Fmt.e8m10.decode ((d.ents.getD c 0).toNat)

/-- Decoding of a code to its exact value (R245). -/
def DecTable.decode (d : DecTable) (c : Nat) : FVal := d.entry (if d.nib then c % 16 else c % 256)

/-- Codes in the sorted sequence (R246). -/
def DecTable.order (d : DecTable) : List Nat :=
  let n := if d.nib then 16 else 256
  let h := n / 2
  match d.ord.toNat with
  | 0 => List.range n
  | 1 => (List.range h).reverse.map (· + h) ++ List.range h
  | _ => (List.range h).map (· + h) ++ List.range h

/-- The sorted sequence: values with their codes, without NaN entries (R246). -/
def DecTable.sorted (d : DecTable) : List (FVal × Nat) :=
  (d.order.map (fun c => (d.entry c, c))).filter (fun p => !p.1.isNan)

/-- The first code whose value does not exceed its predecessor's (R247). -/
def nonMonotonic : List (FVal × Nat) → Option Nat
  | a :: b :: l => if a.1.tlt b.1 then nonMonotonic (b :: l) else some b.2
  | _ => none

/-- Midpoint of two neighbours (R248). -/
def midpoint (a b : FVal) : FVal :=
  match a, b with
  | .inf _, .inf _ => .fin false 0 0
  | .inf s, _ => .inf s
  | _, .inf s => .inf s
  | x, y => match (x.add .rne y).1 with
    | .fin s m e => .fin s m (e - 1)
    | z => z

/-- The neighbours of x in the sorted sequence: the last entry not above x, with the next (R248). -/
def neighbours (x : FVal) : List (FVal × Nat) → Option ((FVal × Nat) × (FVal × Nat))
  | a :: b :: l => if !(x.tlt b.1) then neighbours x (b :: l) else some (a, b)
  | _ => none

/-- `Encode` (R248): x is an FP32 value. -/
def DecTable.encode (d : DecTable) (x : FVal) : Nat :=
  let l := d.sorted
  let n := if d.nib then 16 else 256
  let nanCode := (List.range n).find? (fun c => (d.entry c).isNan)
  let zero := (List.range n).find? (fun c => (d.entry c).isZero && !(d.entry c).sign)
  match l.head?, l.getLast? with
  | some lo, some hi =>
    if x.isNan then (match nanCode with | some c => c | none => match zero with | some c => c | none => lo.2)
    else if !(lo.1.tlt x) then lo.2
    else if !(x.tlt hi.1) then hi.2
    else match neighbours x l with
      | none => lo.2
      | some (a, b) =>
        if !(a.1.tlt x) then a.2
        else
          let m := midpoint a.1 b.1
          if x.lt m then a.2 else if m.lt x then b.2 else Nat.min a.2 b.2
  | _, _ => nanCode.getD 0

/-! ### Curve tables (R250, R251) -/

/-- Curve table t of a core: one segment of zeros at reset (R250). -/
def Core.curve (k : Core) (t : Nat) : List Segment := k.cur.getD t [{}]

/-- The highest segment whose breakpoint does not exceed x, else the first (R251). -/
def findSegment (x : FVal) (l : List Segment) : Segment :=
  match l.reverse.find? (fun g => (Fmt.f32.decode g.bp.toNat).le x) with
  | some g => g
  | none => l.headD {}

/-- `Curve` of an FP32 code (R251), with its flags. -/
def curveEval (l : List Segment) (x : Nat) : Nat × FFlags :=
  let v := Fmt.f32.decode x
  if v.isNan then (Fmt.f32.nan, nvSig [v]) else
  let g := findSegment v l
  let t := Fmt.f32.sub .rne x g.bp.toNat
  let r1 := Fmt.f32.fma .rne false false g.c3.toNat t.1 g.c2.toNat
  let r2 := Fmt.f32.fma .rne false false r1.1 t.1 g.c1.toNat
  let r3 := Fmt.f32.fma .rne false false r2.1 t.1 g.c0.toNat
  (r3.1, t.2 ||| r1.2 ||| r2.2 ||| r3.2)

/-! ### Scaled-block formats (R40, R45 to R49) -/

/-- A NaN that counts as quiet (R35, R49, R245, R337). -/
def FVal.quiet : FVal → FVal
  | .nan _ => .nan false
  | v => v

/-- `TSF`, `BSF`, `BSZ`, `ELF` of a format word (R45). -/
def fwTsf (f : BitVec 10) : Nat := bitsN f 8 2
/-- `BSF`. -/
def fwBsf (f : BitVec 10) : Nat := bitsN f 6 2
/-- `BSZ`. -/
def fwBsz (f : BitVec 10) : Nat := bitsN f 4 2
/-- `ELF`. -/
def fwElf (f : BitVec 10) : Nat := bitsN f 0 4

/-- A reserved code in a format word (R46). -/
def fwReserved (f : BitVec 10) : Bool :=
  decide (fwTsf f = 3) || decide (fwBsf f = 3) || decide (fwBsz f = 3) || decide (8 ≤ fwElf f)

/-- Elements of a block (R45). -/
def fwBlock (f : BitVec 10) : Nat := 8 * 2 ^ fwBsz f

/-- `tval` of a format word that is refused (R46, R102). -/
def fwVal (f : BitVec 10) : Word := BitVec.ofNat 64 (2 ^ 32 + f.toNat)

/-- Elements are 4 bits wide: E2M1, or codes through a nibble table (R47). -/
def elfNibble (k : Core) (elf : Nat) : Bool := decide (elf = 0) || (decide (4 ≤ elf) && (k.decTab (elf - 4)).nib)

/-- The exact value of an element code of format ELF (R33, R41, R45); decoding through a table raises nothing (R245). -/
def elfValue (k : Core) (elf code : Nat) : FVal :=
  match elf with
  | 0 => Fmt.e2m1.decode (code % 16)
  | 1 => Fmt.e4m3.decode (code % 256)
  | 2 => Fmt.e5m2.decode (code % 256)
  | 3 => FVal.ofInt (sInt 8 code)
  | _ => ((k.decTab (elf - 4)).decode code).quiet

/-- Element i of packed bytes (R47). -/
def packedElem (nib : Bool) (bytes : Nat) (i : Nat) : Nat := if nib then bytes / 2 ^ (4 * i) % 16 else bytes / 2 ^ (8 * i) % 256

/-- The value of a block scale code (R40, R45, R47). -/
def blockScale (bsf code : Nat) : FVal :=
  (match bsf with
   | 0 => e8m0 code
   | 1 => Fmt.e5m2.decode (code % 256)
   | _ => Fmt.e4m3.decode (code % 256)).quiet

/-- The value of a tensor scale: 1.0, BF16 or FP32 (R45). -/
def tensorScale (tsf code : Nat) : FVal :=
  (match tsf with
   | 0 => FVal.fin false 1 0
   | 1 => Fmt.bf16.decode (code % 2 ^ 16)
   | _ => Fmt.f32.decode (code % 2 ^ 32)).quiet

/-- `GroupSum` with the flags that a dot product reports (R56, R337): NV for opposite infinities, NX for a discarded bit. -/
def groupSumF (ps : List FVal) : Nat × FFlags :=
  let opposite := ps.any (fun p => p.isInf && p.sign) && ps.any (fun p => p.isInf && !p.sign)
  let nz := ps.filter (fun p => !p.isZero)
  if ps.any FVal.isNan then (groupSum ps, if opposite then flNV else 0)
  else if opposite then (groupSum ps, flNV)
  else if ps.any FVal.isInf then (groupSum ps, 0)
  else match nz with
    | [] => (0, 0)
    | p :: rest =>
      let lsb := (rest.foldl (fun a q => max a q.log2) p.log2) - 50
      let cutBits (q : FVal) : Bool :=
        match q with | .fin _ m e => decide (e < lsb) && decide (m % 2 ^ (lsb - e).toNat ≠ 0) | _ => false
      let term (q : FVal) : Int :=
        match q with
        | .fin s m e =>
          if lsb ≤ e then (if s then -1 else 1) * ((m * 2 ^ (e - lsb).toNat : Nat) : Int)
          else ((if s then -1 else 1) * (m : Int)) / (2 ^ (lsb - e).toNat : Nat)
        | _ => 0
      let sum := nz.foldl (fun a q => a + term q) 0
      let r := Fmt.f32.round .rne false (.fin (decide (sum < 0)) sum.natAbs lsb)
      (if sum = 0 then 0 else r.1, r.2 ||| (if nz.any cutBits then flNX else 0))

end Sys2Proof.Machine
end

