-- ==== Sys2Proof/Machine/Planed.lean ====
section
/-! DEFINITION. Planed loads and updates, quantising stores and scale entries (R139 to R144, R254 to R258, R357 to R363). -/

namespace Sys2Proof.Machine

/-! ### Reading planes (R139, R357, R358) -/

/-- Elements of a planed load of n planes (R357). -/
def planedCount (n : Nat) : Nat := if n = 1 then 16 else if n = 2 then 8 else 4

/-- Planes that a load touches: n of them, and the guard in rounding mode (R357). -/
def planesRead (n : Nat) (near : Bool) : Nat := if near ∧ n < 4 then n + 1 else n

/-- Plane 0 to n − 1 of an element whose plane-0 byte lies at pa, as one number (R42, R139). -/
def leadOf (rd : Nat → Nat) (pa n : Nat) : Nat := (List.range n).foldl (fun acc j => acc * 256 + rd (pa + 256 * j)) 0

/-- The lane value of one element (R357, R358). -/
def planedLane (rd : Nat → Nat) (pa n : Nat) (near sat : Bool) : Nat :=
  let lead := leadOf rd pa n
  let v := if near ∧ n < 4 then roundPlanes lead (rd (pa + 256 * n)) n sat else lead
  if n = 3 then v * 256 else v

/-- The vector of a planed load (R358). -/
def planedVec (rd : Nat → Nat) (pa n : Nat) (near sat : Bool) : Vec :=
  let cnt := planedCount n
  vPack (16 / cnt) ((List.range cnt).map (fun j => planedLane rd (pa + j) n near sat))

/-- A byte as core c reads it. -/
def State.rdByte (s : State) (c a : Nat) : Nat := ofBytes (s.readPhys c a 1)

/-- The checks of a planed address: the first element's group of g lies in one block's plane 0, and the page holds planed
tensors (R141, R357, R359). -/
def Env.planedAddr (e : Env) (ea : Word) (g : Nat) (acc : Acc) : Except Stop Xl :=
  if 256 ≤ ea.toNat % 1024 ∨ ea.toNat % 256 % g ≠ 0 then .error (.trap cMisaligned ea)
  else match e.tr acc ea with
    | .error q => .error q
    | .ok x => if leafB x.leaf then .ok x else .error (.trap cAccess ea)

/-- Order units of planes 1 and up of elements at pa (R134, R139). -/
def planeUnits (pa planes : Nat) : List Nat := (List.range (planes - 1)).map (fun j => orderUnit (pa + 256 * (j + 1)))

/-- Lines of the planes of elements at pa. -/
def planeLines (pa planes : Nat) : List Nat := (List.range planes).map (fun j => lineOf (pa + 256 * j))

/-- The first poisoned line among planes, as a trap (R442). -/
def planePoison (s : State) (pa n planes : Nat) : Except Stop Unit :=
  (List.range planes).foldl (fun r j => match r with | .error q => .error q | .ok _ => poisonCheck s (pa + 256 * j) n) (.ok ())

/-- Reads of planes meet their latent errors (R130, R131). -/
def State.eccPlanes (s : State) (pa n planes : Nat) : State :=
  (List.range planes).foldl (fun s j => s.eccRange (pa + 256 * j) n) s

/-- A planed load (R357, R358). -/
def sPlaned (o : OpDabN2) (near : Bool) : SlotDef :=
  { g := o.g.toNat, xs := [o.a, o.b], vd := some o.d, badMod := modCheck o.p false near false
    run := fun e w =>
      let n := o.n.toNat + 1
      let planes := planesRead n near
      match e.planedAddr (e.xa o.a + e.xa o.b) (planedCount n) .load with
      | .error q => .error q
      | .ok x =>
        if w.takes e then
          (match w.take e with
           | .error q => .error q
           | .ok (v, w) => w.outV e o.d v)
        else
        match e.s.ownHit e.c (leafL x.leaf) (planeLines x.pa planes) with
        | some l => .error (.ownView l)
        | none =>
          let s := w.s.eccPlanes x.pa (planedCount n) planes
          match planePoison s x.pa (planedCount n) planes with
          | .error q => .error q
          | .ok _ =>
            let w := { w with s := s }
            let now : Except Stop Work :=
              let v := planedVec (e.s.rdByte e.c) x.pa n near (modSat o.p)
              (w.give e v).outV e o.d v
            if ownSlice e.c x.pa then now
            else if e.k.writeBound (dReg o.d) ∧ dN o.d = false then
              (if (List.range planes).any (fun j => e.s.unitBusy e.c (x.pa + 256 * j)) ∨ e.s.serves x.pa = false
               then .error (.forfeit 1) else now)
            else
              let (rep, w) := w.number e
              let latch := w.latchName e
              let s := w.s.fly e.c (orderUnit x.pa)
                (.planed e.t (destReg true o.d) n near (modSat o.p) x.pa latch (leafL x.leaf)) rep e.pc e.idx (planeUnits x.pa planes)
              .ok ({ w with s := s }.pend e true o.d rep) }

/-- `ldpt` (R357, R358). -/
def slotLdpt (o : OpDabN2) : SlotDef := sPlaned o false
/-- `ldpn` (R357, R358). -/
def slotLdpn (o : OpDabN2) : SlotDef := sPlaned o true

/-! ### Planed updates (R359, R360) -/

/-- A value times 2^k. -/
def FVal.scale2 (k : Int) : FVal → FVal
  | .fin s m e => .fin s m (e + k)
  | v => v

/-- The new N32 pattern of one element: f gives the new value from the old (R360). -/
def updateElem (s : Nat) (old : Nat) (f : FVal → FVal) : Nat :=
  if s = 255 then old
  else
    let k : Int := (s : Int) - 127
    (Fmt.n32.round .rne false ((f ((Fmt.n32.decode old).scale2 k)).scale2 (-k))).1

/-- `pupd`: w + u (R360). -/
def updPlus (u : Nat) (w : FVal) : FVal := (w.add .rne (Fmt.f32.decode u)).1
/-- `padam`: w − ETA * (u + LAMBDA * w), exact (R360). -/
def updStep (eta lambda u : Nat) (w : FVal) : FVal :=
  let t := ((Fmt.f32.decode u).add .rne ((Fmt.f32.decode lambda).mul w).1).1
  (w.add .rne ((Fmt.f32.decode eta).mul t).1.neg).1

/-- The planes in which an element changes, plane j in bit j (R360). -/
def planeDiff (old new : Nat) : Nat :=
  (List.range 4).foldl (fun m j => if old / 2 ^ (24 - 8 * j) % 256 = new / 2 ^ (24 - 8 * j) % 256 then m else m ||| 2 ^ j) 0

/-- Byte of plane j of an N32 pattern (R42). -/
def planeByte (v j : Nat) : Byte := BitVec.ofNat 8 (v / 2 ^ (24 - 8 * j))

/-- `DATA` of a plane-group record: bytes 4k to 4k + 3 hold the planes of element k (R152). -/
def planeData (l : List Nat) : List Byte := (l.map (fun v => (List.range 4).map (planeByte v))).flatten

/-- Writes the masked planes of elements at pa in place, as one write (R152, R360). -/
def State.wrPlanes (s : State) (pa mask : Nat) (data : List Byte) : State :=
  (List.range 4).foldl (fun s j =>
    if mask.testBit j then
      s.wrBytes (pa + 256 * j) ((List.range (data.length / 4)).map (fun k => data.getD (4 * k + j) 0))
    else s) s

/-- The four old elements at pa, from the vector of a planed load of four planes. -/
def oldElems (v : Vec) : List Nat := (List.range 4).map (vElem v 4)

/-- The read half of an update, taken from the primary in a secondary (R360, R434). -/
def Work.readPlanes (w : Work) (e : Env) (x : Xl) : Except Stop (Vec × Work) :=
  if w.takes e then w.take e
  else
  match e.s.ownHit e.c (leafL x.leaf) (planeLines x.pa 4) with
  | some l => .error (.ownView l)
  | none =>
    if (List.range 4).any (fun j => e.s.unitBusy e.c (x.pa + 256 * j)) ∨ e.s.serves x.pa = false then .error (.forfeit 1) else
    let s := w.s.eccPlanes x.pa 4 4
    match planePoison s x.pa 4 4 with
    | .error q => .error q
    | .ok _ =>
      let v := planedVec (e.s.rdByte e.c) x.pa 4 false false
      .ok (v, { w with s := s }.give e v)

/-- A word of memory read at issue, taken from the primary in a secondary: a byte of a scale word, a descriptor (R359, R434). -/
def Work.readMem (w : Work) (e : Env) (ea : Word) (n align : Nat) : Except Stop (Nat × Work) :=
  match e.addr ea align .load with
  | .error q => .error q
  | .ok x =>
    if w.takes e then
      match w.take e with
      | .error q => .error q
      | .ok (v, w) => .ok (v.toNat, w)
    else match e.readNow x n with
      | .error q => .error q
      | .ok bs => .ok (ofBytes bs, w.give e (BitVec.ofNat 128 (ofBytes bs)))

/-- The scale byte of element i: 127 with no scale word (R360). -/
def Work.scaleByte (w : Work) (e : Env) (scw : Option Word) (i : Nat) : Except Stop (Nat × Work) :=
  match scw with
  | none => .ok (127, w)
  | some a => w.readMem e (a + BitVec.ofNat 64 (i / 32)) 1 1

/-- Writes the new elements where any has changed (R360): one plane-group record, the masked planes in place in the own slice, or a
write on its way to bulk or host lines, behind the loads of its bundle (R134, R348). -/
def Work.putPlanes (w : Work) (e : Env) (x : Xl) (old new : List Nat) : Except Stop Work :=
  let mask := (old.zip new).foldl (fun m p => m ||| planeDiff p.1 p.2) 0
  if mask = 0 ∨ e.k.appends = false then .ok w
  else if leafL x.leaf ∨ e.k.pair.isSome then
    w.append e 2 3 (BitVec.ofNat 8 mask) x.pa (homeOf x.leaf x.pa) (ofBytes (planeData new)) (!leafL x.leaf)
  else if kindOf x.pa = 0 then .ok { w with s := w.s.wrPlanes x.pa mask (planeData new) }
  else .ok { w with s := w.s.fly e.c (orderUnit x.pa) (.planes e.t x.pa mask (planeData new)) none e.pc e.idx (planeUnits x.pa 4) }

/-- The whole update of four elements, with the new value of each from its delta and its old value (R360). -/
def Work.update (w : Work) (e : Env) (o : OpDab) (x : Xl) (scw : Option Word) (f : Nat → FVal → FVal) : Except Stop Work :=
  let ea := e.xa o.a
  match w.scaleByte e scw (ea.toNat % 256) with
  | .error q => .error q
  | .ok (s, w) =>
    match w.readPlanes e x with
    | .error q => .error q
    | .ok (v, w) =>
      let new := (List.range 4).map (fun k => updateElem s (vElem v 4 k) (f (vElem (e.vOld o.d) 4 k)))
      (w.foldStore ea (BitVec.ofNat 128 (ofBytes (planeData new)))).putPlanes e x (oldElems v) new

/-- A planed update. -/
def sUpdate (o : OpDab) (run : Env → Work → Xl → Except Stop Work) : SlotDef :=
  { g := o.g.toNat, xs := [o.a, o.b], vo := [dReg o.d], bad := dN o.d, badMod := modCheck o.p false false false
    run := fun e w =>
      match e.planedAddr (e.xa o.a) 4 .store with
      | .error q => .error q
      | .ok x => run e w x }

/-- `pupd` (R359, R360): x0 in field b means no scale word. -/
def slotPupd (o : OpDab) : SlotDef :=
  sUpdate o (fun e w x => w.update e o x (if o.b = 0 then none else some (e.xa o.b)) updPlus)

/-- `padam` (R359, R360): its step descriptor is read with load checks at issue. -/
def slotPadam (o : OpDab) : SlotDef := sUpdate o (fun e w x =>
  match w.readMem e (e.xa o.b) 16 16 with
  | .error q => .error q
  | .ok (d, w) =>
    w.update e o x (if d % 2 ^ 60 = 0 then none else some (BitVec.ofNat 64 (d % 2 ^ 60))) (updStep (d / 2 ^ 64 % 2 ^ 32) (d / 2 ^ 96 % 2 ^ 32)))

/-! ### Scale entries (R254 to R258) -/

/-- Fields of a scale entry (R254). -/
structure ScaleEnt where
  am : List Nat
  rmax : Nat
  scl : Nat
  tfmt : Nat
  margin : Int
  fill : Nat
  head : Nat
  /-- word 7 as it stands -/
  w7 : Word

/-- Reads the entry at a physical address. -/
def State.scaleEnt (s : State) (pa : Nat) : ScaleEnt :=
  let w7 := s.rd64 (pa + 56)
  { am := (List.range 12).map (fun i => s.rdN (pa + 4 * i) 4), rmax := s.rdN (pa + 52) 4, scl := s.rdN (pa + 48) 4
    tfmt := bitsN w7 16 4, margin := sInt 8 (bitsN w7 8 8), fill := Nat.min (bitsN w7 4 4) 12
    head := if 12 ≤ bitsN w7 0 4 then 0 else bitsN w7 0 4, w7 := w7 }

/-- Maximum of two FP32 codes (R36). -/
def maxF32 (a b : Nat) : Nat := (Fmt.f32.minmax true a b).1

/-- `Fold` (R256). -/
def State.scaleFold (s : State) (pa : Nat) (a : Nat) : State := s.wrBytes (pa + 52) (toBytes 4 (maxF32 (s.scaleEnt pa).rmax a))

/-- `Commit` (R256). -/
def State.scaleCommit (s : State) (pa : Nat) : State :=
  let n := s.scaleEnt pa
  let w7 := setField (setField n.w7 0 (BitVec.ofNat 4 ((n.head + 1) % 12))) 4 (BitVec.ofNat 4 (Nat.min (n.fill + 1) 12))
  ((s.wrBytes (pa + 4 * n.head) (toBytes 4 n.rmax)).wr64 (pa + 56) w7).wrBytes (pa + 52) (toBytes 4 0)

/-- The largest finite magnitude of a target (R257). -/
def scaleMax (k : Core) (tfmt : Nat) : FVal :=
  match tfmt with
  | 0 => FVal.ofInt 448
  | 1 => FVal.ofInt 57344
  | 2 => FVal.ofInt 6
  | 3 => FVal.ofInt 127
  | 4 => .fin false 255 120
  | 5 => FVal.ofInt 65504
  | t =>
    let d := k.decTab (t - 6)
    (((List.range (if d.nib then 16 else 256)).map (fun c => (d.entry c).abs)).filter (fun v => !v.isNan && !v.isInf)).foldl
      FVal.maximum (.fin false 0 0)

/-- Floor of the binary logarithm of a quotient of nonzero finite magnitudes. -/
def log2Quot (x y : FVal) : Int :=
  let k := x.log2 - y.log2
  if x.lt (y.scale2 k) then k - 1 else k

/-- `ScaleCalc` (R257): the scale, whether it is written, and the status. -/
def ScaleEnt.calc (n : ScaleEnt) (fmax : FVal) : Nat × Bool :=
  if n.fill = 0 then (n.scl, true) else
  let m := ((List.range n.fill).map (fun j => n.am.getD ((n.head + 11 - j) % 12) 0)).foldl maxF32 (n.am.getD ((n.head + 11) % 12) 0)
  let v := Fmt.f32.decode m
  if v.isNan ∨ v.isInf then (n.scl, false)
  else if v.isZero then (n.scl, true)
  else
    let x : Int := if fmax.isZero then -126 else max (-126) (min 127 (log2Quot fmax v - n.margin))
    (((x + 127).toNat) * 2 ^ 23, true)

/-- The checks of a scale entry's page (R254, R255): direct, of kind 0 or 1, and writable. -/
def Env.scaleAddr (e : Env) (n : Nat) : Except Stop Xl :=
  let ea : Word := (e.s.region e.region.toNat).scale.setWidth 64 + BitVec.ofNat 64 (64 * n)
  match e.addr ea 8 .load with
  | .error q => .error q
  | .ok x => if leafL x.leaf ∨ leafW x.leaf = false ∨ 1 < kindOf x.pa then .error (.trap cAccess ea) else .ok x

/-- An operation on an entry at its home: at once in the own slice, else on its way there (R255). -/
def Work.scaleOp (w : Work) (e : Env) (op pa : Nat) (v : BitVec 32) : Work :=
  if ownSlice e.c pa then
    let s := w.s.eccRange pa 64
    { w with s := if op = 0 then s.scaleFold pa v.toNat else s.scaleCommit pa }
  else { w with s := w.s.fly e.c (orderUnit pa) (.scale e.t op pa v) none e.pc e.idx }

/-- An operation on an entry performs at its home (R255, R256). -/
def State.scalePerform (s : State) (b : Body) : State :=
  match b with
  | .scale _ 0 pa v => s.scaleFold pa v.toNat
  | .scale _ _ pa _ => s.scaleCommit pa
  | _ => s

/-- The operations on an order unit that this very bundle has sent, from position n on, perform ahead of its `scalc`. -/
def State.scaleNow (s : State) (n pa : Nat) : State :=
  let at' (f : Flight) : Bool := f.dst == orderUnit pa && (match f.body with | .scale _ _ _ _ => true | _ => false)
  let new := s.flight.drop n
  (new.filter at').foldl (fun s f => s.scalePerform f.body) { s with flight := s.flight.take n ++ new.filter (fun f => !at' f) }

/-- `tval` of a reserved `TFMT` (R102, R257). -/
def tfmtVal (w7 : Word) : Word := BitVec.ofNat 64 (2 ^ 32 + w7.toNat % 2 ^ 32)

/-- The code of a scaled value in a target format (R362). -/
def quantCode (k : Core) (tfmt : Nat) (sat : Bool) (v : Nat) : Nat :=
  let x := Fmt.f32.decode v
  match tfmt with
  | 0 => (Fmt.e4m3.round .rne sat x).1
  | 1 => (Fmt.e5m2.round .rne false x).1
  | 2 => (Fmt.e2m1.round .rne false x).1
  | 3 => uWrap 8 (x.toInt .rne (-128) 127).1
  | 4 => (Fmt.bf16.round .rne false x).1
  | 5 => (Fmt.f16.round .rne false x).1
  | t => (k.decTab (t - 6)).encode x

/-- Bits of a code of a target format (R47, R362). -/
def quantBits (k : Core) (tfmt : Nat) : Nat :=
  if tfmt = 2 then 4 else if tfmt = 4 ∨ tfmt = 5 then 16 else if 6 ≤ tfmt ∧ (k.decTab (tfmt - 6)).nib then 4 else 8

/-- Codes packed from the lowest address (R47). -/
def packCodes (bits : Nat) (l : List Nat) : List Byte :=
  toBytes (l.length * bits / 8) (l.foldr (fun c acc => c % 2 ^ bits + acc * 2 ^ bits) 0)

/-- The largest magnitude of FP32 codes (R36, R256). -/
def amaxF32 (l : List Nat) : Nat := (l.map (fun v => v % 2 ^ 31)).foldl maxF32 0

/-- The target of an entry may not be used (R247, R257): its trap. -/
def tfmtTrap (k : Core) (n : ScaleEnt) : Option Word :=
  if 10 ≤ n.tfmt then some (tfmtVal n.w7)
  else if 6 ≤ n.tfmt ∧ (k.decTab (n.tfmt - 6)).enc = false then some (BitVec.ofNat 64 (4 * 2 ^ 32 + (n.tfmt - 6)))
  else none

/-- `stq` (R362). -/
def slotStq (o : OpDab) : SlotDef :=
  { g := o.g.toNat, xs := [o.a, o.b], vo := [dReg o.d], bad := dN o.d, sync := true, badMod := modCheck o.p false true false
    run := fun e w =>
      match e.scaleAddr (bitsN (e.xa o.b) 0 12) with
      | .error q => .error q
      | .ok y =>
        match e.readNow y 64 with
        | .error q => .error q
        | .ok _ =>
          let k := e.tables
          let n := e.s.scaleEnt y.pa
          match tfmtTrap k n with
          | some v => .error (.trap cIllegal v)
          | none =>
            let vs := (List.range 4).map (fun i => mulF32 (vElem (e.vOld o.d) 4 i) n.scl)
            let data := packCodes (quantBits k n.tfmt) (vs.map (quantCode k n.tfmt (modSat o.p)))
            match e.addr (e.xa o.a) data.length .store with
            | .error q => .error q
            | .ok x =>
              match (w.foldStore (e.xa o.a) (BitVec.ofNat 128 (ofBytes data))).store e x data (fun _ => true) none with
              | .error q => .error q
              | .ok w => .ok (w.scaleOp e 0 y.pa (BitVec.ofNat 32 (amaxF32 vs))) }

/-- `scommit` (R363). -/
def slotScommit (o : OpA) : SlotDef :=
  { g := o.g.toNat, xs := [o.a], sync := true, badMod := modCheck o.p false false false
    run := fun e w =>
      match e.scaleAddr (bitsN (e.xa o.a) 0 12) with
      | .error q => .error q
      | .ok y => .ok (w.scaleOp e 1 y.pa 0) }

/-- `scalc` (R257, R363): it waits until nothing that the core has sent to the entry's order unit is ahead of it, and has its
result then. -/
def slotScalc (o : OpDa) : SlotDef :=
  { g := o.g.toNat, xs := [o.a], xd := some o.d, sync := true, badMod := modCheck o.p false false false
    run := fun e w =>
      match e.scaleAddr (bitsN (e.xa o.a) 0 12) with
      | .error q => .error q
      | .ok y =>
        match e.readNow y 64 with
        | .error q => .error q
        | .ok _ =>
          let w := { w with s := w.s.scaleNow e.s.flight.length y.pa }
          let n := w.s.scaleEnt y.pa
          if 10 ≤ n.tfmt then .error (.trap cIllegal (tfmtVal n.w7)) else
          let r := n.calc (scaleMax e.tables n.tfmt)
          let s := if r.1 = n.scl then w.s else w.s.wrBytes (y.pa + 48) (toBytes 4 r.1)
          .ok (({ w with s := s }.outX e o.d (BitVec.ofNat 64 r.1)).modCtx e (fun k => k.wp 1 r.2)) }

/-! ### Meanings -/

/-- LDPT (R357). -/
def execLdpt (o : OpDabN2) (s : State) : Out := runSlot (encode (.ldpt o)) (slotLdpt o) s

/-- LDPN (R357). -/
def execLdpn (o : OpDabN2) (s : State) : Out := runSlot (encode (.ldpn o)) (slotLdpn o) s

/-- PUPD (R360). -/
def execPupd (o : OpDab) (s : State) : Out := runSlot (encode (.pupd o)) (slotPupd o) s

/-- PADAM (R360). -/
def execPadam (o : OpDab) (s : State) : Out := runSlot (encode (.padam o)) (slotPadam o) s

/-- STQ (R362). -/
def execStq (o : OpDab) (s : State) : Out := runSlot (encode (.stq o)) (slotStq o) s

/-- SCOMMIT (R363). -/
def execScommit (o : OpA) (s : State) : Out := runSlot (encode (.scommit o)) (slotScommit o) s

/-- SCALC (R363). -/
def execScalc (o : OpDa) (s : State) : Out := runSlot (encode (.scalc o)) (slotScalc o) s

end Sys2Proof.Machine
end

