-- ==== Sys2Proof/Machine/Matrix.lean ====
section
/-! DEFINITION. Matrix instructions as they issue (R370 to R387, R394). The unit that carries the operations out is in
MatrixUnit. -/

namespace Sys2Proof.Machine

/-! ### Element formats and shapes (R223, R374, R375, R378) -/

/-- Bits of an element of `EFMT` f (R223). -/
def efmtBits (k : Core) (f : Nat) : Nat :=
  match f with
  | 0 => 4 | 1 => 8 | 2 => 8 | 3 => 8 | 4 => 16 | 5 => 16 | 6 => 32
  | t => if (k.decTab (t - 7)).nib then 4 else 8

/-- K₀ of an element width (R27, R375). -/
def k0Of (bits : Nat) : Nat := 1024 / bits

/-- Exact value of a code of `EFMT` f. -/
def efmtValue (k : Core) (f code : Nat) : FVal :=
  match f with
  | 0 => Fmt.e2m1.decode (code % 16)
  | 1 => Fmt.e4m3.decode (code % 256)
  | 2 => Fmt.e5m2.decode (code % 256)
  | 3 => FVal.ofInt (sInt 8 code)
  | 4 => Fmt.bf16.decode (code % 2 ^ 16)
  | 5 => Fmt.f16.decode (code % 2 ^ 16)
  | t => (k.decTab (t - 7)).decode code

/-- `EFMT` that a scaled form expects for its `ELF` (R374). -/
def elfEfmt (elf : Nat) : Nat := if elf < 4 then elf else 7 + (elf - 4)

/-- `EFMT` of operands A and B for a minor: the element formats of R378, the decode tables `dta` and `dtb`, or the `ELF` of a
format word. -/
def minorEfmt (f dta dtb : Nat) (fw : BitVec 10) : Nat × Nat :=
  match f with
  | 0 => (0, 0) | 1 => (1, 1) | 2 => (2, 2) | 3 => (4, 4) | 4 => (5, 5)
  | 5 => (7 + dta, 7 + dtb)
  | _ => (elfEfmt (fwElf fw), elfEfmt (fwElf fw))

/-- Sizes of the regions of an operand entry (R375): elements, one copy of the scales, one copy of the metadata. -/
structure Regions where
  elems : Nat
  scales : Nat
  meta' : Nat

/-- The regions of operand A (`isB` false) or B. -/
def regionsOf (k0 : Nat) (sparse isB : Bool) (fw : Option (BitVec 10)) : Regions :=
  let kk := if sparse then 2 * k0 else k0
  { elems := if sparse ∧ isB = false then 4096 else 2048
    scales := match fw with | some f => 16 * kk / fwBlock f | none => 0
    meta' := if sparse ∧ isB then 4 * k0 + 16 else 0 }

/-- Bytes that an entry needs (R375). -/
def Regions.size (r : Regions) : Nat := r.elems + 2 * r.scales + 2 * r.meta'

/-! ### The operand word (R374) -/

/-- Reserved bits of an operand word. -/
def opWordReserved (w : Word) : Bool :=
  decide (bitsN w 32 32 ≠ 0) || bit w 19 || decide (bitsN w 14 2 ≠ 0) || decide (bitsN w 6 2 ≠ 0)

/-- Layout tag that an operand expects (R374). -/
def expectedTag (efmt swz : Nat) (t : Bool) : BitVec 16 :=
  BitVec.ofNat 16 (efmt * 4096 + swz * 512 + (if t then 256 else 0))

/-- Illegal-opcode conditions of a dense or sparse operand word (R376, R379). -/
def opWordBad (k : Core) (f : Nat) (sparse : Bool) (w : Word) : Bool :=
  opWordReserved w
  || (decide (f ≠ 5) && decide (bitsN w 20 4 ≠ 0))
  || (decide (bitsN w 26 3 ≠ 0) && bit w 24)
  || (decide (bitsN w 29 3 ≠ 0) && !bit w 25)
  || (sparse && !bit w 25)
  || (decide (f = 5) && ((k.decTab (bitsN w 20 2)).nib != (k.decTab (bitsN w 22 2)).nib))

/-- A disabled ring, a reserved element format, or entries that are too small (R379). -/
def ringTooSmall (r : Ring) (need : Nat) : Bool := r.unusable || decide (ringEntry r.desc < need)

/-! ### Epilogue descriptors (R387) -/

/-- An epilogue descriptor from its words. -/
def EpiDesc.ofWords (w : List Word) : EpiDesc :=
  let g (i : Nat) : Word := w.getD i 0
  { mode := field (g 0) 60 4, dst := field (g 0) 0 60, ofmt := field (g 1) 60 4, ts := bit (g 1) 59, sc := bit (g 1) 58
    bi := bit (g 1) 57, cv := bit (g 1) 56, cvn := field (g 1) 54 2, tr := bit (g 1) 53, cnt := field (g 1) 47 6
    sent := field (g 1) 0 12, scale := field (g 2) 32 32, stride := field (g 2) 0 32, bias := field (g 3) 0 60
    tsa := field (g 4) 0 32, tsb := field (g 4) 32 32 }

/-- Output row bytes of an output format (R387). -/
def ofmtRow (o : Nat) : Nat := match o with | 0 => 64 | 1 => 32 | 2 => 32 | 6 => 8 | _ => 16

/-- Output row bytes of a descriptor (R362, R387). -/
def EpiDesc.rowBytes (d : EpiDesc) (k : Core) : Nat :=
  if d.mode = 2 then 16 * quantBits k d.tfmt.toNat / 8 else ofmtRow d.ofmt.toNat

/-- A reserved code or bit of an epilogue descriptor (R387). -/
def epiReserved (w : List Word) : Bool :=
  let g (i : Nat) : Word := w.getD i 0
  let mode := bitsN (g 0) 60 4
  decide (mode = 0) || decide (4 < mode)
  || (decide (mode = 3) && decide (bitsN (g 0) 5 55 ≠ 0)) || (decide (mode = 4) && decide (bitsN (g 0) 12 48 ≠ 0))
  || (decide (mode ≠ 2) && bit (g 1) 63)
  || decide (bitsN (g 1) 12 35 ≠ 0) || decide (bitsN (g 3) 60 4 ≠ 0) || decide (g 5 ≠ 0) || decide (g 6 ≠ 0) || decide (g 7 ≠ 0)

/-- The scale entry of a quantising epilogue, read at issue (R387). -/
def Env.epiEntry (e : Env) (d : EpiDesc) : Except Stop ScaleEnt :=
  match e.scaleAddr d.sent.toNat with
  | .error q => .error q
  | .ok y => match e.readNow y 64 with
    | .error q => .error q
    | .ok _ => .ok (e.s.scaleEnt y.pa)

/-- The checks of a descriptor's contents (R387). -/
def Env.epiChecks (e : Env) (w : List Word) (d : EpiDesc) : List Stop :=
  let k := e.s.core e.c
  if epiReserved w then [e.illegal] else
  let rb := d.rowBytes k
  if d.mode = 3 then cause (k.ring d.dst.toNat).unusable (.trap cRing (ringVal d.dst.toNat))
  else if d.mode = 4 then
    let n : Word := d.dst.setWidth 64
    match e.sendCheck n with
    | .error q => [q]
    | .ok (_, ch, _) => cause (decide (ch.state ≠ 1) || decide (ch.shape ≠ rb)) (chanTrap n)
  else
    cause (decide (d.dst.toNat % rb ≠ 0)) (.trap cMisaligned (d.dst.setWidth 64))
    ++ cause (decide (d.dst.toNat % rb = 0) && decide (d.stride.toNat % rb ≠ 0)) (.trap cMisaligned (d.stride.setWidth 64))
    ++ stopOf (e.tr .store (d.dst.setWidth 64))

/-- An epilogue descriptor at an address, with the target format of its scale entry, and everything that stops it (R387). -/
def Env.epi (e : Env) (ea : Word) : Except Stop EpiDesc :=
  match e.desc ea 8 64 with
  | .error q => .error q
  | .ok w =>
    let d := EpiDesc.ofWords w
    if d.mode = 2 then
      match e.epiEntry d with
      | .error q => guardStops (cause (epiReserved w) e.illegal ++ [q]) (.ok d)
      | .ok n =>
        let d := { d with tfmt := BitVec.ofNat 4 n.tfmt }
        match tfmtTrap e.tables n with
        | some v => guardStops (cause (epiReserved w) e.illegal) (.error (.trap cIllegal v))
        | none => guardStops (e.epiChecks w d) (.ok d)
    else guardStops (e.epiChecks w d) (.ok d)

/-! ### Queueing an operation (R370, R379) -/

/-- Unfinished operations of queue q: each holds one of the queue's two places (R370). -/
def Core.queueLen (k : Core) (q : Nat) : Nat := (k.mat.filter (fun o => o.q == q)).length

/-- Physical tile of the issuing context's window. -/
def Env.tile (e : Env) (n : Nat) : Nat := physTile e.k.tiles n

/-- Does a paired context issue? -/
def Env.paired (e : Env) : Bool := e.stg.isNone && e.k.pair.isSome

/-- Addresses of an epilogue that its issue translates (R121, R254, R387). -/
def Env.epiAddrs (e : Env) (d : EpiDesc) : List Word :=
  (if d.mode = 1 ∨ d.mode = 2 then [d.dst.setWidth 64] else [])
  ++ (if d.mode = 2 then [(e.s.region e.region.toNat).scale.setWidth 64 + BitVec.ofNat 64 (64 * d.sent.toNat)] else [])

/-- Puts an operation into its queue and marks its tile busy (R76, R370); it keeps the translations of its issue (R121). -/
def Work.queueOp (w : Work) (e : Env) (o : MatOp) : Work :=
  let kept := e.kept ((match o.grp with | some g => [g.w.setWidth 64] | none => []) ++ (match o.epi with | some d => e.epiAddrs d | none => []))
  let w := w.fork e []
  { w with s := w.s.modCore e.c (fun k =>
      ({ k with mat := k.mat ++ [{ o with id := k.nextId, slot := e.idx, rm := e.rmode, paired := e.paired, tlbs := kept }], nextId := k.nextId + 1 } : Core).setBusy o.tile true) }

/-- The epilogue operand of a multiply: none when field b names x0. -/
def Env.epiOf (e : Env) (q : EOp) : Except Stop (Option EpiDesc) :=
  if q.bx = 0 then .ok none else (e.epi q.b).map some

/-- A dense or sparse multiply of minor f (R374, R379): the checks, then the claims of its entries, A before B. -/
def engMul (f : Nat) (sparse : Bool) : EngOp := fun q e w =>
  let k := e.tables
  let fw := modFw q.p
  let ow := q.a
  let fs := minorEfmt f (bitsN ow 20 2) (bitsN ow 22 2) fw
  let k0 := k0Of (efmtBits k fs.1)
  let fwo := if f = 6 then some fw else none
  let ra := bitsN ow 0 5
  let rb := bitsN ow 8 5
  let epi := e.epiOf q
  let stops :=
    cause (decide (2 ≤ k.queueLen (bitsN ow 16 1))) (.forfeit 5)
    ++ cause (opWordBad k f sparse ow) e.illegal
    ++ cause (decide (f = 6) && fwReserved fw) (.trap cIllegal (fwVal fw))
    ++ cause (ringTooSmall (k.ring ra) (regionsOf k0 sparse false fwo).size) (.trap cRing (ringVal ra))
    ++ cause (ringTooSmall (k.ring rb) (regionsOf k0 sparse true fwo).size) (.trap cRing (ringVal rb))
    ++ stopOf epi ++ (if q.bx = 0 then [] else e.forkWait [])
  guardStops stops (match epi with
    | .error x => .error x
    | .ok ed =>
      let a := ((w.s.core e.c).ring ra).claim (bit ow 5)
      let w := { w with s := w.s.modCore e.c (fun k => { k with rings := k.rings.set ra a.2 }) }
      let b := ((w.s.core e.c).ring rb).claim (bit ow 13)
      let w := { w with s := w.s.modCore e.c (fun k => { k with rings := k.rings.set rb b.2 }) }
      .ok (w.queueOp e
        { id := 0, ctx := e.t, gen := e.gen, region := e.region, pc := e.ipc, q := bitsN ow 16 1, tile := e.tile q.dx
          sparse := sparse, fa := fs.1, fb := fs.2, fw := fwo, z := bit ow 17, ck := bit ow 18, word := ow
          a := some ⟨ra, a.1, bit ow 5⟩, b := some ⟨rb, b.1, bit ow 13⟩, grp := none, epi := ed }))

/-- Bytes of a bin row of a grouped operation (R382). -/
def groupRow (ks k0 bits : Nat) (fw : Option (BitVec 10)) : Nat :=
  (ks + 1) * k0 * bits / 8 + (match fw with | some f => 2 * ((ks + 1) * k0 / fwBlock f) | none => 0)

/-- Is the bin channel of a grouped descriptor wrong (R382)? -/
def Env.binBad (e : Env) (n row : Nat) : Bool :=
  match e.s.chans.get? (chanKey e.region.toNat n) with
  | none => true
  | some ch => decide (ch.kind ≠ 3) || !ch.live || decide (ch.rpkg ≠ e.s.pkg.toNat) || decide (ch.rcore ≠ e.c)
      || decide (ch.shape < row) || decide ((e.s.region e.region.toNat).nch.toNat ≤ n)

/-- A grouped multiply of minor f (R381, R382). -/
def engGroup (f : Nat) : EngOp := fun q e w =>
  let k := e.tables
  let fw := modFw q.p
  let fwo := if f = 6 then some fw else none
  match e.desc q.a 8 64 with
  | .error x => guardStops (cause (decide (f = 6) && fwReserved fw) (.trap cIllegal (fwVal fw)) ++ [x]) (.ok w)
  | .ok gw =>
    let g (i : Nat) : Word := gw.getD i 0
    let dta := bitsN (g 1) 22 2
    let dtb := bitsN (g 1) 24 2
    let fs := minorEfmt f dta dtb fw
    let bits := efmtBits k fs.1
    let k0 := k0Of bits
    let ks := bitsN (g 1) 16 6
    let bin := bitsN (g 1) 0 12
    let va : Word := (field (g 0) 0 60).setWidth 64
    let epi := e.epi q.b
    let reserved := decide (bitsN (g 0) 60 4 ≠ 0) || decide (bitsN (g 1) 26 38 ≠ 0) || decide (bitsN (g 2) 38 26 ≠ 0)
      || ((gw.drop 3).any (fun v => decide (v ≠ 0)))
    let wstr : BitVec 32 := field (g 2) 0 32
    let stops :=
      cause (decide (2 ≤ k.queueLen (bitsN (g 1) 14 1))) (.forfeit 5)
      ++ cause (reserved || (decide (f ≠ 5) && decide (bitsN (g 1) 22 4 ≠ 0))
          || (decide (f = 5) && ((k.decTab dta).nib != (k.decTab dtb).nib))
          || (match epi with | .ok d => d.tr | .error _ => false)) e.illegal
      ++ cause (decide (f = 6) && fwReserved fw) (.trap cIllegal (fwVal fw))
      ++ cause (e.binBad bin (groupRow ks k0 bits fwo)) (chanTrap (BitVec.ofNat 64 bin))
      ++ cause (decide (va.toNat % 64 ≠ 0)) (.trap cMisaligned va)
      ++ cause (decide (va.toNat % 64 = 0) && decide (wstr.toNat % 64 ≠ 0)) (.trap cMisaligned (wstr.setWidth 64))
      ++ (match e.tr .load va with
          | .error x => [x]
          | .ok x => cause (!ownSlice e.c x.pa) (.trap cAccess va))
      ++ stopOf epi ++ e.forkWait []
    guardStops stops (match epi with
      | .error x => .error x
      | .ok ed => .ok (w.queueOp e
          { id := 0, ctx := e.t, gen := e.gen, region := e.region, pc := e.ipc, q := bitsN (g 1) 14 1, tile := e.tile q.dx
            sparse := false, fa := fs.1, fb := fs.2, fw := fwo, z := true, ck := bit (g 1) 15, word := 0, a := none, b := none
            grp := some { w := field (g 0) 0 60, ks := ks, half := bitsN (g 1) 12 1, binch := bin, ret := bit (g 1) 13
                          cnt := field (g 2) 32 6, wstr := wstr }
            epi := some ed }))

/-! ### Tile instructions (R385) -/

/-- Places of the epilogue queue: four (R386). -/
def Core.epiFull (k : Core) : Bool := decide (4 ≤ k.epi.length)

/-- Writes a tile for operation `id`. In a paired context the secondary's own unit forms the same contents in its tile (R434), and the
shadow keeps what the tile held at the checkpoint: it takes the contents before the first write by a later operation, and what an
earlier operation writes (R436). -/
def State.writeTile (s : State) (c ctx tile : Nat) (paired : Bool) (id : Nat) (d : List (BitVec 32)) : State :=
  let old := (s.core c).tile tile
  let s := s.modCore c (fun k => k.setTile tile d)
  match (s.ctx c ctx).pair with
  | none => s
  | some p =>
    let keep : Tab (List (BitVec 32)) :=
      if p.ckOp ≤ id then (if (p.shadow.get? tile).isSome then p.shadow else p.shadow.set tile old)
      else if (p.shadow.get? tile).isSome then p.shadow.set tile d else p.shadow
    if !p.primary then s
    else
      let s := s.modPair c ctx (fun p => { p with shadow := keep })
      if paired then s.modCore p.twinCore (fun k => k.setTile tile d) else s

/-- `mzero` (R385). -/
def engMzero : EngOp := fun q e w =>
  .ok { w with s := w.s.writeTile e.c e.t (e.tile q.dx) e.paired (e.s.core e.c).nextId (List.replicate 256 0) }

/-- Puts an entry into the epilogue queue and marks its tile busy (R385). -/
def Work.queueEpi (w : Work) (e : Env) (x : EpiEntry) : Work :=
  let kept := e.kept (if x.kind = 2 then [x.src.setWidth 64] else e.epiAddrs x.desc)
  let w := w.fork e (if x.kind = 2 then (List.range 16).map (fun r => (x.src.toNat + r * x.desc.stride.toNat, 64)) else [])
  { w with s := w.s.modCore e.c (fun k =>
      ({ k with epi := k.epi ++ [{ x with id := k.nextId, rm := e.rmode, paired := e.paired, tlbs := kept }], nextId := k.nextId + 1 } : Core).setBusy x.tile true) }

/-- Stride of a transfer word: 0 means 64 (R385). -/
def xferStride (b : Word) : BitVec 32 := if bitsN b 32 32 = 0 then 64 else field b 32 32

/-- Reserved bits of a transfer word (R385). -/
def xferBad (b : Word) : Bool := decide (bitsN b 6 26 ≠ 0)

/-- The checks of `mtld` and `mtst` (R385). -/
def Env.xferChecks (e : Env) (q : EOp) (acc : Acc) : List Stop :=
  cause (xferBad q.b) e.illegal
  ++ cause (decide (q.a.toNat % 64 ≠ 0)) (.trap cMisaligned q.a)
  ++ cause (decide (q.a.toNat % 64 = 0) && decide ((xferStride q.b).toNat % 64 ≠ 0)) (.trap cMisaligned ((xferStride q.b).setWidth 64))
  ++ stopOf (e.tr acc q.a)
  ++ cause (e.s.core e.c).epiFull (.forfeit 5)

/-- The plain FP32 descriptor of a tile transfer (R385). -/
def plainDesc (dst : BitVec 60) (stride : BitVec 32) (cnt : BitVec 6) : EpiDesc :=
  { mode := 1, dst := dst, ofmt := 0, ts := false, sc := false, bi := false, cv := false, cvn := 0, tr := false, cnt := cnt
    sent := 0, scale := 0, stride := stride, bias := 0, tsa := 0, tsb := 0 }

/-- `mtld` (R385). -/
def engMtld : EngOp := fun q e w =>
  guardStops (e.xferChecks q .load
      ++ e.forkWait ((List.range 16).map (fun r => (q.a.toNat + r * (xferStride q.b).toNat, 64))))
    (.ok (w.queueEpi e
      { kind := 2, ctx := e.t, region := e.region, gen := e.gen, tile := e.tile q.dx
        desc := plainDesc 0 (xferStride q.b) (field q.b 0 6), src := field q.a 0 60 }))

/-- `mtst` (R385). -/
def engMtst : EngOp := fun q e w =>
  guardStops (e.xferChecks q .store)
    (.ok (w.queueEpi e
      { kind := 1, ctx := e.t, region := e.region, gen := e.gen, tile := e.tile q.dx
        desc := plainDesc (field q.a 0 60) (xferStride q.b) (field q.b 0 6) }))

/-- `mepi` (R385). -/
def engMepi : EngOp := fun q e w =>
  let epi := e.epi q.a
  guardStops (stopOf epi ++ cause (e.s.core e.c).epiFull (.forfeit 5) ++ e.forkWait [])
    (match epi with
     | .error x => .error x
     | .ok d => .ok (w.queueEpi e { kind := 1, ctx := e.t, region := e.region, gen := e.gen, tile := e.tile q.dx, desc := d }))

/-! ### The slots -/

/-- Operand values of a tile slot. -/
def Env.opTab (e : Env) (o : OpTab) : EOp :=
  { a := e.xa o.a, b := e.xa o.b, dx := o.d.toNat, ax := o.a.toNat, bx := o.b.toNat, p := o.p }

/-- A prefix is illegal except before a scaled form (R379). -/
def mulMod (scaled : Bool) (p : Option (BitVec 24)) : Option (BitVec 24) := if scaled then modCheck p true false false else p

/-- A multiply slot. -/
def sMul (o : OpTab) (scaled : Bool) (ill : Env → Bool) (eng : EngOp) : SlotDef :=
  { g := o.g.toNat, xs := [o.a, o.b], tiles := [o.d.toNat], sync := true, badMod := mulMod scaled o.p, ill := ill
    check := fun _ => if scaled && fwReserved (modFw o.p) then some (fwVal (modFw o.p)) else none
    run := fun e w => eng (e.opTab o) e w }

/-- A dense or sparse multiply of minor f. -/
def sMm (o : OpTab) (f : Nat) (sparse : Bool) : SlotDef :=
  sMul o (f == 6) (fun e => opWordBad e.tables f sparse (e.xa o.a)) (engMul f sparse)

/-- `mm.e2m1` (R380). -/
def slotMmE2m1 (o : OpTab) : SlotDef := sMm o 0 false
/-- `mm.e4m3` (R380). -/
def slotMmE4m3 (o : OpTab) : SlotDef := sMm o 1 false
/-- `mm.e5m2` (R380). -/
def slotMmE5m2 (o : OpTab) : SlotDef := sMm o 2 false
/-- `mm.bf16` (R380). -/
def slotMmBf16 (o : OpTab) : SlotDef := sMm o 3 false
/-- `mm.f16` (R380). -/
def slotMmF16 (o : OpTab) : SlotDef := sMm o 4 false
/-- `mmd` (R380). -/
def slotMmd (o : OpTab) : SlotDef := sMm o 5 false
/-- `mmb` (R380). -/
def slotMmb (o : OpTab) : SlotDef := sMm o 6 false
/-- `msp.e2m1` (R377, R380). -/
def slotMspE2m1 (o : OpTab) : SlotDef := sMm o 0 true
/-- `msp.e4m3` (R377, R380). -/
def slotMspE4m3 (o : OpTab) : SlotDef := sMm o 1 true
/-- `msp.e5m2` (R377, R380). -/
def slotMspE5m2 (o : OpTab) : SlotDef := sMm o 2 true
/-- `msp.bf16` (R377, R380). -/
def slotMspBf16 (o : OpTab) : SlotDef := sMm o 3 true
/-- `msp.f16` (R377, R380). -/
def slotMspF16 (o : OpTab) : SlotDef := sMm o 4 true
/-- `mspd` (R377, R380). -/
def slotMspd (o : OpTab) : SlotDef := sMm o 5 true
/-- `mspb` (R377, R380). -/
def slotMspb (o : OpTab) : SlotDef := sMm o 6 true

/-- A grouped multiply slot: field b may not name x0 (R381). -/
def sGroup (o : OpTab) (f : Nat) : SlotDef := { sMul o (f == 6) (fun _ => false) (engGroup f) with bad := decide (o.b = 0) }
/-- `mmg.e2m1` (R381 to R383). -/
def slotMmgE2m1 (o : OpTab) : SlotDef := sGroup o 0
/-- `mmg.e4m3` (R381 to R383). -/
def slotMmgE4m3 (o : OpTab) : SlotDef := sGroup o 1
/-- `mmg.e5m2` (R381 to R383). -/
def slotMmgE5m2 (o : OpTab) : SlotDef := sGroup o 2
/-- `mmg.bf16` (R381 to R383). -/
def slotMmgBf16 (o : OpTab) : SlotDef := sGroup o 3
/-- `mmg.f16` (R381 to R383). -/
def slotMmgF16 (o : OpTab) : SlotDef := sGroup o 4
/-- `mmgd` (R381 to R383). -/
def slotMmgd (o : OpTab) : SlotDef := sGroup o 5
/-- `mmgb` (R381 to R383). -/
def slotMmgb (o : OpTab) : SlotDef := sGroup o 6

/-- `mzero` (R385): each twin zeroes its own tile. -/
def slotMzero (o : OpT) : SlotDef :=
  { g := o.g.toNat, tiles := [o.d.toNat], sync := true, both := true, badMod := modCheck o.p false false false
    run := fun e w => engMzero { dx := o.d.toNat } e w }
/-- `mtld` (R385). -/
def slotMtld (o : OpTab) : SlotDef := { sMul o false (fun e => xferBad (e.xa o.b)) engMtld with badMod := modCheck o.p false false false }
/-- `mtst` (R385). -/
def slotMtst (o : OpTab) : SlotDef := { sMul o false (fun e => xferBad (e.xa o.b)) engMtst with badMod := modCheck o.p false false false }
/-- `mepi` (R385). -/
def slotMepi (o : OpTa) : SlotDef :=
  { g := o.g.toNat, xs := [o.a], tiles := [o.d.toNat], sync := true, badMod := modCheck o.p false false false
    run := fun e w => engMepi { a := e.xa o.a, dx := o.d.toNat, ax := o.a.toNat } e w }

/-! ### Meanings -/

/-- MM_E2M1 (R380). -/
def execMmE2m1 (o : OpTab) (s : State) : Out :=
  runSlot (encodePrefix o.p ++ [packR 0x70#7 (0#1 ++ o.d) o.a o.b 0#3 o.g]) (slotMmE2m1 o) s

/-- MM_E4M3 (R380). -/
def execMmE4m3 (o : OpTab) (s : State) : Out :=
  runSlot (encodePrefix o.p ++ [packR 0x70#7 (0#1 ++ o.d) o.a o.b 1#3 o.g]) (slotMmE4m3 o) s

/-- MM_E5M2 (R380). -/
def execMmE5m2 (o : OpTab) (s : State) : Out :=
  runSlot (encodePrefix o.p ++ [packR 0x70#7 (0#1 ++ o.d) o.a o.b 2#3 o.g]) (slotMmE5m2 o) s

/-- MM_BF16 (R380). -/
def execMmBf16 (o : OpTab) (s : State) : Out :=
  runSlot (encodePrefix o.p ++ [packR 0x70#7 (0#1 ++ o.d) o.a o.b 3#3 o.g]) (slotMmBf16 o) s

/-- MM_F16 (R380). -/
def execMmF16 (o : OpTab) (s : State) : Out :=
  runSlot (encodePrefix o.p ++ [packR 0x70#7 (0#1 ++ o.d) o.a o.b 4#3 o.g]) (slotMmF16 o) s

/-- MMD (R380). -/
def execMmd (o : OpTab) (s : State) : Out :=
  runSlot (encodePrefix o.p ++ [packR 0x70#7 (0#1 ++ o.d) o.a o.b 5#3 o.g]) (slotMmd o) s

/-- MMB (R380). -/
def execMmb (o : OpTab) (s : State) : Out :=
  runSlot (encodePrefix o.p ++ [packR 0x70#7 (0#1 ++ o.d) o.a o.b 6#3 o.g]) (slotMmb o) s

/-- MSP_E2M1 (R380). -/
def execMspE2m1 (o : OpTab) (s : State) : Out :=
  runSlot (encodePrefix o.p ++ [packR 0x71#7 (0#1 ++ o.d) o.a o.b 0#3 o.g]) (slotMspE2m1 o) s

/-- MSP_E4M3 (R380). -/
def execMspE4m3 (o : OpTab) (s : State) : Out :=
  runSlot (encodePrefix o.p ++ [packR 0x71#7 (0#1 ++ o.d) o.a o.b 1#3 o.g]) (slotMspE4m3 o) s

/-- MSP_E5M2 (R380). -/
def execMspE5m2 (o : OpTab) (s : State) : Out :=
  runSlot (encodePrefix o.p ++ [packR 0x71#7 (0#1 ++ o.d) o.a o.b 2#3 o.g]) (slotMspE5m2 o) s

/-- MSP_BF16 (R380). -/
def execMspBf16 (o : OpTab) (s : State) : Out :=
  runSlot (encodePrefix o.p ++ [packR 0x71#7 (0#1 ++ o.d) o.a o.b 3#3 o.g]) (slotMspBf16 o) s

/-- MSP_F16 (R380). -/
def execMspF16 (o : OpTab) (s : State) : Out :=
  runSlot (encodePrefix o.p ++ [packR 0x71#7 (0#1 ++ o.d) o.a o.b 4#3 o.g]) (slotMspF16 o) s

/-- MSPD (R380). -/
def execMspd (o : OpTab) (s : State) : Out :=
  runSlot (encodePrefix o.p ++ [packR 0x71#7 (0#1 ++ o.d) o.a o.b 5#3 o.g]) (slotMspd o) s

/-- MSPB (R380). -/
def execMspb (o : OpTab) (s : State) : Out :=
  runSlot (encodePrefix o.p ++ [packR 0x71#7 (0#1 ++ o.d) o.a o.b 6#3 o.g]) (slotMspb o) s

/-- MMG_E2M1 (R383). -/
def execMmgE2m1 (o : OpTab) (s : State) : Out :=
  runSlot (encodePrefix o.p ++ [packR 0x72#7 (0#1 ++ o.d) o.a o.b 0#3 o.g]) (slotMmgE2m1 o) s

/-- MMG_E4M3 (R383). -/
def execMmgE4m3 (o : OpTab) (s : State) : Out :=
  runSlot (encodePrefix o.p ++ [packR 0x72#7 (0#1 ++ o.d) o.a o.b 1#3 o.g]) (slotMmgE4m3 o) s

/-- MMG_E5M2 (R383). -/
def execMmgE5m2 (o : OpTab) (s : State) : Out :=
  runSlot (encodePrefix o.p ++ [packR 0x72#7 (0#1 ++ o.d) o.a o.b 2#3 o.g]) (slotMmgE5m2 o) s

/-- MMG_BF16 (R383). -/
def execMmgBf16 (o : OpTab) (s : State) : Out :=
  runSlot (encodePrefix o.p ++ [packR 0x72#7 (0#1 ++ o.d) o.a o.b 3#3 o.g]) (slotMmgBf16 o) s

/-- MMG_F16 (R383). -/
def execMmgF16 (o : OpTab) (s : State) : Out :=
  runSlot (encodePrefix o.p ++ [packR 0x72#7 (0#1 ++ o.d) o.a o.b 4#3 o.g]) (slotMmgF16 o) s

/-- MMGD (R383). -/
def execMmgd (o : OpTab) (s : State) : Out :=
  runSlot (encodePrefix o.p ++ [packR 0x72#7 (0#1 ++ o.d) o.a o.b 5#3 o.g]) (slotMmgd o) s

/-- MMGB (R383). -/
def execMmgb (o : OpTab) (s : State) : Out :=
  runSlot (encodePrefix o.p ++ [packR 0x72#7 (0#1 ++ o.d) o.a o.b 6#3 o.g]) (slotMmgb o) s

/-- MZERO (R385). -/
def execMzero (o : OpT) (s : State) : Out :=
  runSlot (encodePrefix o.p ++ [packR 0x73#7 (0#1 ++ o.d) 0#6 0#6 0#3 o.g]) (slotMzero o) s

/-- MTLD (R385). -/
def execMtld (o : OpTab) (s : State) : Out :=
  runSlot (encodePrefix o.p ++ [packR 0x73#7 (0#1 ++ o.d) o.a o.b 1#3 o.g]) (slotMtld o) s

/-- MTST (R385). -/
def execMtst (o : OpTab) (s : State) : Out :=
  runSlot (encodePrefix o.p ++ [packR 0x73#7 (0#1 ++ o.d) o.a o.b 2#3 o.g]) (slotMtst o) s

/-- MEPI (R385). -/
def execMepi (o : OpTa) (s : State) : Out :=
  runSlot (encodePrefix o.p ++ [packR 0x73#7 (0#1 ++ o.d) o.a 0#6 3#3 o.g]) (slotMepi o) s

end Sys2Proof.Machine
end

