-- ==== Sys2Proof/Machine/Engine.lean ====
section
/-! DEFINITION. Copies, sends, receives, end-of-stream and broadcasts as they issue (R395 to R408, R414). -/

namespace Sys2Proof.Machine

/-! ### Copies (R397 to R403) -/

/-- Copies of the core that have not ended: at most 64 (R395). -/
def Env.copyRoom (e : Env) : List Stop := cause (decide (64 ≤ (e.s.core e.c).copies.length)) (.forfeit 6) ++ e.queueRoom 1

/-- `LEN` of a copy control word. -/
def ctlLen (w : Word) : Nat := bitsN w 40 24

/-- A value that is not a multiple of 16: the first in the order of R399. -/
def misaligned16 (l : List Word) : List Stop :=
  match l.find? (fun v => decide (v.toNat % 16 ≠ 0)) with
  | some v => [.trap cMisaligned v]
  | none => []

/-- A copy from its control word (R397). -/
def Env.mkCopy (e : Env) (ctl src dst : Word) (rows : Nat) (sstr dstr : Word) (ring : Option Nat) : Copy :=
  let tmo := bitsN ctl 16 8
  { id := (e.s.core e.c).nextId, ctx := e.t, region := e.region, opn := field ctl 24 16, src := field src 0 60
    dst := field dst 0 60, rows := rows, len := ctlLen ctl, sstr := sstr, dstr := dstr, tag := field ctl 0 6
    cq := field ctl 14 2, mb := bit ctl 13, deadline := if tmo = 0 then none else some (e.s.time + 1000 * tmo), ring := ring
    rm := e.rmode, tlbs := e.kept (match ring with | some _ => [src] | none => [src, dst]) }

/-- Forks a copy: its request enters the command queue (R395, R399). -/
def Work.forkCopy (w : Work) (e : Env) (x : Copy) : Work :=
  { w with s := w.s.modCore e.c (fun k =>
      { k with copies := k.copies ++ [{ x with id := k.nextId }], cmdq := k.cmdq ++ [.copy k.nextId], nextId := k.nextId + 1 }) }

/-- Sources of a copy, for R174. -/
def copySources (src : Word) (rows len : Nat) (sstr : Word) : List (Nat × Nat) :=
  (List.range rows).filterMap (fun r => if len = 0 then none else some ((src + BitVec.ofNat 64 r * sstr).toNat, len))

/-- `CopyIssue` (R399). -/
def Env.copyIssue (e : Env) (w : Work) (ctl src dst : Word) (rows : Nat) (sstr dstr : Word) (reserved : Bool) : Except Stop Work :=
  guardStops
    (e.copyRoom ++ cause (reserved || decide (bitsN ctl 6 7 ≠ 0)) e.illegal
      ++ misaligned16 [src, dst, BitVec.ofNat 64 (ctlLen ctl), sstr, dstr]
      ++ stopOf (e.tr .load src) ++ stopOf (e.tr .store dst)
      ++ e.forkWait (copySources src rows (ctlLen ctl) sstr))
    (.ok ((w.fork e (copySources src rows (ctlLen ctl) sstr)).forkCopy e (e.mkCopy ctl src dst rows sstr dstr none)))

/-- `copy` (R398, R399). -/
def engCopy : EngOp := fun q e w => e.copyIssue w q.d q.a q.b 1 0 0 false

/-- `copy2` (R398, R399). -/
def engCopy2 : EngOp := fun q e w =>
  match e.desc q.d 4 32 with
  | .error x => .error x
  | .ok l =>
    let g (i : Nat) : Word := l.getD i 0
    e.copyIssue w (g 0) q.a q.b (bitsN (g 1) 0 16 + 1) (g 2) (g 3) (decide (bitsN (g 1) 16 48 ≠ 0))

/-- `copyr` (R398, R401): field b is the ring's number. -/
def engCopyr : EngOp := fun q e w =>
  let r := (e.s.core e.c).ring q.bx
  guardStops
    (e.copyRoom ++ cause (decide (bitsN q.d 6 7 ≠ 0)) e.illegal
      ++ cause (r.unusable || decide (ctlLen q.d ≠ ringEntry r.desc)) (.trap cRing (ringVal q.bx))
      ++ misaligned16 [q.a] ++ stopOf (e.tr .load q.a) ++ e.forkWait [(q.a.toNat, ctlLen q.d)])
    (.ok ((w.fork e [(q.a.toNat, ctlLen q.d)]).forkCopy e (e.mkCopy q.d q.a 0 1 0 0 (some q.bx))))

/-- `ccan` (R403): the cancellation is on its way to the streamers of every copy of the core and region with the operation
number that has not ended. -/
def engCcan : EngOp := fun q e w =>
  .ok { w with s := w.s.modCore e.c (fun k => { k with copies := k.copies.map (fun (x : Copy) =>
    if x.opn = field q.a 0 16 ∧ x.region = e.region ∧ x.cancelling = none then { x with cancelling := some 4 } else x) }) }

/-! ### Sends and receives (R404 to R406) -/

/-- Alignment of a channel element's source or destination (R404). -/
def elemAlign (ch : Chan) : Nat := Nat.min ch.shape 16

/-- A slot that would park: context 0, a staged command and an occupied waiter slot forfeit instead (R214, R268, R417). -/
def Work.parkOr (w : Work) (e : Env) (occupied : Bool) (x : Xfer) : Except Stop Work :=
  if e.t = 0 ∨ e.stg.isSome ∨ occupied ∨ 4096 ≤ e.c then .error (.forfeit 9) else .ok { w with xfer := x }

/-- The tags of what an endpoint sends: those of its tag word, or for a token those of the endpoint's last `send` (R265; log 103). -/
def SendEp.tagsOf (p : SendEp) (token : Bool) (tw : Word) : BitVec 12 := if token then p.tags else field tw 0 12

/-- Takes a credit and queues an element or token (R395, R404, R406). -/
def Work.queueSend (w : Work) (e : Env) (key i : Nat) (src : Word) (token woken : Bool) (tw : Word) : Work :=
  let tags := (w.s.endpoint key i).elim (field tw 0 12) (fun p => p.tagsOf token tw)
  let w := w.fork e (match w.s.chans.get? key with | some ch => if token then [] else [(src.toNat, ch.shape)] | none => [])
  let s := w.s.modChan key (fun ch => ch.modEp i (fun p => { p.takeCredit woken with eos := p.eos || token, tags := tags }))
  let s := if token then (match s.chans.get? key with
      | some ch => if ch.state = 1 then s.setChanState key 2 else s
      | none => s) else s
  { w with s := s.modCore e.c (fun q =>
      { q with cmdq := q.cmdq ++ [.send key i (field src 0 60) token false (field tags 6 6) (field tags 0 6) e.t e.region
          (if token then [] else e.kept [src])] }) }

/-- The tag word that touches no counter. -/
def noTags : Word := 0xFFF

/-- The wake that the issuing bundle carries: none for a staged command, which is no bundle (R268, R416). -/
def Env.wake (e : Env) : Wake := if e.stg.isSome then .none else e.k.wake

/-- The common part of `send` and `eos`: a credit, or the waiter slot (R214, R404, R406). -/
def Env.sendOrPark (e : Env) (w : Work) (key i : Nat) (src : Word) (token : Bool) (tw : Word) : Except Stop Work :=
  guardStops (e.queueRoom 1) (
    match e.wake, w.s.endpoint key i with
    | .credit a d, some _ => .ok (w.queueSend e key i a token true d)
    | _, some p =>
      if p.free then .ok (w.queueSend e key i src token false tw)
      else w.parkOr e p.waiter.isSome (.parkSend key i src tw)
    | _, none => .error (chanTrap e.word.toNat))

/-- `send` (R404). -/
def engSend : EngOp := fun q e w =>
  let woken := match e.wake with | .credit _ _ => true | _ => false
  let tw := if q.dx = 0 then noTags else q.d
  match e.sendCheck q.imm with
  | .error x => guardStops (cause (decide (q.dx ≠ 0) && decide (bitsN q.d 12 52 ≠ 0) && !woken) e.illegal ++ [x]) (.ok w)
  | .ok (key, ch, i) =>
    if woken then e.sendOrPark w key i q.a false tw else
    guardStops
      (cause (decide (q.dx ≠ 0) && decide (bitsN q.d 12 52 ≠ 0)) e.illegal
        ++ cause (decide (q.a.toNat % elemAlign ch ≠ 0)) (.trap cMisaligned q.a)
        ++ stopOf (e.tr .load q.a) ++ e.forkWait [(q.a.toNat, ch.shape)])
      (e.sendOrPark w key i q.a false tw)

/-- `eos` (R406). -/
def engEos : EngOp := fun q e w =>
  match e.sendCheck q.imm with
  | .error x => .error x
  | .ok (key, _, i) => e.sendOrPark w key i 0 true noTags

/-- Splits n bytes at an address where pages end. -/
def pagePieces (va n : Nat) : List (Nat × Nat) :=
  let room := 65536 - va % 65536
  if n ≤ room then [(va, n)] else [(va, room), (va + room, n - room)]

/-- The destination of a `recv` with field a nonzero: aligned, direct, in the core's own slice and owned by it (R405). -/
def Env.recvDst (e : Env) (ch : Chan) (a : Word) : Except Stop (List (Nat × Nat)) :=
  if a.toNat % elemAlign ch ≠ 0 then .error (.trap cMisaligned a)
  else (pagePieces a.toNat ch.shape).foldr (fun p r =>
    match e.tr .store (BitVec.ofNat 64 p.1), r with
    | .error x, _ => .error x
    | .ok x, r =>
      if leafL x.leaf ∨ ownSlice e.c x.pa = false then .error (.trap cAccess (BitVec.ofNat 64 p.1)) else r.map (fun l => (x.pa, p.2) :: l)) (.ok [])

/-- Marks the x register of an E slot as awaiting a result: it fills no latch (R64, R396). -/
def Work.pendE (w : Work) (e : Env) (d : BitVec 6) : Work :=
  if dN d ∨ dReg d = 0 then w else w.modCtx e (fun k => k.markX (dReg d))

/-- Pops element i for a `recv` (R405): the receipt and the credit follow when the copy has performed. A delivered token ends
the channel (R216). -/
def Work.recvPop (w : Work) (e : Env) (key : Nat) (ch : Chan) (i : Nat) (x : Elem) (d : BitVec 6) (dst : Option (List (Nat × Nat))) : Work :=
  let (rep, w) := w.number e
  let s := w.s.modChan key (fun ch => { ch with elems := listDel ch.elems i, popped := ch.popped + 1 })
  let s := if x.token then s.setChanState key 3 else s
  let s := s.fly e.c (dstRecv key) (.recv e.t (destReg false d) key x (if x.token then none else dst)
    (ch.popped + BitVec.ofNat 32 (e.popsBefore (key % 4096) 32))) rep e.pc e.idx
  ({ w with s := s } : Work).pendE e d

/-- `recv` (R405). -/
def recvRun (d : BitVec 6) (ax : Nat) (n a : Word) (e : Env) (w : Work) : Except Stop Work :=
  match e.recvCheck n with
  | .error x => .error x
  | .ok (key, ch) =>
    match e.k.wake with
    | .element a' slot =>
      (match ch.reservedAt slot with
       | none => .error (.forfeit 9)
       | some i => match ch.elems[i]? with
         | none => .error (.forfeit 9)
         | some x =>
           if ax = 0 then .ok (w.recvPop e key ch i x d none)
           else match e.recvDst ch a' with
             | .error q => .error q
             | .ok pa => .ok (w.recvPop e key ch i x d (some pa)))
    | _ =>
      let dst := if ax = 0 then .ok none else (e.recvDst ch a).map some
      match dst with
      | .error q => .error q
      | .ok dst =>
        match ch.oldest (e.popsBefore (key % 4096) 32) with
        | none => w.parkOr e ch.rwaiter.isSome (.parkRecv key a)
        | some i => match ch.elems[i]? with
          | none => .error (.forfeit 9)
          | some x => .ok (w.recvPop e key ch i x d dst)

/-! ### Broadcast (R408) -/

/-- `bcast` (R408). -/
def engBcast : EngOp := fun q e w =>
  let bad := cause (decide (q.dx ≠ 0) && decide (bitsN q.d 12 52 ≠ 0)) e.illegal
  let tw := if q.dx = 0 then noTags else q.d
  match e.chan q.imm with
  | .error x => guardStops (bad ++ [x]) (.ok w)
  | .ok (key, ch) =>
    guardStops
      (bad ++ cause (decide (ch.kind ≠ 2) || ch.ef4 || decide (ch.state ≠ 1) || decide (ch.rpkg ≠ e.s.pkg.toNat)
            || decide (ch.rcore ≠ e.c)) (chanTrap q.imm)
        ++ cause (decide (q.a.toNat % elemAlign ch ≠ 0)) (.trap cMisaligned q.a)
        ++ stopOf (e.tr .load q.a) ++ e.forkWait [(q.a.toNat, ch.shape)]
        ++ cause (!ch.bcast) (.forfeit 6) ++ e.queueRoom 1)
      (let w := w.fork e [(q.a.toNat, ch.shape)]
       let s := w.s.modChan key (fun ch => { ch with bcast := false })
       .ok { w with s := s.modCore e.c (fun k =>
         { k with cmdq := k.cmdq ++ [.send key 0 (field q.a 0 60) false true (field tw 6 6) (field tw 0 6) e.t e.region (e.kept [q.a])] }) })

/-! ### The slots (R396) -/

/-- Operand values of an R slot. -/
def Env.opDab (e : Env) (o : OpDab) : EOp :=
  { d := e.xOld o.d, a := e.xa o.a, b := e.xa o.b, dx := dReg o.d, ax := o.a.toNat, bx := o.b.toNat, p := o.p }
/-- Operand values of a channel slot; the channel number is zero-extended. -/
def Env.opDai (e : Env) (o : OpDai) : EOp :=
  { d := e.xOld o.d, a := e.xa o.a, dx := dReg o.d, ax := o.a.toNat, imm := immU o.p o.i }

/-- A tag word with a nonzero reserved bit (R404); a woken slot does not read it again (R416). -/
def Env.badTags (e : Env) (o : OpDai) : Bool :=
  decide (dReg o.d ≠ 0) && decide (bitsN (e.xOld o.d) 12 52 ≠ 0) && (match e.k.wake with | .credit _ _ => false | _ => true)

/-- A copy slot whose fields d, a and b are sources. -/
def sCopy (o : OpDab) (xs : List (BitVec 6)) (bad : Bool) (ctl : Bool) (eng : EngOp) : SlotDef :=
  { g := o.g.toNat, xs := xs, xo := [dReg o.d], bad := dN o.d || bad, sync := true, badMod := modCheck o.p false false false
    ill := fun e => ctl && decide (bitsN (e.xOld o.d) 6 7 ≠ 0)
    run := fun e w => eng (e.opDab o) e w }
/-- `copy` (R398). -/
def slotCopy (o : OpDab) : SlotDef := sCopy o [o.a, o.b] false true engCopy
/-- `copy2` (R398). -/
def slotCopy2 (o : OpDab) : SlotDef := sCopy o [o.a, o.b] false false engCopy2
/-- `copyr` (R398, R401): ring numbers above 31 are illegal (R287). -/
def slotCopyr (o : OpDab) : SlotDef := sCopy o [o.a] (decide (31 < o.b.toNat)) true engCopyr
/-- `ccan` (R403). -/
def slotCcan (o : OpA) : SlotDef :=
  { g := o.g.toNat, xs := [o.a], sync := true, badMod := modCheck o.p false false false
    run := fun e w => engCcan { a := e.xa o.a, ax := o.a.toNat } e w }

/-- A channel slot with a source element at xa and a tag word in xd. -/
def sChan (o : OpDai) (eng : EngOp) : SlotDef :=
  { g := o.g.toNat, xs := [o.a], xo := [dReg o.d], bad := dN o.d, sync := true, ill := fun e => e.badTags o
    run := fun e w => eng (e.opDai o) e w }
/-- `send` (R404). -/
def slotSend (o : OpDai) : SlotDef := sChan o engSend
/-- `bcast` (R408). -/
def slotBcast (o : OpDai) : SlotDef := sChan o engBcast
/-- `eos` (R406). -/
def slotEos (o : OpI) : SlotDef :=
  { g := o.g.toNat, sync := true, run := fun e w => engEos { imm := immU o.p o.i } e w }
/-- `recv` (R405). -/
def slotRecv (o : OpDai) : SlotDef :=
  { g := o.g.toNat, xs := [o.a], xe := some o.d, sync := true
    run := fun e w => recvRun o.d o.a.toNat (immU o.p o.i) (e.xa o.a) e w }

/-! ### Meanings -/

/-- COPY (R399). -/
def execCopy (o : OpDab) (s : State) : Out := runSlot (encodePrefix o.p ++ [packR 0x74#7 o.d o.a o.b 0#3 o.g]) (slotCopy o) s

/-- COPY2 (R399). -/
def execCopy2 (o : OpDab) (s : State) : Out :=
  runSlot (encodePrefix o.p ++ [packR 0x74#7 o.d o.a o.b 1#3 o.g]) (slotCopy2 o) s

/-- COPYR (R401). -/
def execCopyr (o : OpDab) (s : State) : Out :=
  runSlot (encodePrefix o.p ++ [packR 0x74#7 o.d o.a o.b 2#3 o.g]) (slotCopyr o) s

/-- CCAN (R403). -/
def execCcan (o : OpA) (s : State) : Out := runSlot (encodePrefix o.p ++ [packR 0x74#7 0#6 o.a 0#6 3#3 o.g]) (slotCcan o) s

/-- SEND (R404). -/
def execSend (o : OpDai) (s : State) : Out := runSlot (encodePrefix o.p ++ [packI 0x75#7 o.d o.a o.i o.g]) (slotSend o) s

/-- RECV (R405). -/
def execRecv (o : OpDai) (s : State) : Out := runSlot (encodePrefix o.p ++ [packI 0x76#7 o.d o.a o.i o.g]) (slotRecv o) s

/-- EOS (R406). -/
def execEos (o : OpI) (s : State) : Out := runSlot (encodePrefix o.p ++ [packI 0x77#7 0#6 0#6 o.i o.g]) (slotEos o) s

/-- BCAST (R408). -/
def execBcast (o : OpDai) (s : State) : Out := runSlot (encodePrefix o.p ++ [packI 0x78#7 o.d o.a o.i o.g]) (slotBcast o) s

end Sys2Proof.Machine
end

