-- ==== Sys2Proof/Machine/Branch.lean ====
section
/-! DEFINITION. Branches, calls, jumps, loops and control registers (R75, R83 to R93, R314 to R319, R466). -/

namespace Sys2Proof.Machine

/-! ### Transfers -/

/-- A B slot: it transfers when p`c` XOR n holds (R289, R315). -/
def sBranch (o : OpB) (n isCall : Bool) : SlotDef :=
  { link := isCall
    run := fun e w =>
      if (e.k.rp o.c.toNat != n) = true then
        let target := bundleOffset e.pc (immB o.p o.o)
        .ok { w with xfer := if isCall then .call target else .goto target }
      else .ok w }

/-- `br` (R315). -/
def slotBr (o : OpB) : SlotDef := sBranch o false false
/-- `brn` (R315). -/
def slotBrn (o : OpB) : SlotDef := sBranch o true false
/-- `call` (R315). -/
def slotCall (o : OpB) : SlotDef := sBranch o false true
/-- `calln` (R315). -/
def slotCalln (o : OpB) : SlotDef := sBranch o true true

/-- `jr` and `callr`: the target's checks are made in the jump's own bundle (R316). -/
def sJump (o : OpA) (isCall : Bool) : SlotDef :=
  { g := o.g.toNat, xs := [o.a], link := isCall, badMod := modCheck o.p false false false
    run := fun e w =>
      let a := e.xa o.a
      if bitsN a 0 2 ≠ 0 then .error (.trap cMisaligned a)
      else if bitsN a 60 4 ≠ 0 then .error (.trap cTranslation a)
      else .ok { w with xfer := if isCall then .call (field a 0 60) else .goto (field a 0 60) } }

/-- `jr` (R316). -/
def slotJr (o : OpA) : SlotDef := sJump o false
/-- `callr` (R316). -/
def slotCallr (o : OpA) : SlotDef := sJump o true

/-- `loop` (R318): unguarded; d is read, and `N` must be 0. -/
def slotLoop (o : OpL) : SlotDef :=
  { xo := [dReg o.d], bad := dN o.d
    run := fun e w => .ok (w.modCtx e (fun k => { k with
      lc := if e.xOld o.d = 0 then 1 else e.xOld o.d, ls := e.next, le := bundleOffset e.pc (immL o.p o.i) })) }

/-! ### Control registers -/

/-- Numbers that name a register on compute cores (R86). -/
def crNames : List Nat :=
  [0x000, 0x001, 0x002, 0x003, 0x004, 0x005, 0x010, 0x011, 0x012, 0x013, 0x018, 0x019, 0x01A, 0x020, 0x021, 0x022, 0x040, 0x041,
   0x080, 0x081, 0x082, 0x083, 0x084, 0x085]
/-- Numbers that name a machine register, on service cores only (R466). -/
def crMachine : List Nat := [0x100, 0x101, 0x102, 0x108, 0x109, 0x10A, 0x10B]

/-- Does n name a register on core c (R85)? -/
def crExists (c n : Nat) : Bool := crNames.contains n || (decide (4096 ≤ c) && crMachine.contains n)

/-- Level that a register number needs (R85). -/
def crLevel (n : Nat) : Nat := if n < 0x80 then 0 else if n < 0x100 then 1 else 3

/-- The value of control register n (R86, R466). On a service core `core` is the number of its die (DESIGN CHOICE, log 108). -/
def Env.crRead (e : Env) (n : Nat) : Word :=
  let k := e.k
  match n with
  | 0x000 => BitVec.ofNat 64 e.t
  | 0x001 => BitVec.ofNat 64 (e.c % 4096)
  | 0x002 => BitVec.ofNat 64 (clusterOf e.c)
  | 0x003 => BitVec.ofNat 64 (dieOf e.c)
  | 0x004 => e.s.pkg.setWidth 64
  | 0x005 => k.region.setWidth 64
  | 0x010 => k.status
  | 0x011 => k.fflags.setWidth 64
  | 0x012 => k.frm.setWidth 64
  | 0x013 => k.tiles
  | 0x018 => k.lc
  | 0x019 => k.ls.setWidth 64
  | 0x01A => k.le.setWidth 64
  | 0x020 => k.ulvec.setWidth 64
  | 0x021 => k.uepc.setWidth 64
  | 0x022 => k.uval
  | 0x040 => BitVec.ofNat 64 (e.s.core e.c).cycle
  | 0x041 => BitVec.ofNat 64 e.s.time
  | 0x080 => k.cause
  | 0x081 => k.epc.setWidth 64
  | 0x082 => k.tval
  | 0x083 => k.tframe.setWidth 64
  | 0x084 => k.tvec.setWidth 64
  | 0x085 => k.npc.setWidth 64
  | 0x100 => BitVec.ofNat 64 (bodyOf (e.c - 4096) + (if k.newImage then 8 else 0)
      + (if (e.s.body (bodyOf (e.c - 4096))).probation.isSome then 16 else 0))
  | 0x101 => (e.s.body (bodyOf (e.c - 4096))).slot.setWidth 64
  | 0x102 => k.mhb
  | 0x108 => field e.s.meas 0 64
  | 0x109 => field e.s.meas 64 64
  | 0x10A => field e.s.meas 128 64
  | 0x10B => field e.s.meas 192 64
  | _ => 0

/-- A bundle address with bits [1:0] cleared (R86). -/
def addr60 (v : Word) : BitVec 60 := field v 0 60 &&& ~~~(3#60)

/-- Physical tiles in the windows, which `win` gives, of the contexts of region q and its descendants on core c that are loading, running
or stopped (R75). -/
def State.regionTiles (s : State) (c q : Nat) (win : Nat → Ctx → Word) : List Nat :=
  ((List.range 16).map (fun u =>
    let k := s.ctx c u
    if (k.mode == .loading || k.mode == .running || k.mode == .stopped) && s.within k.region.toNat q then windowTiles (win u k) else [])).flatten

/-- Distinct physical tiles in the windows of the contexts of region q and its descendants on core c, with context t's window
taken as `new` (R75). -/
def State.tileUse (s : State) (c t q : Nat) (new : Word) : Nat :=
  (uniq (s.regionTiles c q (fun u k => if u = t then new else k.tiles))).length

/-- Is a window value permitted for context t of core c (R75)? A service core has no tiles (R14): its windows are empty. -/
def State.tilesOk (s : State) (c t : Nat) (v : Word) : Bool :=
  decide (bitsN v 0 5 + winCount v ≤ 32) && (decide (c < 4096) || decide (winCount v = 0))
  && (s.pathUp s.depth (s.ctx c t).region.toNat).all (fun q => decide (s.tileUse c t q v ≤ s.effTiles q))

/-- A heartbeat (R464, R466): every write of `mhb` counts, but the cores of a body that has failed write no more (R99). -/
def State.beat (s : State) (c t : Nat) (v : Word) : State :=
  let s := s.modCtx c t (fun k => { k with mhb := v })
  if (s.body (bodyOf (c - 4096))).failed then s else s.modBody (bodyOf (c - 4096)) (fun b => { b with beats := b.beats.set (c - 4096) s.time })

/-- Writes control register n (R6, R7, R86, R319): read-only registers and fields and reserved bits are left. -/
def Work.crWrite (w : Work) (e : Env) (n : Nat) (v : Word) : Except Stop Work :=
  match n with
  | 0x010 => .ok (w.modCtx e (fun k => { k with status := (k.status &&& ~~~(0x1F20#64)) ||| (v &&& 0x1F20#64) }))
  | 0x011 => .ok (w.modCtx e (fun k => { k with fflags := field v 0 5 }))
  | 0x012 => .ok (w.modCtx e (fun k => { k with frm := field v 0 2 }))
  | 0x013 =>
    let x := v &&& 0x3F1F#64
    if e.s.tilesOk e.c e.t x then .ok (w.modCtx e (fun k => { k with tiles := x })) else .error (.trap cTileWindow v)
  | 0x018 => .ok (w.modCtx e (fun k => { k with lc := v }))
  | 0x019 => .ok (w.modCtx e (fun k => { k with ls := addr60 v }))
  | 0x01A => .ok (w.modCtx e (fun k => { k with le := addr60 v }))
  | 0x020 => .ok (w.modCtx e (fun k => { k with ulvec := addr60 v }))
  | 0x080 => .ok (w.modCtx e (fun k => { k with cause := v &&& 0xFFFF#64 }))
  | 0x081 => .ok (w.modCtx e (fun k => { k with epc := field v 0 60 }))
  | 0x082 => .ok (w.modCtx e (fun k => { k with tval := v }))
  | 0x083 => .ok (w.modCtx e (fun k => { k with tframe := field v 0 60 }))
  | 0x084 => .ok (w.modCtx e (fun k => { k with tvec := addr60 v }))
  | 0x085 => .ok (w.modCtx e (fun k => { k with npc := field v 0 60 }))
  | 0x102 => .ok { w with s := w.s.beat e.c e.t v }
  | _ => .ok w

/-- A number that names no register (R319). -/
def crCheck (n : Word) (e : Env) : Option Word :=
  if crExists e.c n.toNat then none else some (BitVec.ofNat 64 (2 * 2 ^ 32 + n.toNat % 2 ^ 32))

/-- `crr` (R319). -/
def slotCrr (o : OpDi) : SlotDef :=
  { g := o.g.toNat, xd := some o.d, check := crCheck (immU o.p o.i), lvl := crLevel (immU o.p o.i).toNat
    run := fun e w => .ok (w.outX e o.d (e.crRead (immU o.p o.i).toNat)) }

/-- `crw` (R319). -/
def slotCrw (o : OpAi) : SlotDef :=
  { g := o.g.toNat, xs := [o.a], check := crCheck (immU o.p o.i), lvl := crLevel (immU o.p o.i).toNat
    run := fun e w => w.crWrite e (immU o.p o.i).toNat (e.xa o.a) }

/-! ### Meanings -/

/-- LOOP (R318). -/
def execLoop (o : OpL) (s : State) : Out := runSlot (encode (.loop o)) (slotLoop o) s

/-- BR (R315). -/
def execBr (o : OpB) (s : State) : Out := runSlot (encode (.br o)) (slotBr o) s

/-- BRN (R315). -/
def execBrn (o : OpB) (s : State) : Out := runSlot (encode (.brn o)) (slotBrn o) s

/-- CALL (R315). -/
def execCall (o : OpB) (s : State) : Out := runSlot (encode (.call o)) (slotCall o) s

/-- CALLN (R315). -/
def execCalln (o : OpB) (s : State) : Out := runSlot (encode (.calln o)) (slotCalln o) s

/-- JR (R316). -/
def execJr (o : OpA) (s : State) : Out := runSlot (encode (.jr o)) (slotJr o) s

/-- CALLR (R316). -/
def execCallr (o : OpA) (s : State) : Out := runSlot (encode (.callr o)) (slotCallr o) s

/-- CRR (R319). -/
def execCrr (o : OpDi) (s : State) : Out := runSlot (encode (.crr o)) (slotCrr o) s

/-- CRW (R319). -/
def execCrw (o : OpAi) (s : State) : Out := runSlot (encode (.crw o)) (slotCrw o) s

end Sys2Proof.Machine
end

