-- ==== Sys2Proof/Machine/Routing.lean ====
section
/-! DEFINITION. `route` and `rclose` as they issue (R237, R238, R395, R409, R413). -/

namespace Sys2Proof.Machine

/-- A directory entry (R237). -/
structure DirEnt where
  en : Bool
  ord : Bool
  rnd : Nat
  base : BitVec 60
  /-- experts -/
  nexp : Nat
  /-- declared sources -/
  nsrc : Nat
  srcl : BitVec 60
deriving DecidableEq, Repr

/-- A directory entry from its words (R237). -/
def DirEnt.ofWords (w : List Word) : DirEnt :=
  let g (i : Nat) : Word := w.getD i 0
  { en := bit (g 0) 63, ord := bit (g 0) 62, rnd := bitsN (g 0) 60 2, base := field (g 0) 0 60, nexp := bitsN (g 1) 6 10 + 1
    nsrc := bitsN (g 1) 0 6 + 1, srcl := field (g 2) 0 60 }

/-- Number of a layer and half of a region, for ordered routes not yet closed (R409). -/
def routeKey (region layer half : Nat) : Nat := region * 128 + layer * 2 + half

/-- Room in the route queue of the cluster: 8 entries (R395). -/
def Env.routeRoom (e : Env) : List Stop := cause (decide (8 ≤ (e.s.cluster (clusterOf e.c)).routes.length)) (.forfeit 6)

/-- `tval` of the channel causes of `route` (R102, R409). -/
def layerVal (layer : Nat) : Word := BitVec.ofNat 64 (2 ^ 32 + layer)

/-- The directory entry of a layer of the issuing region, read through the issuing thread's translation. -/
def Env.dirEnt (e : Env) (layer : Nat) : Except Stop DirEnt :=
  let ea : Word := (e.s.region e.region.toNat).expd.setWidth 64 + BitVec.ofNat 64 (32 * layer)
  (e.words64 4 ea).map DirEnt.ofWords

/-- Reserved bits and limits of a route descriptor that do not need the directory (R409). -/
def routeReserved (w : List Word) : Bool :=
  let g (i : Nat) : Word := w.getD i 0
  decide (bitsN (g 0) 60 4 ≠ 0) || decide (bitsN (g 1) 60 4 ≠ 0) || decide (bitsN (g 2) 60 4 ≠ 0)
  || decide (bitsN (g 3) 53 11 ≠ 0) || decide (bitsN (g 3) 6 2 ≠ 0) || ((w.drop 5).any (fun v => decide (v ≠ 0)))
  || decide (4096 < bitsN (g 3) 40 13) || (bit (g 3) 14 && decide (16 < bitsN (g 3) 40 13))

/-- `route` (R409): the job enters the route queue. -/
def engRoute : EngOp := fun q e w =>
  match e.desc q.a 8 64 with
  | .error x => .error x
  | .ok l =>
    let g (i : Nat) : Word := l.getD i 0
    let ntok := bitsN (g 3) 40 13
    let k := bitsN (g 3) 38 2 + 1
    let layer := bitsN (g 3) 32 6
    let half := bitsN (g 3) 15 1
    let stile := bit (g 3) 14
    let tile := bitsN (g 3) 9 5
    let sstr := bitsN (g 4) 32 32
    let rstr := bitsN (g 4) 0 32
    let rrec : Word := (field (g 2) 0 60).setWidth 64
    let dir := e.dirEnt layer
    let cl := e.s.cluster (clusterOf e.c)
    let key := routeKey e.region.toNat layer half
    let rec' := e.addr rrec 32 .store
    let rows := (List.range ntok).map (fun t => (bitsN (g 1) 0 60 + t * rstr, 1))
    let scores := if stile then [] else
      (List.range ntok).map (fun t => (bitsN (g 0) 0 60 + t * sstr, match dir with | .ok d => 4 * d.nexp | .error _ => 4))
    let stops :=
      e.routeRoom ++ cause (routeReserved l) e.illegal
      ++ whenRead dir (fun d =>
          cause (decide (d.nexp < k) || (stile && decide (16 < d.nexp))) e.illegal
          ++ cause (!d.en || (d.ord && cl.opened.contains key)) (.trap cChannel (layerVal layer)))
      ++ cause (stile && decide (winCount e.k.tiles ≤ tile)) (.trap cTileWindow (BitVec.ofNat 64 tile))
      ++ (if ntok = 0 then [] else whenRead rec' (fun x => cause (!ownSlice e.c x.pa) (.trap cAccess rrec)))
      ++ e.forkWait (scores ++ rows)
    guardStops stops (match dir with
      | .error x => .error x
      | .ok d =>
        let job : Job :=
          { core := e.c, ctx := e.t, region := e.region, close := false, layer := layer, half := half, scores := field (g 0) 0 60
            rows := field (g 1) 0 60, rrec := field (g 2) 0 60, ntok := ntok, k := k, tokb := bitsN (g 3) 16 16
            tile := if stile then some (physTile e.k.tiles tile) else none, cqr := bit (g 3) 8
            cnt := field (g 3) 0 6, sstr := sstr, rstr := rstr, nexp := d.nexp, ord := d.ord, rnd := d.rnd, base := d.base }
        let w := w.fork e (scores ++ rows)
        .ok { w with s := w.s.modCluster (clusterOf e.c) (fun c =>
          { c with routes := c.routes ++ [job], opened := if d.ord then key :: c.opened else c.opened }) })

/-- A reserved bit of the operand of `rclose` (R413). -/
def rcloseBad (a : Word) : Bool := decide (bitsN a 6 2 ≠ 0) || decide (bitsN a 9 55 ≠ 0)

/-- `rclose` (R413): it enters the route queue behind every earlier job of the cluster. -/
def engRclose : EngOp := fun q e w =>
  let layer := bitsN q.a 0 6
  let half := bitsN q.a 8 1
  let key := routeKey e.region.toNat layer half
  guardStops (cause (rcloseBad q.a) e.illegal ++ e.routeRoom)
    (.ok { w with s := w.s.modCluster (clusterOf e.c) (fun c =>
      { c with routes := c.routes ++ [{ core := e.c, ctx := e.t, region := e.region, close := true, layer := layer, half := half }]
               opened := c.opened.filter (· != key) }) })

/-- A routing slot. -/
def sRoute (o : OpA) (bad : Word → Bool) (eng : EngOp) : SlotDef :=
  { g := o.g.toNat, xs := [o.a], sync := true, badMod := modCheck o.p false false false, ill := fun e => bad (e.xa o.a)
    run := fun e w => eng { a := e.xa o.a, ax := o.a.toNat } e w }
/-- `route` (R409). -/
def slotRoute (o : OpA) : SlotDef := sRoute o (fun _ => false) engRoute
/-- `rclose` (R413). -/
def slotRclose (o : OpA) : SlotDef := sRoute o rcloseBad engRclose

/-! ### Meanings -/

/-- ROUTE (R409). -/
def execRoute (o : OpA) (s : State) : Out := runSlot (encodePrefix o.p ++ [packR 0x79#7 0#6 o.a 0#6 0#3 o.g]) (slotRoute o) s

/-- RCLOSE (R413). -/
def execRclose (o : OpA) (s : State) : Out :=
  runSlot (encodePrefix o.p ++ [packR 0x79#7 0#6 o.a 0#6 1#3 o.g]) (slotRclose o) s

end Sys2Proof.Machine
end

