-- ==== Sys2Proof/Machine/Thread.lean ====
section
/-! DEFINITION. Thread and task instructions: suspension, creation of continuations, counters, the mailbox, contexts and traps,
pairing, placement points and `realign` (R185, R187, R222, R261 to R270, R415 to R429). -/

namespace Sys2Proof.Machine

/-- Writes the status predicate (R415). -/
def Work.p1 (w : Work) (e : Env) (b : Bool) : Work := w.modCtx e (fun k => k.wp 1 b)

/-- Core c's arrival path has no room (R194). -/
def State.backed (s : State) (c : Nat) : Bool := !s.canArrive c

/-- A slot of the S class or of the E class without prefix (R291). -/
def plain (p : Option (BitVec 24)) : Option (BitVec 24) := modCheck p false false false

/-! ### Suspension (R417, R419) -/

/-- Illegal in context 0 (R417). -/
def notInZero (e : Env) : Option Word := if e.t = 0 then some (illegalVal e.word 0) else none

/-- `yield` (R419). -/
def slotYield (o : Op0) : SlotDef :=
  { g := o.g.toNat, check := notInZero, badMod := plain o.p
    run := fun e w =>
      if !e.s.fenced e.c e.t then .error (.forfeit 9)
      else if e.s.backed e.c then .error (.forfeit 11)
      else .ok { w with xfer := .yield } }

/-- `waitw` (R417, R419). -/
def slotWaitw (o : Op0) : SlotDef :=
  { g := o.g.toNat, badMod := plain o.p
    run := fun e w =>
      if e.t = 0 then (if (e.s.core e.c).notices.isEmpty then .error (.forfeit 9) else .ok w)
      else .ok { w with xfer := .waitw } }

/-- `migr` (R199, R419). -/
def slotMigr (o : OpA) : SlotDef :=
  { g := o.g.toNat, xs := [o.a], check := notInZero, badMod := plain o.p
    run := fun e w =>
      match e.tr .load (e.xa o.a) with
      | .error q => .error q
      | .ok x =>
        let n := homeOf x.leaf x.pa
        if !e.s.fenced e.c e.t then .error (.forfeit 9)
        else if n = e.c ∧ e.s.backed e.c then .error (.forfeit 11)
        else .ok { w with xfer := .migr false n } }

/-! ### Creating continuations (R420) -/

/-- Sends a new record through the command queue, once its budget allows it (R178, R190, R420). `cluster` and n are the target. -/
def Env.create (e : Env) (w : Work) (rcd : Rec) (cluster : Bool) (n : Nat) : Except Stop Work :=
  let direct := !cluster && e.s.acceptsRegion n e.region.toNat
  guardStops
    (cause (!e.s.fenced e.c e.t) (.forfeit 9) ++ e.queueRoom 1
      ++ cause (direct && decide (n = e.c) && e.s.backed e.c) (.forfeit 11))
    (let w := w.fork e []
     let s := w.s.release e.c e.t
     if !s.contRoom e.region.toNat then .ok (({ w with s := s } : Work).p1 e false)
     else
       let rcd := { rcd with m := false, s := false, ext := false, hop := 0, region := e.region, prio := s.prio e.region.toNat }
       let cont : Cont := { rcd := rcd, pair := s.pointOf e.c, toCluster := !direct }
       let target := if cluster ∨ direct then n else n / 8
       let s := (s.contStart e.region.toNat).modCore e.c (fun k => { k with cmdq := k.cmdq ++ [.rcd cont target] })
       .ok (({ w with s := s } : Work).p1 e true))

/-- `launch` (R420): the image, then the target word. -/
def slotLaunch (o : OpAb) : SlotDef :=
  { g := o.g.toNat, xs := [o.a, o.b], sync := true, badMod := plain o.p, ill := fun e => !targetOk (e.xa o.b)
    run := fun e w =>
      match e.addr (e.xa o.a) 64 .load with
      | .error q => .error q
      | .ok _ =>
        match e.words64 8 (e.xa o.a) with
        | .error q => .error q
        | .ok l =>
          let b := e.xa o.b
          e.create w (Rec.ofWords l) (bit b 63) (bitsN b 0 (if bit b 63 then 9 else 12)) }

/-- The record of a `spawn`: the issuer's x1 to x6 and p1 to p7 from before the bundle (R420). -/
def Env.spawnRec (e : Env) (pc : BitVec 60) : Rec :=
  { pc := pc, p := e.k.p.extractLsb' 1 7, region := e.region
    xs := #v[e.k.rx 1, e.k.rx 2, e.k.rx 3, e.k.rx 4, e.k.rx 5, e.k.rx 6] }

/-- `spawn` and `spawnc`: the target's number in the low n bits of A (R420). -/
def sSpawn (o : OpAb) (cluster : Bool) (n : Nat) : SlotDef :=
  { g := o.g.toNat, xs := [o.a, o.b], sync := true, badMod := plain o.p, ill := fun e => decide (2 ^ n ≤ (e.xa o.a).toNat)
    run := fun e w =>
      let b := e.xa o.b
      if bitsN b 0 2 ≠ 0 ∨ bitsN b 60 4 ≠ 0 then .error (.trap cMisaligned b)
      else e.create w (e.spawnRec (field b 0 60)) cluster (e.xa o.a).toNat }
/-- `spawn` (R420). -/
def slotSpawn (o : OpAb) : SlotDef := sSpawn o false 12
/-- `spawnc` (R420). -/
def slotSpawnc (o : OpAb) : SlotDef := sSpawn o true 9

/-! ### Counters (R261 to R270, R421, R422) -/

/-- Changes counter n of the issuing core. -/
def Work.modCtr (w : Work) (e : Env) (n : Nat) (f : Counter → Counter) : Work :=
  { w with s := w.s.modCore e.c (fun k => k.modCtr n f) }

/-- The counters of a tenant on core c: those of the core, or of the tenant's saved state; none where it has neither. -/
def State.ctrsOf (s : State) (c : Nat) (tag : BitVec 7) : Option (Tab Counter) :=
  if (s.core c).tag = tag then some (s.core c).ctrs
  else (s.tenants.find? (fun t => t.core == c && t.tag == tag)).map (·.ctrs)

/-- n increments of counter `ctr` of core c for a tenant: a counter whose region is pre-empted, or whose tenant is not resident,
receives them in its saved image (R266); of a tenant that has no state on the core there is none (log 100). -/
def State.addCtr (s : State) (c ctr n : Nat) (tag : BitVec 7) : State :=
  if n = 0 then s else
  let add (t : Tab Counter) : Tab Counter := t.set ctr { t.getD ctr {} with inc := (t.getD ctr {}).inc + n }
  match s.ctrsOf c tag with
  | none => s
  | some t =>
    let kept (v : Saved) : Bool :=
      v.core == c && s.tagOf v.region == tag && decide (v.phase = 0) && (v.ctrs.get? ctr).isSome
      && decide ((t.getD ctr {}).region.toNat = v.region)
    if s.saved.any kept then
      { s with saved := s.saved.map (fun (v : Saved) => if kept v then { v with ctrs := add v.ctrs } else v) }
    else if (s.core c).tag = tag then s.modCore c (fun k => { k with ctrs := add k.ctrs })
    else { s with tenants := s.tenants.map (fun t => if t.core = c ∧ t.tag = tag then { t with ctrs := add t.ctrs } else t) }

/-- Has a value reached t (R263)? -/
def reached (v t : BitVec 32) : Bool := decide ((v - t).toNat < 2 ^ 31)

/-- Trigger slot i. -/
def Counter.slot (c : Counter) (i : Nat) : Word := c.trig[i % 4]'(Nat.mod_lt _ (by decide))
/-- Replaces trigger slot i. -/
def Counter.setSlot (c : Counter) (i : Nat) (w : Word) : Counter := { c with trig := c.trig.set (i % 4) w (Nat.mod_lt _ (by decide)) }
/-- Trigger slots that are armed. -/
def Counter.armed (c : Counter) : List Nat := (List.range 4).filter (fun i => bit (c.slot i) 63)
/-- `RANK` of a trigger slot. -/
def trigRank (w : Word) : Nat := bitsN w 55 2

/-- Disarms slot i and closes the gap in `RANK` (R269). -/
def Counter.disarm (c : Counter) (i : Nat) : Counter :=
  if !bit (c.slot i) 63 then c else
  let r := trigRank (c.slot i)
  let c := c.setSlot i (c.slot i &&& ~~~(1#64 <<< 63))
  (List.range 4).foldl (fun c j =>
    let w := c.slot j
    if bit w 63 ∧ r < trigRank w then c.setSlot j (setField w 55 (BitVec.ofNat 2 (trigRank w - 1))) else c) c

/-- The armed triggers that an increment of n from the present value crosses, in firing order (R263, R268). -/
def Counter.crossed (c : Counter) (n : Nat) : List Nat :=
  let dist (i : Nat) : Nat := ((field (c.slot i) 0 32 : BitVec 32) - c.val).toNat
  let hit := c.armed.filter (fun i => decide (1 ≤ dist i) && decide (dist i ≤ n))
  let before (i j : Nat) : Bool :=
    decide (dist i < dist j) || (decide (dist i = dist j) && decide (trigRank (c.slot i) < trigRank (c.slot j)))
  let rec place (i : Nat) : List Nat → List Nat
    | [] => [i]
    | j :: l => if before i j then i :: j :: l else j :: place i l
  hit.foldl (fun l i => place i l) []

/-- A trigger that fires: its slot, its word, the region that armed it. -/
abbrev Fired := Nat × Word × BitVec 24

/-- The region that armed slot i (R104). -/
def Counter.armer (c : Counter) (i : Nat) : BitVec 24 := c.regs[i % 4]'(Nat.mod_lt _ (by decide))

/-- Steps 2 and 3 of R266: the summed increment, and the triggers that fire, in order. -/
def Counter.stepInc (c : Counter) : Counter × List Fired :=
  let fired := c.crossed c.inc
  let c1 := fired.foldl (fun c i => c.disarm i) c
  ({ c1 with val := c.val + BitVec.ofNat 32 c.inc, inc := 0 }, fired.map (fun i => (i, c.slot i, c.armer i)))

/-- Step 4 of R266 for one arm: the lowest free slot, with the highest `RANK`; it fires at once when its threshold has been
reached (R269). -/
def Counter.stepArm (c : Counter) (a : Word × BitVec 24) : Counter × List Fired :=
  match (List.range 4).find? (fun i => !bit (c.slot i) 63) with
  | none => (c, [])
  | some i =>
    let w := setField (a.1 ||| (1#64 <<< 63)) 55 (BitVec.ofNat 2 c.armed.length)
    let c := { c.setSlot i w with regs := c.regs.set (i % 4) a.2 (Nat.mod_lt _ (by decide)) }
    if reached c.val (field w 0 32) then (c.disarm i, [(i, w, a.2)]) else (c, [])

/-- Steps 2 to 4 of R266: the counter afterwards and the triggers that fire, in order. -/
def Counter.steps (c : Counter) : Counter × List Fired :=
  let a := c.stepInc
  c.arms.foldl (fun y w => let z := y.1.stepArm w; (z.1, y.2 ++ z.2)) ({ a.1 with arms := [] }, a.2)

/-- `cset` (R421). -/
def slotCset (o : OpAb) : SlotDef :=
  { g := o.g.toNat, xs := [o.b], sync := true, badMod := plain o.p
    run := fun e w => .ok (w.modCtr e o.a.toNat (fun c => { c with val := field (e.xa o.b) 0 32, region := e.region })) }

/-- `cadd` (R421). -/
def slotCadd (o : OpAb) : SlotDef :=
  { g := o.g.toNat, xs := [o.b], sync := true, badMod := plain o.p
    run := fun e w => .ok { w with s := w.s.addCtr e.c o.a.toNat (bitsN (e.xa o.b) 0 32) (e.s.core e.c).tag } }

/-- `crd` (R421). -/
def slotCrd (o : OpDa) : SlotDef :=
  { g := o.g.toNat, xe := some o.d, sync := true, badMod := plain o.p
    run := fun e w => .ok (w.outE e o.d (((e.s.core e.c).ctr o.a.toNat).val.setWidth 64)) }

/-- Reserved bits of an arm word, and an `ACT` 2 that names no staged slot (R422). -/
def Env.badArm (e : Env) (b : Word) : Bool :=
  let act := bitsN b 61 2
  bit b 63 || decide (bitsN b 52 9 ≠ 0)
  || (decide (act = 2) && (decide (bitsN b 36 12 ≠ 0) || ((e.s.core e.c).staged.get? (bitsN b 32 4)).isNone))

/-- `carm` (R269, R421, R422): p1 tells whether a slot is free at step 4 of R266. -/
def slotCarm (o : OpAb) : SlotDef :=
  { g := o.g.toNat, xs := [o.b], sync := true, badMod := plain o.p, ill := fun e => e.badArm (e.xa o.b)
    run := fun e w =>
      if ((((w.s.core e.c).ctr o.a.toNat).steps).1.armed).length = 4 then .ok (w.p1 e false)
      else
        let b := e.xa o.b
        let word := (b &&& 0x600FFFFFFFFFFFFF#64) ||| (BitVec.ofNat 64 e.t <<< 57)
        .ok ((w.modCtr e o.a.toNat (fun c => { c with arms := c.arms ++ [(word, e.region)] })).p1 e true) }

/-- `cdisarm` (R269, R421). -/
def slotCdisarm (o : OpAb) : SlotDef :=
  { g := o.g.toNat, xs := [o.b], sync := true, badMod := plain o.p, ill := fun e => decide (bitsN (e.xa o.b) 2 62 ≠ 0)
    run := fun e w => .ok (w.modCtr e o.a.toNat (fun c => c.disarm (bitsN (e.xa o.b) 0 2))) }

/-- The value of a counter at step 5 of R266 in the issue cycle. -/
def Work.ctrValue (w : Work) (e : Env) (n : Nat) : BitVec 32 := (((w.s.core e.c).ctr n).steps).1.val

/-- Parks in the wait list, or forfeits where a continuation may not park (R203, R417). Records of regions that pre-emption has
halted are saved and leave room (R209). -/
def Work.parkList (w : Work) (e : Env) (f : WaitFor) : Except Stop Work :=
  w.parkOr e (decide (64 ≤ ((e.s.core e.c).waits.filter (fun w => !e.s.frozenOn e.c w.cont.rcd.region.toNat)).length)) (.park f)

/-- Parks a `waitct` until its deadline d; while it cannot park the deadline stands (R203, R270). -/
def Work.parkUntil (w : Work) (e : Env) (n : Nat) (v : BitVec 32) (d : Nat) : Except Stop Work :=
  match w.parkList e (.counter n v (some d)) with
  | .error (.forfeit why) => .error (.wait why (e.s.modCtx e.c e.t (fun k => { k with dues := k.dues.set e.idx.toNat d })))
  | r => r

/-- `waitc` and `waitct`: a woken slot completes with the outcome of its wake (R270, R416, R422). -/
def waitRun (n : Nat) (v : Word) (time : Option Word) (e : Env) (w : Work) : Except Stop Work :=
  match e.k.wake with
  | .status b => .ok (w.p1 e b)
  | _ =>
    if reached (w.ctrValue e n) (field v 0 32) then .ok (w.p1 e true)
    else match time with
      | none => w.parkList e (.counter n (field v 0 32) none)
      | some t =>
        let d := e.k.dues.getD e.idx.toNat (e.s.time + t.toNat)
        if t = 0 ∨ d ≤ e.s.time then .ok (w.p1 e false) else w.parkUntil e n (field v 0 32) d

/-- `waitc` (R421). -/
def slotWaitc (o : OpAb) : SlotDef :=
  { g := o.g.toNat, xs := [o.b], sync := true, badMod := plain o.p
    run := fun e w => waitRun o.a.toNat (e.xa o.b) none e w }
/-- `waitct` (R421). -/
def slotWaitct (o : OpDab) : SlotDef :=
  { g := o.g.toNat, xs := [o.b], xo := [dReg o.d], bad := dN o.d, sync := true, badMod := plain o.p
    run := fun e w => waitRun o.a.toNat (e.xa o.b) (some (e.xOld o.d)) e w }

/-! ### Staged commands (R423) -/

/-- An engine slot as a stage descriptor holds it: its tile operand, whether a field breaks a rule, its operation and operands. -/
structure StagedOp where
  tile : Option Nat := none
  bad : Bool := false
  eng : EngOp
  q : EOp

/-- The engine operation of a staged slot word with its value words: none when the word may not be staged (R423). A register
field that names x0 reads zero. -/
def stagedOp (w : SlotWord) (vd va vb : Word) : Option StagedOp :=
  let f := (fMinor w).toNat
  let d := (fD w).toNat
  let a := (fA w).toNat
  let b := (fB w).toNat
  let va := if a = 0 then 0 else va
  let vb := if b = 0 then 0 else vb
  let tile := (fT w).toNat
  let codes := decide (32 ≤ a) || decide (32 ≤ b) || decide (32 ≤ d)
  let tq : EOp := { a := va, b := vb, dx := tile, ax := a, bx := b }
  let dq : EOp := { d := if d = 0 then 0 else vd, a := va, b := vb, dx := d, ax := a, bx := b }
  let iq : EOp := { dq with b := 0, bx := 0, imm := (fI9 w).setWidth 64 }
  let aq : EOp := { a := va, ax := a }
  let onlyA := decide (d ≠ 0) || decide (b ≠ 0)
  let r : Option StagedOp :=
    match (fMajor w).toNat with
    | 0x70 => if f = 7 then none else some { tile := some tile, bad := codes, eng := engMul f false, q := tq }
    | 0x71 => if f = 7 then none else some { tile := some tile, bad := codes, eng := engMul f true, q := tq }
    | 0x72 => if f = 7 then none else some { tile := some tile, bad := codes || decide (b = 0), eng := engGroup f, q := tq }
    | 0x73 =>
      (match f with
       | 0 => some { tile := some tile, bad := codes || decide (a ≠ 0) || decide (b ≠ 0), eng := engMzero, q := tq }
       | 1 => some { tile := some tile, bad := codes, eng := engMtld, q := tq }
       | 2 => some { tile := some tile, bad := codes, eng := engMtst, q := tq }
       | 3 => some { tile := some tile, bad := codes || decide (b ≠ 0), eng := engMepi, q := tq }
       | _ => none)
    | 0x74 =>
      (match f with
       | 0 => some { bad := codes, eng := engCopy, q := dq }
       | 1 => some { bad := codes, eng := engCopy2, q := dq }
       | 2 => some { bad := codes, eng := engCopyr, q := dq }
       | 3 => some { bad := codes || onlyA, eng := engCcan, q := aq }
       | _ => none)
    | 0x75 => some { bad := decide (32 ≤ a) || decide (32 ≤ d), eng := engSend, q := iq }
    | 0x77 => some { bad := decide (a ≠ 0) || decide (d ≠ 0), eng := engEos, q := iq }
    | 0x78 => some { bad := decide (32 ≤ a) || decide (32 ≤ d), eng := engBcast, q := iq }
    | 0x79 =>
      (match f with
       | 0 => some { bad := codes || onlyA, eng := engRoute, q := aq }
       | 1 => some { bad := codes || onlyA, eng := engRclose, q := aq }
       | _ => none)
    | _ => none
  r

/-- Queues as a staged command finds them for its checks: with room (R423: the checks are those of issue, the command itself
waits for room when it fires). -/
def State.roomy (s : State) (c : Nat) : State :=
  (s.modCore c (fun k => { k with cmdq := [], mat := [], copies := [], epi := [] })).modCluster (clusterOf c)
    (fun k => { k with routes := [] })

/-- The cause of a staged command, checked as if it issued in this bundle: none when it has no cause (R423). -/
def Env.stageCause (e : Env) (w : Work) (o : StagedOp) : Option Stop :=
  match o.tile with
  | some n =>
    if winCount e.k.tiles ≤ n then some (.trap cTileWindow (BitVec.ofNat 64 n)) else
    (match o.eng o.q { e with s := e.s.roomy e.c } { w with s := e.s.roomy e.c } with
     | .error (.forfeit 9) => none
     | .error q => some q
     | .ok _ => none)
  | none =>
    (match o.eng o.q { e with s := e.s.roomy e.c } { w with s := e.s.roomy e.c } with
     | .error (.forfeit 9) => none
     | .error q => some q
     | .ok _ => none)

/-- `cstage` (R421, R423): field a is a staged-slot number below 16. -/
def slotCstage (o : OpAb) : SlotDef :=
  { g := o.g.toNat, xs := [o.b], sync := true, bad := decide (15 < o.a.toNat), badMod := plain o.p
    run := fun e w =>
      match e.desc (e.xa o.b) 4 32 with
      | .error q => .error q
      | .ok l =>
        let g (i : Nat) : Word := l.getD i 0
        let sw : SlotWord := field (g 0) 0 32
        match stagedOp sw (g 1) (g 2) (g 3) with
        | none => .error e.illegal
        | some x =>
          if x.bad || decide (fG sw ≠ 0) || decide (bitsN (g 0) 32 32 ≠ 0) then .error e.illegal
          else match e.stageCause w x with
            | some q => .error q
            | none =>
              let st : Staged :=
                { slotw := sw, vd := g 1, va := g 2, vb := g 3, region := e.region, ctx := e.t, tlbs := (e.s.core e.c).utlb }
              .ok { w with s := w.s.modCore e.c (fun k => { k with staged := k.staged.set o.a.toNat st }) } }

/-! ### Mailbox (R221, R222, R424) -/

/-- Does a message's tag agree with a tag under a mask (R222)? -/
def tagMatch (tag mask : BitVec 32) (m : Msg) : Bool := decide (m.tag &&& mask = tag &&& mask)

/-- A message enters a mailbox: the waiter that parked earliest among those it matches is woken with its value, else it is
queued (R222). -/
def State.enterMail (s : State) (c : Nat) (m : Msg) : State :=
  let k := s.core c
  match findIdx (fun w => match w.cond with | .mail tag mask => tagMatch tag mask m | _ => false) k.waits with
  | some i =>
    (match k.waits[i]? with
     | some w => (s.setCore c { k with waits := listDel k.waits i }).wake c w.cont (.message m.val)
     | none => s)
  | none => s.setCore c { k with mail := k.mail ++ [m] }

/-- Room in a mailbox (R222). -/
def State.mailRoom (s : State) (c : Nat) : Bool := decide ((s.core c).mail.length < 64)

/-- May a message of a tenant enter now: the mailbox of core c, or that of its saved state (R222)? -/
def State.mailTakes (s : State) (c : Nat) (tag : BitVec 7) : Bool :=
  if (s.core c).tag = tag then s.mailRoom c
  else s.tenants.any (fun t => t.core == c && t.tag == tag && decide (t.mail.length < 64))

/-- `mpost` (R424): a local post enters in its issue cycle, another leaves through the command queue. -/
def slotMpost (o : OpDab) : SlotDef :=
  { g := o.g.toNat, xs := [o.a, o.b], xo := [dReg o.d], bad := dN o.d, sync := true, badMod := plain o.p
    ill := fun e => decide (4096 ≤ (e.xa o.a).toNat) || decide (bitsN (e.xOld o.d) 32 32 ≠ 0)
    run := fun e w =>
      let n := (e.xa o.a).toNat
      let m : Msg :=
        { kind := 0, ctx := BitVec.ofNat 4 e.t, core := BitVec.ofNat 12 e.c, tag := field (e.xOld o.d) 0 32, val := e.xa o.b }
      if n = e.c then (if w.s.mailRoom e.c then .ok { w with s := w.s.enterMail e.c m } else .error (.forfeit 9))
      else guardStops (e.queueRoom 1)
        (.ok { w with s := w.s.modCore e.c (fun k => { k with cmdq := k.cmdq ++ [.post m n e.t e.region (e.s.core e.c).tag] }) }) }

/-- `mtake` (R222, R424). -/
def slotMtake (o : OpDab) : SlotDef :=
  { g := o.g.toNat, xs := [o.a, o.b], xe := some o.d, sync := true, badMod := plain o.p
    run := fun e w =>
      match e.k.wake with
      | .message v => .ok (w.outE e o.d v)
      | _ =>
        let tag : BitVec 32 := field (e.xa o.a) 0 32
        let mask : BitVec 32 := field (e.xa o.b) 0 32
        let mail := (w.s.core e.c).mail
        match findIdx (tagMatch tag mask) mail with
        | none => w.parkList e (.mail tag mask)
        | some i =>
          match mail[i]? with
          | none => .error (.forfeit 9)
          | some m =>
            .ok ({ w with s := w.s.modCore e.c (fun k => { k with mail := listDel k.mail i }) }.outE e o.d m.val) }

/-! ### Traps and contexts (R81, R97, R106, R187, R425, R426) -/

/-- `brk` (R426). -/
def slotBrk (o : OpI) : SlotDef := { g := o.g.toNat, run := fun _ _ => .error (.trap cBreak (immU o.p o.i)) }
/-- `sys` (R426). -/
def slotSys (o : OpI) : SlotDef := { g := o.g.toNat, run := fun _ _ => .error (.trap cSyscall (immU o.p o.i)) }

/-- `tret` (R97, R425). -/
def slotTret (o : Op0) : SlotDef :=
  { g := o.g.toNat, lvl := 1, badMod := plain o.p, ill := fun e => !bit e.k.status 3
    run := fun _ w => .ok { w with xfer := .tret } }
/-- `uiret` (R106, R425). -/
def slotUiret (o : Op0) : SlotDef :=
  { g := o.g.toNat, badMod := plain o.p, ill := fun e => !bit e.k.status 4
    run := fun _ w => .ok { w with xfer := .uiret } }

/-- Has a region's tile budget, and that of its ancestors, room on core c for one more context with a window (R75)? -/
def State.tileRoom (s : State) (c r : Nat) (tiles : Word) : Bool :=
  (s.pathUp s.depth r).all (fun q =>
    decide ((uniq (windowTiles tiles ++ s.regionTiles c q (fun _ k => k.tiles))).length ≤ s.effTiles q))

/-- The lowest idle worker context of a core that a region's budget, also that of tiles, allows for a thread with a window (R427, R438;
log 96). -/
def State.idleWorker (s : State) (c r : Nat) (tiles : Word) : Option Nat :=
  if (s.core c).oos ∨ s.workerRoom c r = false ∨ s.tileRoom c r tiles = false then none
  else ((List.range 16).drop 1).find? (fun t => (s.ctx c t).mode == .idle)

/-- The buddy of a core (R24). -/
def buddyOf (c : Nat) : Nat := if c % 2 = 0 then c + 1 else c - 1

/-- The context that `pairon` takes for a twin (R427): none for context 0, whose privilege no worker may hold (R83; log 96). -/
def State.twinOf (s : State) (c t : Nat) : Option Nat :=
  if 4096 ≤ c ∨ t = 0 then none else s.idleWorker (buddyOf c) (s.ctx c t).region.toNat (s.ctx c t).tiles

/-- Restores a full frame and its extension block into context t of core c, which resumes at the frame's PC (R81, R103): a window
that breaks R75 traps, and a frame with `PAIR` set pairs again as `pairon` does (R440). -/
def State.restoreFrame (s : State) (c t : Nat) (w : List Word) : State :=
  let k := Ctx.ofImage (s.ctx c t) w (prvOf c t)
  let rm := BitVec.ofBool (s.region k.region.toNat).rm
  let s := s.setCtx c t { k with mode := .running, status := setField (k.status &&& ~~~(1#64 <<< 30)) 31 rm }
  let s := s.wantLine c t
  if !s.tilesOk c t k.tiles then s.takeTrap c t cTileWindow 0 (w.getD 123 0)
  else if bit k.status 30 then (match s.twinOf c t with | some tt => s.couple c t (buddyOf c) tt | none => s)
  else s

/-- A frame in a save area, with its extension block; none when it holds a poisoned line, which is a fault of the region (R234). -/
def State.savedFrame (s : State) (c t r : Nat) : Option (List Word) :=
  match s.poisoned (s.frameSlot c t r) 0x480 with
  | some _ => none
  | none => some (s.rdWords (s.frameSlot c t r) 144)

/-- Start of context n (R187). -/
def State.startCtx (s : State) (c n : Nat) : State :=
  match (s.ctx c n).mode with
  | .off => s.modCtx c n (fun k => { k with mode := .idle })
  | .stopped =>
    let r := (s.ctx c n).region.toNat
    (match s.savedFrame c n r with
     | some w => (s.modCtx c n (fun k => { k with reap := false })).restoreFrame c n w
     | none => (s.modCtx c n (fun k => { k with reap := false })).regionFault r cPoison)
  | _ => s.modCtx c n (fun k => { k with reap := false })

/-- Reap of context n (R187). -/
def State.reapCtx (s : State) (c n : Nat) : State :=
  match (s.ctx c n).mode with
  | .off => s
  | .idle => s.modCtx c n (fun k => { k with mode := .off })
  | .stopped => ((s.contEnd (s.ctx c n).region.toNat).freeCtx c n).modCtx c n (fun k => { k with mode := .off })
  | _ => s.modCtx c n (fun k => { k with reap := true })

/-- `start` and `reap`: a context number from 1 to 15 (R425). -/
def sContext (o : OpA) (f : State → Nat → Nat → State) : SlotDef :=
  { g := o.g.toNat, xs := [o.a], lvl := 1, badMod := plain o.p
    ill := fun e => decide (e.xa o.a = 0) || decide (15 < (e.xa o.a).toNat)
    run := fun e w => .ok { w with s := f w.s e.c (e.xa o.a).toNat } }
/-- `start` (R425). -/
def slotStart (o : OpA) : SlotDef := sContext o State.startCtx
/-- `reap` (R425). -/
def slotReap (o : OpA) : SlotDef := sContext o State.reapCtx

/-! ### Pairing, placement, `realign` (R185, R242, R427 to R429) -/

/-- `pairon` (R427): it waits until no result is awaited, so that the twin starts with the same registers. -/
def slotPairon (o : Op0) : SlotDef :=
  { g := o.g.toNat, badMod := plain o.p
    run := fun e w =>
      if e.k.pair.isSome then .ok (w.p1 e true)
      else match e.s.twinOf e.c e.t with
        | none => .ok (w.p1 e false)
        | some tt => if e.k.hasPending then .error (.forfeit 9) else .ok { w.p1 e true with pairOn := some (buddyOf e.c, tt) } }

/-- `pairoff` (R427): it waits for an agreement. -/
def slotPairoff (o : Op0) : SlotDef :=
  { g := o.g.toNat, sync := true, badMod := plain o.p
    run := fun e w => .ok { w with pairOff := e.k.pair.isSome } }

/-- `placept` (R428). -/
def slotPlacept (o : Op0) : SlotDef :=
  { g := o.g.toNat, check := notInZero, place := true, badMod := plain o.p
    run := fun e w =>
      match e.k.wake with
      | .placed => .ok w
      | _ => if (e.s.region e.region.toNat).pq = 0 then .ok w else w.parkList e .place }

/-- Running contexts of a region in a cluster whose next bundle lies at an address (R185), as core and context. -/
def State.alignedAt (s : State) (cluster r : Nat) (pc : BitVec 60) : List (Nat × Nat) :=
  ((List.range 8).map (fun i => ((List.range 16).filter (fun t =>
      let k := s.ctx (8 * cluster + i) t
      (k.mode == .running) && decide (k.region.toNat = r) && decide (k.pc = pc))).map (fun t => (8 * cluster + i, t)))).flatten

/-- Releases every context whose next bundle lies at the address of a `realign` (R185). -/
def State.releaseAligned (s : State) (cluster r : Nat) (pc : BitVec 60) : State :=
  (s.alignedAt cluster r pc).foldl (fun s x => s.modCtx x.1 x.2 (fun k => { k with realigned := true, realign := none })) s

/-- `realign` (R185, R429). -/
def slotRealign (o : OpI) : SlotDef :=
  let n := (immU o.p o.i).toNat
  { g := o.g.toNat, bad := decide (n = 0) || decide (128 < n)
    run := fun e w =>
      let held := e.k.realign.getD 0
      if n = 1 ∨ e.k.realigned then .ok (w.modCtx e (fun k => { k with realign := none }))
      else if n ≤ (e.s.alignedAt (clusterOf e.c) e.region.toNat e.pc).length ∨ 64 ≤ held then
        .ok { w with s := (w.s.releaseAligned (clusterOf e.c) e.region.toNat e.pc) }
      else .error (.wait 10 (e.s.modCtx e.c e.t (fun k => { k with realign := some (held + 1), realignN := n }))) }

/-! ### Meanings -/

/-- YIELD (R419). -/
def execYield (o : Op0) (s : State) : Out := runSlot (encode (.yield o)) (slotYield o) s

/-- WAITW (R419). -/
def execWaitw (o : Op0) (s : State) : Out := runSlot (encode (.waitw o)) (slotWaitw o) s

/-- MIGR (R199). -/
def execMigr (o : OpA) (s : State) : Out := runSlot (encode (.migr o)) (slotMigr o) s

/-- REALIGN (R185). -/
def execRealign (o : OpI) (s : State) : Out := runSlot (encode (.realign o)) (slotRealign o) s

/-- BRK (R426). -/
def execBrk (o : OpI) (s : State) : Out := runSlot (encode (.brk o)) (slotBrk o) s

/-- SYS (R426). -/
def execSys (o : OpI) (s : State) : Out := runSlot (encode (.sys o)) (slotSys o) s

/-- TRET (R97). -/
def execTret (o : Op0) (s : State) : Out := runSlot (encode (.tret o)) (slotTret o) s

/-- UIRET (R106). -/
def execUiret (o : Op0) (s : State) : Out := runSlot (encode (.uiret o)) (slotUiret o) s

/-- START (R187). -/
def execStart (o : OpA) (s : State) : Out := runSlot (encode (.start o)) (slotStart o) s

/-- REAP (R187). -/
def execReap (o : OpA) (s : State) : Out := runSlot (encode (.reap o)) (slotReap o) s

/-- PAIRON (R427). -/
def execPairon (o : Op0) (s : State) : Out := runSlot (encode (.pairon o)) (slotPairon o) s

/-- PAIROFF (R427). -/
def execPairoff (o : Op0) (s : State) : Out := runSlot (encode (.pairoff o)) (slotPairoff o) s

/-- PLACEPT (R428). -/
def execPlacept (o : Op0) (s : State) : Out := runSlot (encode (.placept o)) (slotPlacept o) s

/-- LAUNCH (R420). -/
def execLaunch (o : OpAb) (s : State) : Out :=
  runSlot (encodePrefix o.p ++ [packR 0x7A#7 0#6 o.a o.b 0#3 o.g]) (slotLaunch o) s

/-- SPAWN (R420). -/
def execSpawn (o : OpAb) (s : State) : Out :=
  runSlot (encodePrefix o.p ++ [packR 0x7A#7 0#6 o.a o.b 1#3 o.g]) (slotSpawn o) s

/-- SPAWNC (R420). -/
def execSpawnc (o : OpAb) (s : State) : Out :=
  runSlot (encodePrefix o.p ++ [packR 0x7A#7 0#6 o.a o.b 2#3 o.g]) (slotSpawnc o) s

/-- CSET (R421). -/
def execCset (o : OpAb) (s : State) : Out := runSlot (encodePrefix o.p ++ [packR 0x7B#7 0#6 o.a o.b 0#3 o.g]) (slotCset o) s

/-- CADD (R421). -/
def execCadd (o : OpAb) (s : State) : Out := runSlot (encodePrefix o.p ++ [packR 0x7B#7 0#6 o.a o.b 1#3 o.g]) (slotCadd o) s

/-- CRD (R421). -/
def execCrd (o : OpDa) (s : State) : Out := runSlot (encodePrefix o.p ++ [packR 0x7B#7 o.d o.a 0#6 2#3 o.g]) (slotCrd o) s

/-- CARM (R422). -/
def execCarm (o : OpAb) (s : State) : Out := runSlot (encodePrefix o.p ++ [packR 0x7B#7 0#6 o.a o.b 3#3 o.g]) (slotCarm o) s

/-- CDISARM (R421). -/
def execCdisarm (o : OpAb) (s : State) : Out :=
  runSlot (encodePrefix o.p ++ [packR 0x7B#7 0#6 o.a o.b 4#3 o.g]) (slotCdisarm o) s

/-- CSTAGE (R423). -/
def execCstage (o : OpAb) (s : State) : Out :=
  runSlot (encodePrefix o.p ++ [packR 0x7B#7 0#6 o.a o.b 5#3 o.g]) (slotCstage o) s

/-- WAITC (R270). -/
def execWaitc (o : OpAb) (s : State) : Out :=
  runSlot (encodePrefix o.p ++ [packR 0x7B#7 0#6 o.a o.b 6#3 o.g]) (slotWaitc o) s

/-- WAITCT (R421). -/
def execWaitct (o : OpDab) (s : State) : Out :=
  runSlot (encodePrefix o.p ++ [packR 0x7B#7 o.d o.a o.b 7#3 o.g]) (slotWaitct o) s

/-- MPOST (R424). -/
def execMpost (o : OpDab) (s : State) : Out :=
  runSlot (encodePrefix o.p ++ [packR 0x7C#7 o.d o.a o.b 0#3 o.g]) (slotMpost o) s

/-- MTAKE (R424). -/
def execMtake (o : OpDab) (s : State) : Out :=
  runSlot (encodePrefix o.p ++ [packR 0x7C#7 o.d o.a o.b 1#3 o.g]) (slotMtake o) s

end Sys2Proof.Machine
end

