-- ==== Sys2Proof/Machine/Arrivals.lean ====
section
/-! DEFINITION. The order in which things in flight take effect: that of their injection, for what one router sends to another and for
the accesses to one order unit (R18, R134, R136, R158, R194, R222). -/

namespace Sys2Proof.Machine

/-- Records that a pending store holds (R158). -/
def homeCap : Nat := 8192

/-- Records held in core c's pending store. -/
def State.pending (s : State) (c : Nat) : Nat := (s.core c).home.length

/-- The router to which a packet travels: accesses to memory are ordered at their order units, and packets for other packages and
owners of bins by their own destination numbers alone (R18). -/
def State.routerTo (s : State) (f : Flight) : Option Nat :=
  let core (c : Nat) : Option Nat := if c < 4104 then some (clusterOf c) else none
  let chan (ch : Nat) (g : Chan → Option Nat) : Option Nat := ((s.chans.get? ch).bind g).bind core
  match f.body with
  | .logRec h => core h.r.home
  | .cont q => if q.toCluster then some (f.dst - dstCluster 0) else core f.dst
  | .mail _ _ _ _ => core f.dst
  | .cell _ _ _ _ _ _ _ => some (f.dst - dstCluster 0)
  | .elem ch _ _ _ _ _ _ _ => chan ch (fun x => if x.rpkg = s.pkg.toNat then some x.rcore else none)
  | .bcast ch j _ _ _ _ => chan ch (fun x => (x.eps[j]?).bind (fun p => if p.pkg = s.pkg.toNat then some p.core else none))
  | .credit ch ep => chan ch (fun x => (x.eps[ep]?).bind (fun p => if p.pkg = s.pkg.toNat then some p.core else none))
  | .ack _ _ _ => core f.dst
  | _ => none

/-- Does an item stand at its destination's router port, where it lets later ones pass: the core is frozen, or has no room for it
(R130, R158, R194, R222)? -/
def State.stands (s : State) (f : Flight) : Bool :=
  match f.body with
  | .logRec h => decide ((s.core h.r.home).freeze ≠ 0) || decide (homeCap ≤ s.pending h.r.home)
  | .cont q => !q.toCluster && (decide ((s.core f.dst).freeze ≠ 0) || !s.takesRecord f.dst q)
  | .mail _ _ _ tag => decide ((s.core f.dst).freeze ≠ 0) || !s.mailTakes f.dst tag
  | .elem ch _ _ _ _ _ _ _ => (match s.chans.get? ch with | some x => decide ((s.core x.rcore).freeze ≠ 0) | none => false)
  | .bcast ch j _ _ _ _ =>
    (match (s.chans.get? ch).bind (fun x => x.eps[j]?) with | some p => decide ((s.core p.core).freeze ≠ 0) | none => false)
  | _ => false

/-- Does an earlier item have to take effect before a later one: same source and destination, same order unit and router of origin,
or the same way from router to router (R18, R134, R136)? -/
def State.precedesIn (s : State) (f g : Flight) : Bool :=
  (f.src == g.src && f.dst == g.dst)
  || (f.together g && ((decide (2 ^ 60 ≤ f.dst) && decide (f.dst < 2 ^ 62) && g.units.any f.units.contains)
    || ((s.routerTo f).isSome && s.routerTo f == s.routerTo g && !s.stands f)))

/-- May the item at position i take effect: none that precedes it is still in flight (R18, R134)? -/
def State.flightReady (s : State) (i : Nat) : Bool :=
  match s.flight[i]? with
  | none => false
  | some f => !((s.flight.take i).any (fun g => s.precedesIn g f))

end Sys2Proof.Machine
end

