-- ==== Sys2Proof/Machine/System.lean ====
section
/-! DEFINITION. Table loads, invalidations of instruction lines and translations, channel installation and region commands
(R122, R123, R236, R244, R247, R250, R252, R430 to R432). -/

namespace Sys2Proof.Machine

/-! ### Table loads (R244, R247, R250, R252, R430) -/

/-- The 32-bit halves of words, low half first. -/
def halves (l : List Word) : List (BitVec 32) := (l.map (fun w => [field w 0 32, field w 32 32])).flatten

/-- The refusal of a decode-table image: `ORD` 3, or an encode table whose values do not rise (R247). -/
def decTrap (h : Word) (d : DecTable) : Option Word :=
  if d.ord = 3 then some (BitVec.ofNat 64 (2 ^ 32 + bitsN h 0 32))
  else if d.enc then (nonMonotonic d.sorted).map (fun c => BitVec.ofNat 64 (4 * 2 ^ 32 + c))
  else none

/-- The decode table of an image at an address, read as loads of the thread (R244, R247). -/
def Env.decImage (e : Env) (ea : Word) : Except Stop DecTable :=
  match e.word64 ea with
  | .error q => .error q
  | .ok h =>
    match e.words64 (if bit h 2 then 8 else 128) (ea + 64) with
    | .error q => .error q
    | .ok l =>
      let d : DecTable := { ents := (halves l).map (fun w => field w 0 19), ord := field h 0 2, nib := bit h 2, enc := bit h 3 }
      match decTrap h d with
      | some v => .error (.trap cIllegal v)
      | none => .ok d

/-- The segments of words. -/
def segmentsOf : List Word → List Segment
  | a :: b :: c :: _ :: l =>
    { bp := field a 0 32, c0 := field a 32 32, c1 := field b 0 32, c2 := field b 32 32, c3 := field c 0 32 } :: segmentsOf l
  | _ => []

/-- The curve table of an image at an address (R250). -/
def Env.curImage (e : Env) (ea : Word) : Except Stop (List Segment) :=
  match e.word64 ea with
  | .error q => .error q
  | .ok h => (e.words64 (4 * (bitsN h 0 6 + 1)) (ea + 64)).map segmentsOf

/-- `ldtab` and `ldcurve`: the image is read at issue, then the thread forfeits until every load of its bundle has taken effect (R252,
R430). -/
def loadTable (table : Nat) (ea : Word) (e : Env) (w : Work) : Except Stop Work :=
  if !e.k.loaded.isEmpty then (if (e.s.core e.c).tload.any (fun x => x.ctx == e.t && x.gen == e.k.gen) then .error (.forfeit 9) else .ok w)
  else if (e.s.core e.c).tload.any (fun x => x.ctx == e.t && x.gen == e.k.gen) then .error (.forfeit 9)
  else match e.addr ea 64 .load with
    | .error q => .error q
    | .ok _ =>
      let load (d : Option DecTable) (c : Option (List Segment)) : Except Stop Work :=
        .ok { w with loads := w.loads ++
          [{ ctx := e.t, table := table, dec := d, cur := c, before := (e.s.core e.c).nextId, gen := e.k.gen }] }
      if table < 4 then (match e.decImage ea with | .error q => .error q | .ok d => load (some d) none)
      else (match e.curImage ea with | .error q => .error q | .ok l => load none (some l))

/-- A table slot. -/
def sTable (o : OpAT2) (base : Nat) : SlotDef :=
  { g := o.g.toNat, xs := [o.a], badMod := plain o.p, run := fun e w => loadTable (base + o.t.toNat) (e.xa o.a) e w }
/-- `ldtab` (R430). -/
def slotLdtab (o : OpAT2) : SlotDef := sTable o 0
/-- `ldcurve` (R430). -/
def slotLdcurve (o : OpAT2) : SlotDef := sTable o 4

/-! ### Invalidations (R122, R123, R431) -/

/-- Starts an invalidation by a thread. -/
def State.startInv (s : State) (c t kind va : Nat) : State :=
  { s with
    invs := s.invs ++ [{ id := s.nextInv, core := c, ctx := t, gen := (s.ctx c t).gen, kind := kind, tag := (s.core c).tag, va := va }]
    nextInv := s.nextInv + 1 }

/-- An invalidation of instruction lines: it waits for the thread's earlier direct stores, then until every cache has dropped its
lines (R431). -/
def lineInv (kind va : Nat) (e : Env) (w : Work) : Except Stop Work :=
  match e.k.inv with
  | some i =>
    if e.s.invs.any (fun v => v.id == i && !v.done) then .error (.forfeit 9)
    else .ok { w with refetch := match e.k.fbuf with | .line b _ => decide (kind = 5) || decide (b / 64 = va / 64) | _ => false }
  | none =>
    if !e.s.storesDone e.c e.t then .error (.forfeit 9)
    else .error (.wait 9 ((e.s.startInv e.c e.t kind va).modCtx e.c e.t (fun k => { k with inv := some e.s.nextInv })))

/-- `iinv`: its address is checked as a fetch (R431). -/
def slotIinv (o : OpA) : SlotDef :=
  { g := o.g.toNat, xs := [o.a], badMod := plain o.p
    run := fun e w =>
      match e.tr .fetch (e.xa o.a) with
      | .error q => .error q
      | .ok _ => lineInv 4 (e.xa o.a).toNat e w }
/-- `iinva` (R431). -/
def slotIinva (o : Op0) : SlotDef := { g := o.g.toNat, lvl := 1, badMod := plain o.p, run := fun e w => lineInv 5 0 e w }

/-- A translation invalidation: the thread's earlier direct stores come first (R123). -/
def transInv (kind va : Nat) (e : Env) (w : Work) : Except Stop Work :=
  if !e.s.storesDone e.c e.t then .error (.forfeit 9) else .ok { w with s := w.s.startInv e.c e.t kind va }

/-- A translation invalidation of the page of an address (R122). -/
def sInv (o : OpA) (kind : Nat) : SlotDef :=
  { g := o.g.toNat, xs := [o.a], lvl := 1, badMod := plain o.p, run := fun e w => transInv kind (e.xa o.a).toNat e w }
/-- `xinvl` (R122). -/
def slotXinvl (o : OpA) : SlotDef := sInv o 0
/-- `xinvc` (R122). -/
def slotXinvc (o : OpA) : SlotDef := sInv o 1
/-- `xinva` (R122). -/
def slotXinva (o : OpA) : SlotDef := sInv o 2
/-- `xinvt` (R122). -/
def slotXinvt (o : Op0) : SlotDef := { g := o.g.toNat, lvl := 1, badMod := plain o.p, run := fun e w => transInv 3 0 e w }

/-- Does an invalidation of a thread hold back its `xsync` (R123)? -/
def State.syncWaits (s : State) (c t : Nat) : Bool :=
  s.invs.any (fun i => decide (i.kind < 4) && i.core == c && i.ctx == t && i.gen == (s.ctx c t).gen
    && (!i.done || s.flight.any (fun f => f.marks.contains i.id)))

/-- `xsync` (R122, R123). -/
def slotXsync (o : Op0) : SlotDef :=
  { g := o.g.toNat, lvl := 1, badMod := plain o.p
    run := fun e w => if e.s.syncWaits e.c e.t then .error (.forfeit 9) else .ok w }

/-! ### Channel installation (R213, R220, R235, R236, R431) -/

/-- An endpoint word: package and core. -/
def endpointOf (w : Word) : Nat × Nat := (bitsN w 12 18, bitsN w 0 12)

/-- Send endpoints of an entry: its own, those of its list, or none (R235). -/
def sendersOf (w list : List Word) : List (Nat × Nat × Nat) :=
  let kind := bitsN (w.getD 0 0) 61 3
  if kind = 0 then [((endpointOf (w.getD 1 0)).1, (endpointOf (w.getD 1 0)).2, bitsN (w.getD 3 0) 0 21)]
  else if kind = 1 ∨ kind = 2 then list.map (fun v => ((endpointOf v).1, (endpointOf v).2, bitsN v 30 21))
  else []

/-- Credit of endpoint i of n at open (R213, R218). -/
def openCredit (kind depth n i : Nat) : Nat := if kind = 1 then depth / n + (if i < depth % n then 1 else 0) else depth

/-- Bytes of a typed element of a channel (R235); 0 untyped. -/
def chanFmtBits (f : Nat) : Nat :=
  match f with | 1 => 8 | 2 => 16 | 3 => 32 | 4 => 64 | 5 => 16 | 6 => 16 | 7 => 32 | 8 => 64 | 9 => 8 | 10 => 8 | 11 => 4 | _ => 0

/-- A channel as its entry describes it; `pa` is the entry's physical address (R235). -/
def chanOf (w list : List Word) (pa : Nat) : Chan :=
  let g (i : Nat) : Word := w.getD i 0
  let kind := bitsN (g 0) 61 3
  let depth := bitsN (g 0) 36 10 + 1
  let ends := sendersOf w list
  { kind := kind, state := 1, ef4 := bit (g 0) 57, cqe := bit (g 0) 56, op := bitsN (g 0) 54 2, fmt := bitsN (g 0) 50 4
    shape := 2 ^ (bitsN (g 0) 46 4 + 2), depth := depth, rpkg := bitsN (g 0) 12 18, rcore := bitsN (g 0) 0 12
    buf := bitsN (g 1) 32 21
    eps := (List.range ends.length).map (fun i =>
      let x := ends.getD i (0, 0, 0)
      { pkg := x.1, core := x.2.1, efb := x.2.2, credit := openCredit kind depth ends.length i })
    tree := field (g 3) 48 16, cntr := field (g 3) 42 6, layer := bitsN (g 3) 36 6, expert := bitsN (g 3) 26 10, entry := pa }

/-- Does an entry with `STATE` 1 open in error (R213, R220, R236)? -/
def openError (w : List Word) (ch : Chan) : Bool :=
  let g0 := w.getD 0 0
  let nsend := bitsN g0 30 6
  decide (4 ≤ ch.kind) || decide (ch.op = 3) || decide (12 ≤ ch.fmt) || decide (11 ≤ bitsN g0 46 4)
  || (decide (ch.kind = 2) && decide (ch.fmt = 0))
  || decide (ch.buf % ch.shape ≠ 0) || decide (ch.buf % 16 ≠ 0) || decide (0x1C0000 < ch.buf + ch.depth * ch.shape)
  || (decide (ch.kind = 1) && decide (nsend = 0)) || (decide (ch.kind = 0) && decide (nsend ≠ 0))
  || (decide (ch.kind = 1) && decide (ch.depth < ch.eps.length))
  || (ch.ef4 && (decide (ch.fmt < 5) || decide (7 < ch.fmt) || decide (8 * ch.shape % (32 * chanFmtBits ch.fmt) ≠ 0)))

/-- Bytes of the error-feedback buffer at an offset that lie in its slice, below the pending record store (R126, R220): beyond them
nothing is kept (R3). -/
def efbRoom (efb n : Nat) : Nat := Nat.min n (0x1C0000 - efb)

/-- Does a core hold a tenant, or state that the tenant has left there? -/
def State.holdsTenant (s : State) (c : Nat) (tag : BitVec 7) : Bool :=
  (s.core c).tag == tag || s.tenants.any (fun t => decide (t.core = c) && t.tag == tag)

/-- Zeroes the error-feedback buffers of an EF4 channel of a tenant at open (R220): one FP32 for each element, in the slices of this
package; the slice of a core that another tenant holds is left alone (R3). -/
def State.zeroFeedback (s : State) (tag : BitVec 7) (ch : Chan) : State :=
  if !ch.ef4 then s else
  (ch.eps.filter (fun p => decide (p.pkg = s.pkg.toNat) && (decide ((s.core p.core).tag = 0) || s.holdsTenant p.core tag))).foldl (fun s p =>
    s.wrBytes (sliceAddr p.core p.efb) (List.replicate (efbRoom p.efb (4 * (8 * ch.shape / chanFmtBits ch.fmt))) 0)) s

/-- Installs a channel and gives the code that `chinst` returns (R236, R431). -/
def State.install (s : State) (key : Nat) (w list : List Word) (pa : Nat) : State × Word :=
  let st := bitsN (w.getD 0 0) 58 3
  let now : Nat := ((s.chans.get? key).map (·.state)).getD 0
  if now = 1 ∨ now = 2 then (s, 1)
  else if 1 < st then (s, 2)
  else if st = 0 then ({ s with chans := s.chans.erase key }, 0)
  else
    let ch := chanOf w list pa
    let s := { s with chans := s.chans.set key ch }
    if openError w ch then (s.setChanState key 4, 0) else (s.zeroFeedback (s.tagOf (key / 4096)) ch, 0)

/-- Region that `chinst` names: the issuer's when B is 0 (R431). -/
def Env.chanRegion (e : Env) (b : Word) : Nat := if b = 0 then e.region.toNat else bitsN b 0 24

/-- Is a region in the issuing core's tenant (R431)? Service cores serve every tenant. -/
def Env.ownTenant (e : Env) (r : Nat) : Bool :=
  decide (4096 ≤ e.c) || ((e.s.regions.get? r).isSome && decide (e.s.tagOf r = (e.s.core e.c).tag))

/-- `chinst` (R236, R431): it produces its result (R71). -/
def slotChinst (o : OpDab) : SlotDef :=
  { g := o.g.toNat, xs := [o.a, o.b], xd := some o.d, lvl := 1, badMod := plain o.p
    ill := fun e => decide (4096 ≤ (e.xa o.a).toNat) || decide (2 ^ 24 ≤ (e.xa o.b).toNat)
    run := fun e w =>
      let n := (e.xa o.a).toNat
      let r := e.chanRegion (e.xa o.b)
      if !e.ownTenant r then .error (.trap cAccess (e.xa o.b)) else
      let ea : Word := (e.s.region r).chan.setWidth 64 + BitVec.ofNat 64 (32 * n)
      match e.addr ea 8 .load, e.words64 4 ea with
      | .ok x, .ok l =>
        let kind := bitsN (l.getD 0 0) 61 3
        if bitsN (l.getD 2 0) 60 4 ≠ 0 then .error e.illegal else
        let list := if kind = 1 ∨ kind = 2 then e.words64 (bitsN (l.getD 0 0) 30 6 + 1) (l.getD 2 0) else .ok []
        (match list with
         | .error q => .error q
         | .ok m =>
           let y := w.s.install (chanKey r n) l m x.pa
           .ok (({ w with s := y.1 } : Work).outX e o.d y.2))
      | .error q, _ => .error q
      | _, .error q => .error q }

/-! ### Region commands (R432) -/

/-- Reserved bits of a region command block. -/
def rgcmdReserved (l : List Word) : Bool :=
  decide (bitsN (l.getD 0 0) 24 32 ≠ 0) || decide (bitsN (l.getD 1 0) 60 4 ≠ 0) || (l.drop 2).any (fun v => decide (v ≠ 0))

/-- `rgcmd` (R431, R432): the command goes to the region scheduler, and xd awaits its answer. -/
def slotRgcmd (o : OpDa) : SlotDef :=
  { g := o.g.toNat, xs := [o.a], xd := some o.d, lvl := 1, badMod := plain o.p
    run := fun e w =>
      match e.desc (e.xa o.a) 8 64 with
      | .error q => .error q
      | .ok l =>
        if rgcmdReserved l then .error e.illegal else
        let cmd : RgCmd :=
          { words := l, from? := some (e.c, e.t, destReg false o.d, e.region), root := (e.s.core e.c).root, latch := w.latchName e
            gen := e.k.gen, uh := bit e.k.status 4 }
        .ok (({ w with s := { w.s with cmds := w.s.cmds ++ [cmd] } } : Work).pend e false o.d none) }

/-! ### Meanings -/

/-- LDTAB (R430). -/
def execLdtab (o : OpAT2) (s : State) : Out := runSlot (encode (.ldtab o)) (slotLdtab o) s

/-- LDCURVE (R430). -/
def execLdcurve (o : OpAT2) (s : State) : Out := runSlot (encode (.ldcurve o)) (slotLdcurve o) s

/-- IINV (R431). -/
def execIinv (o : OpA) (s : State) : Out := runSlot (encode (.iinv o)) (slotIinv o) s

/-- IINVA (R431). -/
def execIinva (o : Op0) (s : State) : Out := runSlot (encode (.iinva o)) (slotIinva o) s

/-- CHINST (R236). -/
def execChinst (o : OpDab) (s : State) : Out := runSlot (encode (.chinst o)) (slotChinst o) s

/-- RGCMD (R432). -/
def execRgcmd (o : OpDa) (s : State) : Out := runSlot (encode (.rgcmd o)) (slotRgcmd o) s

/-- XINVL (R122). -/
def execXinvl (o : OpA) (s : State) : Out := runSlot (encode (.xinvl o)) (slotXinvl o) s

/-- XINVC (R122). -/
def execXinvc (o : OpA) (s : State) : Out := runSlot (encode (.xinvc o)) (slotXinvc o) s

/-- XINVA (R122). -/
def execXinva (o : OpA) (s : State) : Out := runSlot (encode (.xinva o)) (slotXinva o) s

/-- XINVT (R122). -/
def execXinvt (o : Op0) (s : State) : Out := runSlot (encode (.xinvt o)) (slotXinvt o) s

/-- XSYNC (R123). -/
def execXsync (o : Op0) (s : State) : Out := runSlot (encode (.xsync o)) (slotXsync o) s

end Sys2Proof.Machine
end

