-- ==== Sys2Proof/Machine/Counters.lean ====
section
/-! DEFINITION. Counter events: increments, triggers and their actions, staged commands that fire, timeouts of waits (R104,
R264, R266 to R270, R423). -/

namespace Sys2Proof.Machine

/-- An event: the state after it, or the same state when it cannot take place now; nothing takes place in a package that has shut
down (R469). -/
def runEvent (f : State → Option State) (s : State) : Out :=
  .next { (if s.shut then s else (f s).getD s) with steps := s.steps + 1 }

/-! ### Increments (R264, R266) -/

/-- n increments of the counter that a tag or a `CNT` field names; number 0x3F counts nothing (R264). -/
def State.bump (s : State) (c : Nat) (ctr : BitVec 6) (n : Nat) (r : Nat) : State :=
  if ctr = 0x3F then s else s.addCtr c ctr.toNat n (s.tagOf r)

/-! ### Staged commands that fire (R268, R423) -/

/-- `STAT` and `COUNT` of the record of a staged command that is dropped (R423): causes that R423 does not name are reported as
`STAT` 6 with `COUNT` 0 (DESIGN CHOICE, log 16). -/
def dropStat (code : BitVec 8) (tval : Word) : BitVec 8 × Nat :=
  if code = cChannel then (6, bitsN tval 0 32) else if code = cTileWindow then (6, tval.toNat)
  else if code = cTranslation then (stTranslation, 0) else if code = cAccess then (stAccess, 0) else (6, 0)

/-- A staged command issues; none while it has to wait in the counter unit (R268, R423). -/
def State.fireStaged (s : State) (c : Nat) (a : TrigAct) : Option State :=
  let n := bitsN a.word 32 4
  let t := bitsN a.word 57 4
  match (s.core c).staged.get? n with
  | none => some s
  | some g =>
    match stagedOp g.slotw g.vd g.va g.vb with
    | none => some s
    | some o =>
      let e : Env := { s := s, c := c, t := t, pc := 0, next := 0, word := g.slotw, stg := some g }
      let drop (code : BitVec 8) (tval : Word) : State :=
        let d := dropStat code tval
        s.postRecord c g.region.toNat 8 d.1 (256 * a.ctr + n) d.2 0 0 c t
      let win := winCount (s.ctx c t).tiles
      let run : Option State :=
        match o.eng o.q e { s := s } with
        | .ok w => some w.s
        | .error (.trap code tval) => some (drop code tval)
        | .error _ => none
      match o.tile with
      | some m =>
        if win ≤ m then some (drop cTileWindow (BitVec.ofNat 64 m))
        else if bit (s.core c).busy (physTile (s.ctx c t).tiles m) then none else run
      | none => run

/-! ### Triggers (R268) -/

/-- Wakes a waiter of the wait list with an outcome. -/
def State.wakeWait (s : State) (c i : Nat) (w : Wake) : State :=
  match (s.core c).waits[i]? with
  | none => s
  | some x => (s.modCore c (fun k => { k with waits := listDel k.waits i })).wake c x.cont w

/-- The action of a trigger that fires; none while it has to wait for room (R268). -/
def State.trigger (s : State) (c : Nat) (a : TrigAct) : Option State :=
  let tctx := bitsN a.word 48 4
  match bitsN a.word 61 2 with
  | 0 =>
    let here (w : WaitEntry) : Bool :=
      decide (w.ctx = tctx) && (match w.cond with | .counter n _ _ => decide (n = a.ctr) | _ => false)
    (match findIdx here (s.core c).waits with
     | some i => some (s.wakeWait c i (.status true))
     | none => some s)
  | 1 =>
    if s.mailRoom c then
      some (s.enterMail c
        { kind := 2, ctx := field a.word 57 4, core := BitVec.ofNat 12 c, tag := field a.word 32 16 |>.setWidth 32
          val := (field a.word 0 32 : BitVec 32) ++ a.newVal })
    else none
  | 2 => s.fireStaged c a
  | _ =>
    some (s.raiseUser c tctx a.region.toNat (BitVec.ofNat 64 (a.ctr + 256 * a.slot + 2 ^ 32 * a.newVal.toNat)))

/-- Does an action of the same increment wait before this one (R268)? -/
def TrigAct.behind (a : TrigAct) (l : List TrigAct) : Bool := l.any (fun b => b.ctr == a.ctr && b.cyc == a.cyc)

/-- Carries out actions in order; one that has to wait is kept, and with it those of the same increment that follow (R268). -/
def State.triggers (s : State) (c : Nat) : List TrigAct → State
  | [] => s
  | a :: l =>
    match (if a.behind (s.core c).acts then none else s.trigger c a) with
    | some s' => s'.triggers c l
    | none => (s.modCore c (fun k => { k with acts := k.acts ++ [a] })).triggers c l

/-- The outcome of a waiter that the counters or the time satisfy now (R270): a reach comes before a deadline in the same cycle. -/
def Core.waitEnd (k : Core) (time : Nat) (w : WaitEntry) : Option Bool :=
  match w.cond with
  | .counter n v d => if reached (k.ctr n).val v then some true else if d.any (fun d => decide (d ≤ time)) then some false else none
  | .mail _ _ => none
  | .place => none

/-- Wakes every waiter that is satisfied, in wait-list order (R270); f bounds their number. -/
def State.wakeSatisfied (s : State) (c : Nat) : Nat → State
  | 0 => s
  | f + 1 =>
    let k := s.core c
    match findIdx (fun w => (k.waitEnd s.time w).isSome) k.waits with
    | none => s
    | some i => (s.wakeWait c i (.status (((k.waits[i]?).bind (k.waitEnd s.time)).getD false))).wakeSatisfied c f

/-- Has a counter steps 2 to 4 of R266 to take in this cycle? -/
def Core.ctrPending (k : Core) (n : Nat) : Bool :=
  let x := k.ctr n
  decide (x.last ≠ some k.cycle) && (decide (x.inc ≠ 0) || !x.arms.isEmpty)

/-- Has any counter of the core? -/
def Core.anyPending (k : Core) : Bool := k.ctrs.any (fun e => k.ctrPending e.1)

/-- Has a counter something to do (R266): steps 2 to 4, or, once every counter has taken them, a waiter whose value is reached? -/
def Core.ctrDue (k : Core) (n : Nat) : Bool :=
  k.ctrPending n || (!k.anyPending && k.waits.any (fun w => match w.cond with
    | .counter m v _ => decide (m = n) && reached (k.ctr n).val v
    | _ => false))

/-- Steps 2 to 4 of R266 for counter n in this cycle, and the actions of the triggers that fire. -/
def State.counterSteps (s : State) (c n : Nat) : State :=
  let k := s.core c
  let x := k.ctr n
  let y := x.steps
  let k' := k.modCtr n (fun _ => { y.1 with last := some k.cycle })
  let s := s.setCore c (if x.inc = 0 then k' else k'.perfAdd 0x12 none)
  let sum := x.stepInc.2.length
  s.triggers c ((y.2.zip (List.range y.2.length)).map (fun f =>
    { ctr := n, slot := f.1.1, word := f.1.2.1, newVal := y.1.val, region := f.1.2.2
      cyc := 64 * k.cycle + (if f.2 < sum then 0 else f.2) }))

/-- COUNTER_CYCLE_UPDATE (R266, R270): steps 2 to 4 for one counter, and step 5 when no other counter has them to take; a frozen core
acts when its freeze ends (R130). -/
def tryCounterCycleUpdate (c n : Nat) (s : State) : Option State :=
  let k := s.core c
  if k.freeze ≠ 0 ∨ !k.ctrDue n then none else
  let s := if k.ctrPending n then s.counterSteps c n else s
  some (if (s.core c).anyPending then s else s.wakeSatisfied c (s.core c).waits.length)

/-- TRIGGER_ACTION_RESUME (R268): the oldest waiting action that can proceed, with none of its increment before it. -/
def tryTriggerActionResume (c : Nat) (s : State) : Option State :=
  let acts := (s.core c).acts
  let first (i : Nat) : Bool :=
    match acts[i]? with
    | none => false
    | some a => !a.behind (acts.take i) && (s.trigger c a).isSome
  match (List.range acts.length).find? first with
  | none => none
  | some i =>
    match acts[i]? with
    | none => none
    | some a => (s.modCore c (fun k => { k with acts := listDel k.acts i })).trigger c a

/-- The first waiter of core c whose deadline has passed, when no counter has anything to do before (R266, R270). -/
def State.timedOut (s : State) (c : Nat) : Option Nat :=
  let k := s.core c
  if k.anyPending then none else findIdx (fun w => (k.waitEnd s.time w).isSome) k.waits

/-- WAITC_TIMEOUT (R270): a deadline has passed; the waiters that this cycle satisfies are woken in wait-list order. -/
def tryWaitcTimeout (c i : Nat) (s : State) : Option State :=
  if (s.core c).freeze = 0 ∧ s.timedOut c = some i then some (s.wakeSatisfied c (s.core c).waits.length) else none

/-- PACKET_ACKNOWLEDGE (R264): acknowledged packets increment the issue tag's counter at the pusher. -/
def tryPacketAcknowledge (i : Nat) (s : State) : Option State :=
  match s.flight[i]? with
  | some f =>
    (match f.body with
     | .ack tag n r => if s.flightReady i then some ((s.land i).bump f.dst tag n r.toNat) else none
     | _ => none)
  | none => none

/-! ### Meanings -/

/-- COUNTER_CYCLE_UPDATE (R266). -/
def execCounterCycleUpdate (core : Nat) (ctr : Nat) (s : State) : Out := runEvent (tryCounterCycleUpdate core ctr) s

/-- TRIGGER_ACTION_RESUME (R268). -/
def execTriggerActionResume (core : Nat) (s : State) : Out := runEvent (tryTriggerActionResume core) s

/-- WAITC_TIMEOUT (R270). -/
def execWaitcTimeout (core : Nat) (idx : Nat) (s : State) : Out := runEvent (tryWaitcTimeout core idx) s

/-- PACKET_ACKNOWLEDGE (R264). -/
def execPacketAcknowledge (idx : Nat) (s : State) : Out := runEvent (tryPacketAcknowledge idx) s

end Sys2Proof.Machine
end

