-- ==== Sys2Proof/Machine/LogInstr.lean ====
section
/-! DEFINITION. Log instructions: releases, acquires, marks and drops, `fence` and `drain` (R135, R155, R163 to R165, R169,
R177, R353). -/

namespace Sys2Proof.Machine

/-! ### Releases, marks and drops -/

/-- Core c's tail. -/
def State.logTail (s : State) (c : Nat) : BitVec 48 := (s.core c).log.tail

/-- `rel` (R155, R353): it waits for an agreement in paired mode (R172). -/
def slotRel (o : OpD) : SlotDef :=
  { g := o.g.toNat, xd := some o.d, sync := true, badMod := modCheck o.p false false false
    run := fun e w =>
      let w := { w with s := w.s.release e.c e.t }
      .ok (w.outX e o.d ((w.s.logTail e.c).setWidth 64)) }

/-- `lmark` (R169, R353). -/
def slotLmark (o : OpD) : SlotDef :=
  { g := o.g.toNat, xd := some o.d, badMod := modCheck o.p false false false
    run := fun e w => .ok (w.outX e o.d ((w.s.logTail e.c).setWidth 64)) }

/-- The latest published record of context t; held records count as published (R155, R169). -/
def Log.lastPublished (l : Log) (t : Nat) : Option (BitVec 48) :=
  match (l.recs.filter (fun r => r.held && decide (r.ctx.toNat = t))).getLast? with
  | some r => some r.seq
  | none => l.lastPub.get? t

/-- `Drop` of context t from mark m (R169): none when it traps. -/
def Log.drop (l : Log) (t : Nat) (m : BitVec 48) : Option Log :=
  let traps := match l.lastPublished t with | some p => !precedes p m | none => false
  if traps then none else
  some { l with recs := l.recs.map (fun (r : LogRec) =>
    if r.ctx.toNat = t ∧ precedes r.seq m = false ∧ r.st = RecState.unpublished ∧ r.held = false
    then { r with st := RecState.void, kind := 3 } else r) }.advance

/-- Writes the voided records of a drop into their slots: a drop also writes `KIND` = 3 (R154). -/
def State.writeDropped (s : State) (c : Nat) (old : Log) : State :=
  ((old.recs.zip (s.core c).log.recs).filter (fun p => p.1.st != p.2.st)).foldl
    (fun s p => s.wrBytes ((s.core c).log.slotAddr c p.2) p.2.bytes) s

/-- `ldrop` (R169, R353). -/
def slotLdrop (o : OpA) : SlotDef :=
  { g := o.g.toNat, xs := [o.a], badMod := modCheck o.p false false false
    run := fun e w =>
      let m : BitVec 48 := field (e.xa o.a) 0 48
      if !e.k.appends then .ok w else
      let old := (w.s.core e.c).log
      match old.drop e.t m with
      | none => .error (.trap cLogDrop (m.setWidth 64))
      | some l => .ok { w with s := (w.s.modCore e.c (fun k => { k with log := l })).writeDropped e.c old } }

/-! ### Acquires (R163 to R165) -/

/-- The log of core c that belongs to a tenant: the active one, a saved one, or none. -/
def State.tenantLog (s : State) (c : Nat) (tag : BitVec 7) : Option Log :=
  if (s.core c).tag = tag then some (s.core c).log
  else (s.tenants.find? (fun t => t.core == c && t.tag == tag)).map (·.log)

/-- Records of core c's log for a tenant that have been sent and not applied. -/
def State.sentRecs (s : State) (c : Nat) (tag : BitVec 7) : List LogRec :=
  let mine (h : HomeRec) : Bool := h.core == c && h.tag == tag
  s.flight.filterMap (fun f => match f.body with | .logRec h => if mine h then some h.r else none | _ => none)
  ++ (s.cores.map (fun e => (e.2.home.filter mine).map (fun h => h.r))).flatten

/-- Is a pair of an acquire satisfied: the frontier has reached the point, and every non-void record below it has been applied
(R163)? -/
def State.pointDone (s : State) (tag : BitVec 7) (p : Point) : Bool :=
  match s.tenantLog p.core tag with
  | none => decide (p.point = 0)
  | some l =>
    !precedes l.frontier p.point
    && !((l.recs ++ s.sentRecs p.core tag).any (fun r => r.st != .void && precedes r.seq p.point))

/-- Loads of logged memory by core c that are in flight (R163). -/
def State.loggedLoads (s : State) (c : Nat) : Bool :=
  s.flight.any (fun f => f.src == c && (match f.body with
    | .load _ _ _ _ _ _ _ logged _ _ => logged
    | .planed _ _ _ _ _ _ _ logged => logged
    | _ => false))

/-- May an acquire of a set by core c complete (R163)? -/
def State.acquireDone (s : State) (c : Nat) (set : List Point) : Bool :=
  set.all (s.pointDone (s.core c).tag) && !s.loggedLoads c

/-- Acquire slots of the next bundle of a context that have completed (R353). -/
def Ctx.acquired (k : Ctx) : Nat := match k.acq with | some p => p.1 | none => 0

/-- An acquire completes: the read paths are invalidated (R163, R167), and one more acquire slot of its bundle is done. -/
def State.endAcquire (s : State) (c t : Nat) : State :=
  (s.modCore c (fun k => { k with rbuf := [] })).modCtx c t (fun k => { k with acq := some (k.acquired + 1, none) })

/-- The wait of an acquire whose set `read` gives when it has not been issued yet; those of the bundle that have completed issue with
no other effect (R163, R353). -/
def Work.acquire (w : Work) (e : Env) (read : Unit → Except Stop (List Point)) : Except Stop Work :=
  let past : Work := { w with acqs := w.acqs + 1 }
  if w.acqs < e.k.acquired ∨ e.k.appends = false then .ok past else
  match e.k.acq with
  | some (_, some set) => if e.s.acquireDone e.c set then .error (.wait 9 (e.s.endAcquire e.c e.t)) else .error (.forfeit 9)
  | _ =>
    match read () with
    | .error q => .error q
    | .ok set => if e.s.acquireDone e.c set then .error (.wait 9 (e.s.endAcquire e.c e.t)) else .error (.acquire set)

/-- One point for each core of a set: the latest among its entries (R164). -/
def latestPoints : List Point → List Point
  | [] => []
  | p :: l =>
    if l.any (fun q => q.core == p.core && !precedes q.point p.point) then latestPoints l
    else p :: (latestPoints l).filter (fun q => q.core != p.core)

/-- An entry of a log set (R164). -/
def pointOfWord (w : Word) : Point := { core := bitsN w 48 12, point := field w 0 48 }

/-- The log set at an address, read with the thread's checks at issue (R164). -/
def Env.logSet (e : Env) (ea : Word) : Except Stop (List Point) :=
  match e.word64 ea with
  | .error q => .error q
  | .ok h =>
    match e.words64 (bitsN h 0 6 + 1) (ea + 8) with
    | .error q => .error q
    | .ok l => .ok (latestPoints (l.map pointOfWord))

/-- `acq` (R163, R164, R353). -/
def slotAcq (o : OpA) : SlotDef :=
  { g := o.g.toNat, xs := [o.a], badMod := modCheck o.p false false false
    run := fun e w =>
      match e.addr (e.xa o.a) 8 .load with
      | .error q => .error q
      | .ok _ => w.acquire e (fun _ => e.logSet (e.xa o.a)) }

/-- The snapshot set of R165: the frontiers, now, of the tenant's logs on the cores where the region's budget grants worker
contexts. A core with no log of the tenant has none to name. -/
def Env.snapshot (e : Env) : List Point :=
  let tag := (e.s.core e.c).tag
  ((e.s.cores.map (·.1)).filter (fun c => decide (c < 4096) && decide (0 < e.s.wctxOn c e.region.toNat))).filterMap (fun c =>
    (e.s.tenantLog c tag).map (fun l => { core := c, point := l.frontier }))

/-- `acqall` (R165, R353). -/
def slotAcqall (o : Op0) : SlotDef :=
  { g := o.g.toNat, badMod := modCheck o.p false false false
    run := fun e w => w.acquire e (fun _ => .ok e.snapshot) }

/-! ### Waiting for accesses (R135, R177) -/

/-- `fence` (R177, R353); it looks at the state before its bundle (DEDUCED, log 111). -/
def slotFence (o : Op0) : SlotDef :=
  { g := o.g.toNat, badMod := modCheck o.p false false false
    run := fun e w => if e.s.fenced e.c e.t then .ok w else .error (.forfeit 9) }

/-- `drain` (R135, R137, R353). -/
def slotDrain (o : Op0) : SlotDef :=
  { g := o.g.toNat, badMod := modCheck o.p false false false
    run := fun e w => if e.s.storesDone e.c e.t then .ok { w with s := w.s.writeBackOf e.c } else .error (.forfeit 9) }

/-! ### Meanings -/

/-- REL (R155). -/
def execRel (o : OpD) (s : State) : Out := runSlot (encode (.rel o)) (slotRel o) s

/-- ACQ (R163). -/
def execAcq (o : OpA) (s : State) : Out := runSlot (encode (.acq o)) (slotAcq o) s

/-- ACQALL (R165). -/
def execAcqall (o : Op0) (s : State) : Out := runSlot (encode (.acqall o)) (slotAcqall o) s

/-- LMARK (R169). -/
def execLmark (o : OpD) (s : State) : Out := runSlot (encode (.lmark o)) (slotLmark o) s

/-- LDROP (R169). -/
def execLdrop (o : OpA) (s : State) : Out := runSlot (encode (.ldrop o)) (slotLdrop o) s

/-- FENCE (R177). -/
def execFence (o : Op0) (s : State) : Out := runSlot (encode (.fence o)) (slotFence o) s

/-- DRAIN (R135). -/
def execDrain (o : Op0) (s : State) : Out := runSlot (encode (.drain o)) (slotDrain o) s

end Sys2Proof.Machine
end

