-- ==== Sys2Proof/Machine/LogHome.lean ====
section
/-! DEFINITION. Log events: the shipper, arrival at homes, batches and their application, forced compaction (R147, R157 to R163,
R166, R173). -/

namespace Sys2Proof.Machine

/-! ### The line at its controller or in the host line buffer (R137, R159) -/

/-- Bytes at a home: of the buffered host line if there is one, else of memory. -/
def State.rdHome (s : State) (pa n : Nat) : List Byte :=
  match (if kindOf pa = 2 then s.hostBuf.find? (fun h => h.1 == lineOf pa) else none) with
  | some h => (h.2.1.drop (pa % 64)).take n
  | none => Mem.bytes s.mem pa n

/-- Writes bytes at a home: kind 2 goes into the host line buffer, on behalf of core c (R137), kind 3 to device control space (R172,
R451). -/
def State.wrHome (s : State) (c pa : Nat) (bs : List Byte) : State :=
  if kindOf pa = 2 then
    let line := lineOf pa
    let old := s.rdHome (64 * line) 64
    let o := pa % 64
    let new := old.take o ++ bs ++ old.drop (o + bs.length)
    let cores := match s.hostBuf.find? (fun h => h.1 == line) with | some h => h.2.2 | none => []
    { s with hostBuf := (line, new, if cores.contains c then cores else c :: cores) :: s.hostBuf.filter (fun h => h.1 != line) }
  else if kindOf pa = 3 then (s.devStore (pa % 2 ^ 48) bs).getD s
  else s.wrBytes pa bs

/-- Writes the masked planes of elements at a home as one write (R152, R360). -/
def State.wrPlanesAt (s : State) (c pa mask : Nat) (data : List Byte) : State :=
  (List.range 4).foldl (fun s j =>
    if mask.testBit j then
      s.wrHome c (pa + 256 * j) ((List.range (data.length / 4)).map (fun k => data.getD (4 * k + j) 0))
    else s) s

/-! ### Applying a batch (R159, R160, R162) -/

/-- A record's kind or format is reserved: it is treated as void (R153). -/
def LogRec.reserved (r : LogRec) : Bool :=
  decide (3 ≤ r.kind.toNat) || (decide (r.kind = 1) && (addWidth r.fmt).isNone)

/-- Bytes of a set or add record. -/
def LogRec.payload (r : LogRec) : List Byte := toBytes (2 ^ r.size.toNat) r.data.toNat

/-- Bytes of a plane-group record. -/
def LogRec.planes (r : LogRec) : List Byte := toBytes (4 * (bitsN r.size 0 2 + 1)) r.data.toNat

/-- Discards a record at a poisoned line (R162, R447). -/
def State.discard (s : State) (home : Nat) (h : HomeRec) (line : Nat) : State :=
  s.chronicle 0x07 home (if kindOf (64 * line) = 0 then 64 * line / 1024 % 16 else 0) (if kindOf (64 * line) = 0 then 0 else 2) 0
    (64 * line) (h.r.seq.setWidth 64) (BitVec.ofNat 64 h.core)

/-- Applies one record at its home (R60, R152, R159, R162). -/
def State.applyRec (s : State) (home : Nat) (h : HomeRec) : State :=
  let r := h.r
  let pa := r.pa.toNat
  if r.reserved then s
  else if r.kind = 0 then s.wrHome hostAll pa r.payload
  else if r.kind = 1 then
    let s := s.eccRange pa r.payload.length
    match s.poisoned pa r.payload.length with
    | some l => s.discard home h (lineOf l)
    | none => s.wrHome hostAll pa (addBytes r.fmt (s.rdHome pa r.payload.length) r.payload)
  else
    match r.lines.find? s.poison.contains with
    | some l => s.discard home h l
    | none => s.wrPlanesAt hostAll pa (bitsN r.fmt 0 4) r.planes

/-- Puts a record behind those of cores that are not above its own (R159). -/
def insertRec (h : HomeRec) : List HomeRec → List HomeRec
  | [] => [h]
  | g :: l => if h.core < g.core then h :: g :: l else g :: insertRec h l

/-- Canonical order: ascending core number, for each log in order of arrival, which is that of `SEQ` (R157, R159). -/
def canonical (l : List HomeRec) : List HomeRec := l.foldl (fun acc h => insertRec h acc) []

/-- Offsets of a line that the set records of a batch write. -/
def coverOf (l : List HomeRec) (line : Nat) : List Nat :=
  ((l.filter (fun h => h.r.kind == 0 && lineOf h.r.pa.toNat == line)).map (fun h =>
    (List.range (2 ^ h.r.size.toNat)).map (· + h.r.pa.toNat % 64))).flatten

/-- Lines of a batch whose set records cover all 64 bytes (R162). -/
def coveredLines (l : List HomeRec) : List Nat :=
  (uniq ((l.filter (fun h => h.r.kind == 0)).map (fun h => lineOf h.r.pa.toNat))).filter (fun line =>
    (List.range 64).all (coverOf l line).contains)

/-- Applies the pending records of one tenant that p selects, as one batch in canonical order (R159, R162). -/
def State.applyBatch (s : State) (home : Nat) (p : HomeRec → Bool) : State :=
  let batch := canonical ((s.core home).home.filter p)
  let s := s.modCore home (fun k => { k with home := k.home.filter (fun h => !p h) })
  let s := batch.foldl (fun s h => s.applyRec home h) s
  let covered := coveredLines (batch.filter (fun h => !h.r.reserved))
  { s with poison := s.poison.filter (fun l => !covered.contains l) }

/-! ### The shipper and the pending store (R157, R158) -/

/-- A record of core c waits at the router port of a full pending store: the shipper that sent it stalls (R158). -/
def State.shipStalled (s : State) (c : Nat) : Bool :=
  s.flight.any (fun f => f.src == c && (match f.body with
    | .logRec _ => decide (homeCap ≤ s.pending (f.dst - 32768))
    | _ => false))

/-- SHIPPER_SEND (R157): the next record in `SEQ` order, if it lies below the frontier; void records are skipped. A descriptor
that waits for the log to drain takes effect with the last record (R147). -/
def tryShipperSend (c : Nat) (s : State) : Option State :=
  let k := s.core c
  match k.log.recs with
  | [] => none
  | r :: rest =>
    if k.freeze ≠ 0 ∨ s.shipStalled c then none
    else if r.st = .unpublished ∨ r.held then none
    else
      let s := s.setCore c { k with log := ({ k.log with recs := rest, ship := r.seq + 1 } : Log).settle }
      some (if r.st = .void ∨ r.reserved then s else s.fly c (dstHome r.home) (.logRec { core := c, tag := k.tag, r := r }))

/-- LOG_DESCRIPTOR_EFFECT (R147, R148): a descriptor that waited takes effect once the ring, or the spill area, has drained. -/
def tryLogDescriptorEffect (c : Nat) (s : State) : Option State :=
  let l := (s.core c).log
  if (l.descNext.isSome ∧ l.ringUse = 0) ∨ (l.spillNext.isSome ∧ l.spillUse = 0)
  then some (s.modCore c (fun k => { k with log := k.log.settle })) else none

/-- HOME_RECORD_ARRIVE (R158): a record enters its home's pending store; one that paired mode has made for a direct page forms a
batch of its own at once (R173). -/
def tryHomeRecordArrive (i : Nat) (s : State) : Option State :=
  match s.flight[i]? with
  | some f =>
    (match f.body with
     | .logRec h =>
       let c := f.dst - 32768
       if !s.flightReady i ∨ (s.core c).freeze ≠ 0 ∨ homeCap ≤ s.pending c then none
       else
         let s := (s.land i).modCore c (fun k => { k with home := k.home ++ [h] })
         some (if h.r.direct then s.applyBatch c (fun g => g == h) else s)
     | _ => none)
  | none => none

/-! ### Batches (R160, R163, R166) -/

/-- The pairs that context t of core c acquires: of its own acquire, or of the record that it loads (R163, R178). -/
def State.acquiring (s : State) (c t : Nat) : List Point :=
  match (s.ctx c t).acq with
  | some (_, some l) => l
  | _ => ((s.core c).aq.filter (fun q => q.loading == some t)).filterMap (·.pair)

/-- Does a set name a record of core o's log? -/
def named (set : List Point) (o : Nat) (r : LogRec) : Bool :=
  r.st != .void && !r.reserved && set.any (fun p => p.core == o && precedes r.seq p.point)

/-- Has a record that p names, bound for a home, still to arrive there? -/
def State.stillComing (s : State) (home : Nat) (tag : BitVec 7) (p : Nat → LogRec → Bool) : Bool :=
  s.cores.any (fun e => (match s.tenantLog e.1 tag with
    | some l => l.recs.any (fun r => decide (r.home = home) && p e.1 r)
    | none => false))
  || s.flight.any (fun f => f.dst == dstHome home && (match f.body with | .logRec h => h.tag == tag && p h.core h.r | _ => false))

/-- Does such a record wait at the router port of a full store (R163)? -/
def State.portBlocked (s : State) (home : Nat) (tag : BitVec 7) (p : Nat → LogRec → Bool) : Bool :=
  decide (homeCap ≤ s.pending home)
  && s.flight.any (fun f => f.dst == dstHome home && (match f.body with | .logRec h => h.tag == tag && p h.core h.r | _ => false))

/-- One batch of the records that p names at a home, once all have arrived, or some while others wait for room (R163). -/
def State.batchOf (s : State) (home : Nat) (tag : BitVec 7) (p : Nat → LogRec → Bool) : Option State :=
  let sel (h : HomeRec) : Bool := h.tag == tag && p h.core h.r
  if (s.core home).home.any sel && (!s.stillComing home tag p || s.portBlocked home tag p) then some (s.applyBatch home sel) else none

/-- BATCH_APPLY (R159, R163, R166): the batch that context t's acquire, carried acquire or own-view load forms at a home. -/
def tryBatchApply (c t home : Nat) (s : State) : Option State :=
  let tag := (s.core c).tag
  if (s.core home).freeze ≠ 0 then none else
  match s.ownWait c t with
  | some line =>
    if (s.ownRecs c line).any (fun r => r.st == .unpublished || r.held) then none
    else s.batchOf home tag (fun o r => decide (o = c) && r.lines.contains line)
  | none =>
    let set := s.acquiring c t
    if set.all (fun p => match s.tenantLog p.core tag with | some l => !precedes l.frontier p.point | none => decide (p.point = 0))
    then s.batchOf home tag (named set) else none

/-- FORCED_COMPACTION (R160): above 6,144 pending records, all but the adds of reproducible mode are applied, one batch for each
tenant. -/
def tryForcedCompaction (c : Nat) (s : State) : Option State :=
  let free (h : HomeRec) : Bool := !(h.r.kind == 1 && h.r.rm)
  if (s.core c).freeze ≠ 0 ∨ s.pending c ≤ 6144 ∨ (s.core c).home.any free = false then none
  else
    let tags := uniq (((s.core c).home.filter free).map (·.tag.toNat))
    some (tags.foldl (fun s tag => s.applyBatch c (fun h => decide (h.tag.toNat = tag) && free h)) s)

/-! ### Meanings -/

/-- LOG_DESCRIPTOR_EFFECT (R147). -/
def execLogDescriptorEffect (core : Nat) (s : State) : Out := runEvent (tryLogDescriptorEffect core) s

/-- SHIPPER_SEND (R157). -/
def execShipperSend (core : Nat) (s : State) : Out := runEvent (tryShipperSend core) s

/-- HOME_RECORD_ARRIVE (R158). -/
def execHomeRecordArrive (idx : Nat) (s : State) : Out := runEvent (tryHomeRecordArrive idx) s

/-- BATCH_APPLY (R159). -/
def execBatchApply (core : Nat) (ctx : Nat) (home : Nat) (s : State) : Out := runEvent (tryBatchApply core ctx home) s

/-- FORCED_COMPACTION (R160). -/
def execForcedCompaction (core : Nat) (s : State) : Out := runEvent (tryForcedCompaction core) s

end Sys2Proof.Machine
end

