-- ==== Sys2Proof/Machine/Streams.lean ====
section
/-! DEFINITION. Ring pushes and pops, stream bindings, and sync-cell operations (R271, R272, R364 to R368). -/

namespace Sys2Proof.Machine

/-! ### Rings (R364) -/

/-- The 64 bytes of v registers d to d + 3, vd lowest. -/
def Env.line64 (e : Env) (d : Nat) : List Byte := ((List.range 4).map (fun i => toBytes 16 (e.vReg (d + i)).toNat)).flatten

/-- `rpush` (R364): d is a multiple of 4, and field a is the ring's number. -/
def slotRpush (o : OpDa) : SlotDef :=
  { g := o.g.toNat, vo := (List.range 4).map (· + dReg o.d), sync := true
    bad := dN o.d || decide (o.d.toNat % 4 ≠ 0) || decide (31 < o.a.toNat), badMod := modCheck o.p false false false
    run := fun e w =>
      if ((e.s.core e.c).ring o.a.toNat).unusable then .error (.trap cRing (ringVal o.a.toNat)) else
      match w.s.ringWrite e.c o.a.toNat (e.line64 (dReg o.d)) with
      | none => .error (.forfeit 2)
      | some s => .ok { w with s := s } }

/-- `rpop` (R364). -/
def slotRpop (o : OpA) : SlotDef :=
  { g := o.g.toNat, sync := true, bad := decide (31 < o.a.toNat), badMod := modCheck o.p false false false
    run := fun e w =>
      let r := (w.s.core e.c).ring o.a.toNat
      if !ringEn r.desc then .error (.trap cRing (ringVal o.a.toNat))
      else if r.tail ≤ r.head then .error (.forfeit 2)
      else .ok { w with s := w.s.modCore e.c (fun k => k.modRing o.a.toNat Ring.pop) } }

/-! ### Stream bindings (R68, R365, R366) -/

/-- A number that names no stream register. -/
def badStream (d : BitVec 6) : Bool := decide (d.toNat < 24) || decide (31 < d.toNat)

/-- A binding word with a reserved kind or a nonzero reserved bit (R68, R365). -/
def badBinding (b : Word) : Bool :=
  let kind := bitsN b 61 3
  decide (4 < kind) || decide (bitsN b 48 13 ≠ 0)
    || (if kind = 1 ∨ kind = 2 then decide (bitsN b 12 12 ≠ 0)
        else if kind = 3 ∨ kind = 4 then decide (bitsN b 0 6 ≠ 0) || decide (bitsN b 21 3 ≠ 0) else false)

/-- The value of a pattern descriptor that is not a multiple of 16, the base first (R366). -/
def patMisaligned (d : List Word) : Option Word := ([0, 2, 3, 4].map (fun i => d.getD i 0)).find? (fun v => decide (v.toNat % 16 ≠ 0))

/-- `sbind` (R365, R366); a pattern descriptor in the pending record store traps, with its slice offset (R126; log 97). -/
def slotSbind (o : OpDa) : SlotDef :=
  { g := o.g.toNat, xs := [o.a], bad := badStream o.d, badMod := modCheck o.p false false false, ill := fun e => badBinding (e.xa o.a)
    run := fun e w =>
      let b := e.xa o.a
      let kind := bitsN b 61 3
      if kind = 0 then .ok { w with binds := w.binds ++ [(dReg o.d, 0, [])] }
      else
        let b := setField b 24 (0 : BitVec 24)
        if kind ≤ 2 then .ok { w with binds := w.binds ++ [(dReg o.d, b, [])] }
        else
          let pa := sliceAddr e.c (bitsN b 6 15 * 64)
          if 4096 ≤ e.c ∨ inHomeStore pa then .error (.trap cAccess (BitVec.ofNat 64 (bitsN b 6 15 * 64))) else
          match e.readNow { pa := pa, leaf := 0 } 64 with
          | .error q => .error q
          | .ok _ =>
            let d := e.s.rdWords pa 8
            match patMisaligned d with
            | some v => .error (.trap cMisaligned v)
            | none => .ok { w with binds := w.binds ++ [(dReg o.d, b, d)] } }

/-- `sfree` (R365). -/
def slotSfree (o : OpD) : SlotDef :=
  { g := o.g.toNat, bad := badStream o.d, badMod := modCheck o.p false false false
    run := fun _ w => .ok { w with binds := w.binds ++ [(dReg o.d, 0, [])] } }

/-! ### Sync cells (R271, R272, R368) -/

/-- The new value of a cell (R368): operation 0 read, 1 write, 2 add, 3 swap, 4 compare and swap, 5 and 6 signed minimum and
maximum, 7 and 8 unsigned. `d` is the expected value. -/
def cellNew (op : Nat) (c b d : Word) : Word :=
  match op with
  | 0 => c
  | 1 => b
  | 2 => c + b
  | 3 => b
  | 4 => if c = d then b else c
  | 5 => if c.toInt < b.toInt then c else b
  | 6 => if c.toInt < b.toInt then b else c
  | 7 => if c.toNat < b.toNat then c else b
  | _ => if c.toNat < b.toNat then b else c

/-- May core c use cell n (R271)? -/
def State.cellOk (s : State) (c n : Nat) : Bool :=
  let w := (s.cluster (n / 1024)).window
  let base := bitsN w 0 10
  decide (n < 524288) && decide (field w 25 7 ≠ 0) && decide (field w 25 7 = (s.core c).tag)
  && decide (base ≤ n % 1024) && decide (n % 1024 < base + bitsN w 10 11)

/-- A sync-cell operation on its way to its cluster (R272, R368); the old value comes back to d as a pending result. -/
def Work.cellOp (w : Work) (e : Env) (op : Nat) (a : BitVec 6) (b x : Word) (d : Option (BitVec 6)) : Except Stop Work :=
  let n := (e.xa a).toNat
  if !e.s.cellOk e.c n then .error (.trap cAccess (e.xa a)) else
  let (rep, w) := match d with | some _ => w.number e | none => (none, w)
  let latch := match d with | some _ => w.latchName e | none => none
  let s := w.s.fly e.c (dstCluster (n / 1024)) (.cell e.t op n b x (d.map (destReg false)) latch) rep e.pc e.idx
  match d with
  | some d => .ok ({ w with s := s }.pend e false d rep)
  | none => .ok { w with s := s }

/-- A cell operation with cell, operand and destination. -/
def sCell (o : OpDab) (op : Nat) : SlotDef :=
  { g := o.g.toNat, xs := [o.a, o.b], xo := if op = 4 then [dReg o.d] else [], xd := some o.d, sync := true
    badMod := modCheck o.p false false false
    run := fun e w => w.cellOp e op o.a (e.xa o.b) (e.xOld o.d) (some o.d) }

/-- `scld` (R368). -/
def slotScld (o : OpDa) : SlotDef :=
  { g := o.g.toNat, xs := [o.a], xd := some o.d, sync := true, badMod := modCheck o.p false false false
    run := fun e w => w.cellOp e 0 o.a 0 0 (some o.d) }
/-- `scst` (R368). -/
def slotScst (o : OpAb) : SlotDef :=
  { g := o.g.toNat, xs := [o.a, o.b], sync := true, badMod := modCheck o.p false false false
    run := fun e w => w.cellOp e 1 o.a (e.xa o.b) 0 none }
/-- `scadd` (R368). -/
def slotScadd (o : OpDab) : SlotDef := sCell o 2
/-- `scswp` (R368). -/
def slotScswp (o : OpDab) : SlotDef := sCell o 3
/-- `sccas` (R368). -/
def slotSccas (o : OpDab) : SlotDef := sCell o 4
/-- `scmin` (R368). -/
def slotScmin (o : OpDab) : SlotDef := sCell o 5
/-- `scmax` (R368). -/
def slotScmax (o : OpDab) : SlotDef := sCell o 6
/-- `scminu` (R368). -/
def slotScminu (o : OpDab) : SlotDef := sCell o 7
/-- `scmaxu` (R368). -/
def slotScmaxu (o : OpDab) : SlotDef := sCell o 8

/-! ### Meanings -/

/-- RPUSH (R364). -/
def execRpush (o : OpDa) (s : State) : Out := runSlot (encode (.rpush o)) (slotRpush o) s

/-- RPOP (R364). -/
def execRpop (o : OpA) (s : State) : Out := runSlot (encode (.rpop o)) (slotRpop o) s

/-- SBIND (R365). -/
def execSbind (o : OpDa) (s : State) : Out := runSlot (encode (.sbind o)) (slotSbind o) s

/-- SFREE (R365). -/
def execSfree (o : OpD) (s : State) : Out := runSlot (encode (.sfree o)) (slotSfree o) s

/-- SCLD (R368). -/
def execScld (o : OpDa) (s : State) : Out := runSlot (encode (.scld o)) (slotScld o) s

/-- SCST (R368). -/
def execScst (o : OpAb) (s : State) : Out := runSlot (encode (.scst o)) (slotScst o) s

/-- SCADD (R368). -/
def execScadd (o : OpDab) (s : State) : Out := runSlot (encode (.scadd o)) (slotScadd o) s

/-- SCSWP (R368). -/
def execScswp (o : OpDab) (s : State) : Out := runSlot (encode (.scswp o)) (slotScswp o) s

/-- SCCAS (R368). -/
def execSccas (o : OpDab) (s : State) : Out :=
  runSlot (encodePrefix o.p ++ [packR 0x6D#7 o.d o.a o.b 4#3 o.g]) (slotSccas o) s

/-- SCMIN (R368). -/
def execScmin (o : OpDab) (s : State) : Out :=
  runSlot (encodePrefix o.p ++ [packR 0x6D#7 o.d o.a o.b 5#3 o.g]) (slotScmin o) s

/-- SCMAX (R368). -/
def execScmax (o : OpDab) (s : State) : Out :=
  runSlot (encodePrefix o.p ++ [packR 0x6D#7 o.d o.a o.b 6#3 o.g]) (slotScmax o) s

/-- SCMINU (R368). -/
def execScminu (o : OpDab) (s : State) : Out :=
  runSlot (encodePrefix o.p ++ [packR 0x6D#7 o.d o.a o.b 7#3 o.g]) (slotScminu o) s

/-- SCMAXU (R368). -/
def execScmaxu (o : OpDab) (s : State) : Out :=
  runSlot (encodePrefix o.p ++ [packR 0x6E#7 o.d o.a o.b 0#3 o.g]) (slotScmaxu o) s

end Sys2Proof.Machine
end

