-- ==== Sys2Proof/Machine/Landing.lean ====
section
/-! DEFINITION. What performs at memory, at the sync cells and at scale entries, and the results that come back to a context (R64,
R130, R134, R136, R137, R167, R255, R272, R442, R452). -/

namespace Sys2Proof.Machine

/-- Destination number of the results that come back to core c. -/
def dstBack (c : Nat) : Nat := 65536 + c

/-! ### Results (R64, R71, R74, R276) -/

/-- A value that the checkpoint's bundle was still awaiting reaches the checkpoint too (R436): word `i` of the frame, and the next
word for a v register. -/
def Pair.patch (p : Pair) (n : Nat) (isV uh : Bool) (reg : Nat) (v : Vec) : Pair :=
  if p.ckBase ≤ n ∨ 32 ≤ reg then p
  else if isV then
    { p with ckpt := listSet (listSet p.ckpt (32 + 2 * reg) (v.setWidth 64)) (33 + 2 * reg) (v.extractLsb' 64 64) }
  else { p with ckpt := listSet p.ckpt (if uh ∧ 1 ≤ reg ∧ reg ≤ 4 then 103 + reg else reg) (v.setWidth 64) }

/-- Takes the value of number n into what a primary folds and keeps for its secondary (R276, R434, R436). -/
def Pair.resolve (p : Pair) (n : Nat) (v : Vec) : Pair :=
  ({ p with replay := p.replay.set n v } : Pair).flush (p.foldq.map (fun e => if e.1 = some n then (none, v) else e))

/-- Writes a latch if the bundle that filled it is still the one whose results the latches hold (R71): its name is the bundle's
number times 4 plus the latch. -/
def Ctx.fillLate (k : Ctx) (name : Nat) (v : Vec) : Ctx :=
  if name / 4 ≠ k.latSeq ∨ bit k.qv (name % 4) = false then k
  else { k with q := k.q.set (name % 4) v (Nat.mod_lt _ (by decide)), pendQ := setField k.pendQ (name % 4) 0#1 }

/-- Writes an awaited register: a user-level handler's x1 to x4 are y0 to y3 (R74); 32 names no register. -/
def Ctx.writeLate (k : Ctx) (isV uh : Bool) (reg : Nat) (v : Vec) : Ctx :=
  if 32 ≤ reg then k
  else if isV then { k.wv reg v with pendV := setField k.pendV reg 0#1 }
  else if uh ∧ 1 ≤ reg ∧ reg ≤ 4 then
    { k with y := k.y.set ((reg - 1) % 4) (v.setWidth 64) (Nat.mod_lt _ (by decide)), pendY := setField k.pendY (reg - 1) 0#1 }
  else { k with x := k.x.set (reg % 32) (v.setWidth 64) (Nat.mod_lt _ (by decide)), pendX := setField k.pendX reg 0#1 }

/-- Where a result goes. -/
structure Dest where
  c : Nat
  t : Nat
  isV : Bool
  reg : Nat
  latch : Option Nat
  gen : Nat
  uh : Bool
  rep : Option Nat

/-- A result reaches the continuation that awaits it; one whose continuation has left is dropped (R64, R100). -/
def State.deliver (s : State) (d : Dest) (v : Vec) (p1 : Option Bool) : State :=
  let k := s.ctx d.c d.t
  if k.gen ≠ d.gen then s else
  let k := (k.writeLate d.isV d.uh d.reg v)
  let k := match d.latch with | some n => k.fillLate n v | none => k
  let k := match p1 with | some b => k.wp 1 b | none => k
  s.setCtx d.c d.t { k with pair := match d.rep with | some n => k.pair.map (fun p => (p.resolve n v).patch n d.isV d.uh d.reg v) | none => k.pair }

/-- A load that meets poison leaves its register as it was and traps in the loading bundle, at whose address the frame and the notice
stand (R81, R95, R350, R442; log 18). -/
def State.deliverPoison (s : State) (d : Dest) (pc : BitVec 60) (slot : BitVec 3) (line : Nat) : State :=
  let k := s.ctx d.c d.t
  if k.gen ≠ d.gen then s else
  let old : Vec := if d.isV then k.rv d.reg else ((k.x[d.reg % 32]'(Nat.mod_lt _ (by decide))).setWidth 128)
  let s := s.deliver { d with rep := none } (if d.uh ∧ d.isV = false ∧ 1 ≤ d.reg ∧ d.reg ≤ 4 then (k.rx d.reg).setWidth 128 else old) none
  let tval : Word := BitVec.ofNat 64 line
  let s := s.consumed d.c d.t pc tval
  if k.stop.isSome then s
  else (s.dropTwin d.c d.t).takeTrapAt d.c d.t cPoison slot tval pc pc

/-- The destination of an item in flight that carries a result. -/
def Flight.dest (f : Flight) (t : Nat) (isV : Bool) (reg : Nat) (latch : Option Nat) : Dest :=
  { c := f.src, t := t, isV := isV, reg := reg, latch := latch, gen := f.gen, uh := f.uh, rep := f.rep }

/-- A load performs (R64, R134): reads, and fills the logged-read buffer when no record of the core for the line is on its way
(R166, R167). -/
def State.loadLands (s : State) (d : Dest) (pc : BitVec 60) (slot : BitVec 3) (pa size : Nat) (logged : Bool) (value : List Byte → Vec) : State :=
  let s := s.eccRange pa size
  match s.poisoned pa size with
  | some l => s.deliverPoison d pc slot l
  | none =>
    let raw := s.readPhys d.c pa size
    let s := if logged ∧ (s.ownRecs d.c (lineOf pa)).isEmpty ∧ kindOf pa ≠ 3 then s.bufFill d.c (lineOf pa) else s
    s.deliver d (value raw) none

/-- PENDING_RESULT_ARRIVE (R64): a load performs and its value is written, or the answer of an operation that has performed comes
back; the mark clears. -/
def tryPendingResultArrive (i : Nat) (s : State) : Option State :=
  match s.flight[i]? with
  | none => none
  | some f =>
    match f.body with
    | .load t isV reg size sgn pa latch logged mask old =>
      if s.flightReady i ∧ s.serves pa then
        some ((s.land i).loadLands (f.dest t isV reg latch) f.pc f.slot pa size logged (loadValue isV size sgn mask old))
      else none
    | .planed t reg n near sat pa latch _ =>
      if s.flightReady i ∧ s.serves pa then
        let planes := planesRead n near
        let s := (s.land i).eccPlanes pa (planedCount n) planes
        let d := f.dest t true reg latch
        some (match planePoison s pa (planedCount n) planes with
          | .error (.trap _ l) => s.deliverPoison d f.pc f.slot l.toNat
          | _ => s.deliver d (planedVec (s.rdByte f.src) pa n near sat) none)
      else none
    | .result t isV reg v p1 latch => some ((s.land i).deliver (f.dest t isV reg latch) v p1)
    | _ => none

/-! ### Stores, cells, scale entries -/

/-- DIRECT_STORE_PERFORM (R134 to R137): a direct store, or the write of a planed update (R360), takes effect at the line's controller,
or in the host line buffer. -/
def tryDirectStorePerform (i : Nat) (s : State) : Option State :=
  match s.flight[i]? with
  | none => none
  | some f =>
    match f.body with
    | .store _ pa data en add =>
      if s.flightReady i = false ∨ s.serves pa = false then none else
      let s := s.land i
      let s := if add.isSome then s.eccRange pa data.length else s
      let bs := match add with | some fmt => addBytes fmt (s.rdHome pa data.length) data | none => data
      let runs := maskRuns (fun o => decide (o < data.length) && bit en o) 16 0
      some (runs.foldl (fun s r => s.wrHome f.src (pa + r.1) ((bs.drop r.1).take (2 ^ r.2))) s)
    | .planes _ pa mask data => if s.flightReady i ∧ s.serves pa then some ((s.land i).wrPlanesAt f.src pa mask data) else none
    | _ => none

/-- SYNC_CELL_PERFORM (R272, R368): one indivisible step at the cluster; the old value goes back. -/
def trySyncCellPerform (i : Nat) (s : State) : Option State :=
  match s.flight[i]? with
  | none => none
  | some f =>
    match f.body with
    | .cell t op n b d reg latch =>
      if s.flightReady i = false then none else
      let k := n / 1024
      let old := (s.cluster k).cells.getD (n % 1024) 0
      let s := (s.land i).modCluster k (fun q => { q with cells := q.cells.set (n % 1024) (cellNew op old b d) })
      some (match reg with
        | some r => { s with flight := s.flight ++ [{ f with dst := dstBack f.src, body := .result t false r (old.setWidth 128) none latch }] }
        | none => s)
    | _ => none

/-- SCALE_OP_PERFORM (R255, R256): a fold or commit performs at the entry's home. -/
def tryScaleOpPerform (i : Nat) (s : State) : Option State :=
  match s.flight[i]? with
  | none => none
  | some f =>
    match f.body with
    | .scale _ _ pa _ =>
      if s.flightReady i ∧ s.serves pa then some (((s.land i).eccRange pa 64).scalePerform f.body) else none
    | _ => none

/-! ### The host port (R137, R452) -/

/-- Is a host line buffered while the link is up? -/
def State.buffered (s : State) (line : Nat) : Bool := s.link.up && s.hostBuf.any (fun h => h.1 == line)

/-- HOST_LINE_WRITEBACK (R137): a buffered line is evicted. -/
def tryHostLineWriteback (line : Nat) (s : State) : Option State := if s.buffered line then some (s.writeBack line) else none

/-- HOST_SNOOP (R137): the host receives the merged line, which leaves the buffer (log 19). -/
def tryHostSnoop (line : Nat) (s : State) : Option State := if s.buffered line then some (s.writeBack line) else none

/-- Does a line lie in the host-managed window (R452)? -/
def State.inWindow (s : State) (line : Nat) : Bool :=
  let w := s.hostWin
  let pa := 64 * line
  bit w 63 && decide (kindOf pa = 1) && decide (bitsN w 30 9 * 2 ^ 30 ≤ pa % 2 ^ 48)
  && decide (pa % 2 ^ 48 < (bitsN w 30 9 + bitsN w 0 9) * 2 ^ 30)

/-- HOST_CXL_MEM_ACCESS (R452): a host read or write of a line of the managed window performs at its controller. -/
def tryHostCxlMemAccess (line : Nat) (write : Bool) (data : BitVec 512) (s : State) : Option State :=
  if s.link.up = false ∨ s.inWindow line = false then none
  else some (if write then s.wrBytes (64 * line) (toBytes 64 data.toNat) else s.eccRange (64 * line) 64)

/-! ### The end of a freeze (R130) -/

/-- Wakes the timed waiters whose deadline has passed (R270); f bounds their number. -/
def State.wakeExpired (s : State) (c : Nat) : Nat → State
  | 0 => s
  | f + 1 =>
    match (List.range (s.core c).waits.length).find? (fun i => (tryWaitcTimeout c i s).isSome) with
    | some i => ((tryWaitcTimeout c i s).getD s).wakeExpired c f
    | none => s

/-- FREEZE_END (R130): the cycles of the freeze that remain pass; then the increments that were held are applied, and after them
the timeouts. -/
def tryFreezeEnd (c : Nat) (s : State) : Option State :=
  let n := (s.core c).freeze
  if n = 0 then none else
  let s := (List.range n).foldl (fun s _ =>
    let t := (s.core c).cycle % 16
    (if (s.ctx c t).mode = .running then s.countForfeit c t 12 else s).modCore c
      (fun k => { k with cycle := k.cycle + 1 }.perfAdd 0x00 none)) s
  let s := s.modCore c (fun k => { k with freeze := 0 })
  let s := (List.range 64).foldl (fun s n => (tryCounterCycleUpdate c n s).getD s) s
  some (s.wakeExpired c (s.core c).waits.length)

/-! ### Meanings -/

/-- PENDING_RESULT_ARRIVE (R64). -/
def execPendingResultArrive (idx : Nat) (s : State) : Out := runEvent (tryPendingResultArrive idx) s

/-- FREEZE_END (R130). -/
def execFreezeEnd (core : Nat) (s : State) : Out := runEvent (tryFreezeEnd core) s

/-- HOST_LINE_WRITEBACK (R137). -/
def execHostLineWriteback (line : Nat) (s : State) : Out := runEvent (tryHostLineWriteback line) s

/-- HOST_SNOOP (R137). -/
def execHostSnoop (line : Nat) (s : State) : Out := runEvent (tryHostSnoop line) s

/-- HOST_CXL_MEM_ACCESS (R452). -/
def execHostCxlMemAccess (line : Nat) (write : Bool) (data : BitVec 512) (s : State) : Out := runEvent (tryHostCxlMemAccess line write data) s

/-- SCALE_OP_PERFORM (R255). -/
def execScaleOpPerform (idx : Nat) (s : State) : Out := runEvent (tryScaleOpPerform idx) s

/-- SYNC_CELL_PERFORM (R272). -/
def execSyncCellPerform (idx : Nat) (s : State) : Out := runEvent (trySyncCellPerform idx) s

/-- DIRECT_STORE_PERFORM (R134). -/
def execDirectStorePerform (idx : Nat) (s : State) : Out := runEvent (tryDirectStorePerform idx) s

end Sys2Proof.Machine
end

