-- ==== Sys2Proof/Machine/Queues.lean ====
section
/-! DEFINITION. Events of arrival queues, dispatch, frames, mailboxes, completion queues, table loads and pattern read-ahead (R77,
R81, R95, R185, R191 to R202, R222, R227, R228, R252, R366, R367). -/

namespace Sys2Proof.Machine

/-! ### Arrival queues and dispatch (R77, R191 to R197) -/

/-- Is a refill to be made in this cycle: the ring is not empty, the queue has room, and none has been made (R195, R196)? -/
def Core.refillDue (k : Core) : Bool :=
  decide (k.freeze = 0) && !k.spilled.isEmpty && decide (k.aq.length < 48) && decide (k.refAt ≠ some k.cycle)

/-- SPILL_REFILL (R195): the oldest spilled record moves into the queue with its entry cycle; `S` is cleared. -/
def trySpillRefill (c : Nat) (s : State) : Option State :=
  let k := s.core c
  match k.spilled with
  | [] => none
  | q :: rest =>
    if !k.refillDue then none
    else some (s.setCore c { k with
      spilled := rest, aq := k.aq ++ [{ q with rcd := { q.rcd with s := false } }], refAt := some k.cycle })

/-- The lowest idle worker context (R192). -/
def State.idleCtx (s : State) (c : Nat) : Option Nat := ((List.range 16).drop 1).find? (fun t => (s.ctx c t).mode == .idle)

/-- May a queued record take part in dispatch (R192)? -/
def State.dispatchable (s : State) (c : Nat) (q : Cont) : Bool :=
  q.loading.isNone && s.recTag q == (s.core c).tag && !s.haltedHere c q.rcd.region.toNat && !s.haltedOn c q.rcd.region.toNat && s.workerRoom c q.rcd.region.toNat

/-- Index of the smallest measure among those that p allows; the first among equals. -/
def bestIdx {α : Type} (p : α → Bool) (f : α → Nat) (l : List α) : Option Nat :=
  let ok := (List.range l.length).filter (fun i => match l[i]? with | some a => p a | none => false)
  minBy (fun i => match l[i]? with | some a => f a | none => 0) ok

/-- The record that the dispatcher takes (R192): one that has waited 65,536 cycles, the oldest first, else by priority and entry
cycle. -/
def State.chooseRecord (s : State) (c : Nat) : Option Nat :=
  let k := s.core c
  let old (q : Cont) : Bool := s.dispatchable c q && decide (65536 ≤ k.cycle - q.entry)
  match bestIdx old (fun q => q.entry) k.aq with
  | some i => some i
  | none =>
    match minBy (fun r => r) ((k.aq.filter (s.dispatchable c)).map (fun q => (s.prio q.rcd.region.toNat).toNat)) with
    | none => none
    | some pr => bestIdx (fun q => s.dispatchable c q && decide ((s.prio q.rcd.region.toNat).toNat = pr)) (fun q => q.entry) k.aq

/-- Is a frame that waits in the frame queue able to be restored: budget room, itself counted (R190, R201)? -/
def State.frameFits (s : State) (c : Nat) (f : FrameMsg) : Bool :=
  let r := f.region.toNat
  !s.haltedHere c r && !s.haltedOn c r && (s.pathUp s.depth r).all (fun q => decide (s.workersOf c q ≤ s.wctxOn c q))

/-- May the dispatcher of a core act in this cycle: once, and not while the core is frozen (R130, R192)? -/
def Core.mayDispatch (k : Core) : Bool := decide (k.freeze = 0) && decide (k.dispAt ≠ some k.cycle)

/-- DISPATCH (R192): a queued record is assigned to the lowest idle context, which loads it; its entry stays allocated to it. A
frame that can be restored comes first (R201). -/
def tryDispatch (c : Nat) (s : State) : Option State :=
  if (s.core c).frames.any (s.frameFits c) ∨ !(s.core c).mayDispatch then none else
  match s.idleCtx c, s.chooseRecord c with
  | some t, some i =>
    (match (s.core c).aq[i]? with
     | none => none
     | some q =>
       let s := s.modCore c (fun k => { k with aq := listSet k.aq i { q with loading := some t }, dispAt := some k.cycle })
       some (s.modCtx c t (fun k => { k with mode := .loading, region := q.rcd.region, tiles := 0 })))
  | _, _ => none

/-- A context as dispatch leaves it (R77, R89, R103): the record's PC, x1 to x6, p1 to p7 and region; all else at its initial
value. -/
def Ctx.ofRec (k : Ctx) (core t : Nat) (r : Rec) (rm : Bool) : Ctx :=
  { Ctx.reset core t with
    mode := .running, pc := r.pc, region := r.region, p := r.p ++ 0#1
    x := Vector.ofFn (fun i => if h : 1 ≤ i.val ∧ i.val ≤ 6 then r.xs[i.val - 1]'(by omega) else 0)
    status := prvOf core t ||| (if rm then 1#64 <<< 31 else 0)
    recM := r.m, recX := r.ext, hop := r.hop, gen := k.gen + 1, latSeq := k.latSeq, regErr := k.regErr }

/-- LOAD_COMPLETE (R178, R187, R192, R197): the carried acquire has completed, and the context becomes running; a deferred reap
turns it off instead, and the record goes back into its entry. -/
def tryLoadComplete (c t : Nat) (s : State) : Option State :=
  let k := s.ctx c t
  let aq := (s.core c).aq
  match findIdx (fun q => q.loading == some t) aq with
  | none => none
  | some i =>
    match aq[i]? with
    | none => none
    | some q =>
      if k.mode ≠ .loading ∨ !s.acquireDone c q.pair.toList then none
      else if k.reap then
        some ((s.modCore c (fun k => { k with aq := listSet k.aq i { q with loading := none } })).modCtx c t (fun k =>
          { k with mode := .off, reap := false, region := 0 }))
      else
        let s := s.modCore c (fun k => { k with aq := listDel k.aq i, rbuf := [] })
        let s := s.setCtx c t { k.ofRec c t q.rcd (s.region q.rcd.region.toNat).rm with wake := q.wake, reap := k.reap }
        some (s.wantLine c t)

/-! ### The dispenser (R198) -/

/-- The core on which the dispenser places a record. -/
def State.place (s : State) (cluster : Nat) (q : Cont) : Option Nat :=
  if s.haltedRegion q.rcd.region.toNat then none else
  minBy s.loadOf (((List.range 8).map (· + 8 * cluster)).filter (fun c =>
    s.acceptsRegion c q.rcd.region.toNat && (!q.rcd.ext || hasFp64 c)))

/-- DISPENSER_PLACE (R198): the oldest record that some core accepts goes to the one of lowest load; `HOP` counts it. One record is
placed in a cycle of the cluster's clock, which its first core counts (DESIGN CHOICE, log 105). -/
def tryDispenserPlace (cluster : Nat) (s : State) : Option State :=
  let now := (s.core (8 * cluster)).cycle
  if (s.cluster cluster).dispAt = some now then none else
  let disp := (s.cluster cluster).disp
  match findIdx (fun q => (s.place cluster q).isSome) disp with
  | none => none
  | some i =>
    match disp[i]? with
    | none => none
    | some q =>
      match s.place cluster q with
      | none => none
      | some c =>
        let q := { q with toCluster := false, rcd := { q.rcd with hop := if q.rcd.hop = 255 then 255 else q.rcd.hop + 1 } }
        let s := s.modCluster cluster (fun k => { k with disp := listDel k.disp i, dispAt := some now })
        some ((s.arrive c q).getD (s.fly (dstCluster cluster) (dstCore c) (.cont q)))

/-! ### Stops and frames (R81, R95, R200 to R202) -/

/-- Is a context stopping for extension migration, or stopped because its frame could not move (R200, R201)? -/
def Ctx.migrating (k : Ctx) : Bool := match k.stop with | some q => decide (q.code = 0) | none => false

/-- WORKER_TRAP_STOP (R95): no result is awaited any more, so the frame is written and the notice posted. -/
def tryWorkerTrapStop (c t : Nat) (s : State) : Option State :=
  let k := s.ctx c t
  if k.stop.isNone ∨ k.migrating ∨ k.hasPending ∨ k.mode ≠ .running then none else some (s.finishStop c t)

/-- Target cores of a migrating frame that have a free entry in their frame queue (R200, R201). -/
def State.frameTarget (s : State) (c r : Nat) : Option Nat :=
  match s.extTarget c r with
  | none => none
  | some x =>
    if (s.core x).frames.length < 8 then some x
    else
      let ok (x : Nat) : Bool := hasFp64 x && s.acceptsRegion x r && decide ((s.core x).frames.length < 8)
      match minBy s.loadOf (((List.range 8).map (· + c / 8 * 8)).filter ok) with
      | some x => some x
      | none => minBy (fun x => meshHops (clusterOf x) (clusterOf c)) (((List.range 64).map (fun j => dieOf c * 512 + 8 * j + 7)).filter ok)

/-- Moves a context's frame from its frame slot into a core's frame queue, and frees the context (R201). -/
def State.moveFrame (s : State) (c t target : Nat) : State :=
  let r := (s.ctx c t).region
  let words := s.rdWords (s.frameSlot c t r.toNat) 144
  (s.modCore target (fun k => { k with frames := k.frames ++ [{ words := words, region := r }] })).freeCtx c t

/-- EXTENSION_MIGRATE (R200, R201): no result is awaited any more; the frame is written with `STOP` 0 and moves to the target's
frame queue, or stays with the stopped context while that queue is full. -/
def tryExtensionMigrate (c t : Nat) (s : State) : Option State :=
  let k := s.ctx c t
  if !k.migrating ∨ k.hasPending ∨ k.mode ≠ .running then none
  else
    let s := s.writeFrame c t k.pc 0
    let full (x : Nat) : Bool := decide (8 ≤ (s.core x).frames.length)
    match s.extTarget c k.region.toNat with
    | some x =>
      if full x then some (s.modCtx c t (fun k => { k with mode := .stopped, fbuf := .empty, freq := none })) else some (s.moveFrame c t x)
    | none => some (s.modCtx c t (fun k => { k with mode := .stopped, fbuf := .empty, freq := none }))

/-- FRAME_MOVE_RETRY (R201): a qualifying core has a free entry. -/
def tryFrameMoveRetry (c t : Nat) (s : State) : Option State :=
  let k := s.ctx c t
  if !k.migrating ∨ k.mode ≠ .stopped then none
  else (s.frameTarget c k.region.toNat).map (s.moveFrame c t)

/-- FRAME_RESTORE_DISPATCH (R201, R202): the first frame with budget room is restored into the lowest idle context. -/
def tryFrameRestoreDispatch (c : Nat) (s : State) : Option State :=
  let l := (s.core c).frames
  if !(s.core c).mayDispatch then none else
  match s.idleCtx c, findIdx (s.frameFits c) l with
  | some t, some i =>
    (match l[i]? with
     | none => none
     | some f =>
       let s := s.modCore c (fun k => { k with frames := listDel k.frames i, dispAt := some k.cycle, rbuf := [] })
       some ((s.modCtx c t (fun k => { k with region := f.region, onExt := true, gen := k.gen + 1 })).restoreFrame c t f.words))
  | _, _ => none

/-- Has the dispatcher of core c something to do in this cycle (R192, R201)? -/
def State.dispatchDue (s : State) (c : Nat) : Bool :=
  (s.core c).mayDispatch && (s.idleCtx c).isSome && ((s.core c).frames.any (s.frameFits c) || (s.chooseRecord c).isSome)

/-- RECORD_ARRIVAL (R191, R194, R196, R198): a record reaches its cluster's dispenser, or its core's queue or spill ring: one from the
router port in a cycle, behind the dispatcher's choice and the refill. -/
def tryRecordArrival (i : Nat) (s : State) : Option State :=
  match s.flight[i]? with
  | none => none
  | some f =>
    match f.body with
    | .cont q =>
      if s.flightReady i = false then none
      else if q.toCluster then some ((s.land i).modCluster (f.dst - 8192) (fun k => { k with disp := k.disp ++ [q] }))
      else
        let k := s.core f.dst
        if k.arrAt = some k.cycle ∨ k.freeze ≠ 0 ∨ s.dispatchDue f.dst ∨ k.refillDue then none
        else ((s.land i).arrive f.dst q).map (fun s => s.modCore f.dst (fun k => { k with arrAt := some k.cycle }))
    | _ => none

/-- REALIGN_RELEASE (R185): the count is reached, or 64 issue cycles have passed. -/
def tryRealignRelease (c t : Nat) (s : State) : Option State :=
  let k := s.ctx c t
  match k.realign with
  | none => none
  | some held =>
    if k.realignN ≤ (s.alignedAt (clusterOf c) k.region.toNat k.pc).length ∨ 64 ≤ held
    then some (s.releaseAligned (clusterOf c) k.region.toNat k.pc) else none

/-! ### Mailboxes (R222) -/

/-- A message reaches core c for a tenant: its mailbox, or that of its saved state; none while it has to wait (R222). -/
def State.receiveMail (s : State) (c : Nat) (tag : BitVec 7) (m : Msg) : Option State :=
  if s.mailTakes c tag = false then none
  else if (s.core c).tag = tag then some (s.enterMail c m)
  else some { s with tenants := s.tenants.map (fun t => if t.core = c ∧ t.tag = tag then { t with mail := t.mail ++ [m] } else t) }

/-- MAILBOX_ARRIVE (R222): a message of a core of this package; one from the router port in a cycle. -/
def tryMailboxArrive (i : Nat) (s : State) : Option State :=
  match s.flight[i]? with
  | none => none
  | some f =>
    match f.body with
    | .mail m _ _ tag =>
      let k := s.core f.dst
      if s.flightReady i = false ∨ k.mailAt = some k.cycle then none
      else ((s.land i).receiveMail f.dst tag m).map (fun s => s.modCore f.dst (fun k => { k with mailAt := some k.cycle }))
    | _ => none

/-! ### Completion queues (R227, R228) -/

/-- Translates an address for a region, without a core: under the tenant's root word and tag. A writer needs `W`. -/
def State.regionXl (s : State) (r : Nat) (va : Nat) (write : Bool := true) : Except (BitVec 8) Xl :=
  let g := s.region r
  if 2 ^ 60 ≤ va ∨ !bit g.root 63 then .error cTranslation else
  match walk s g.root va with
  | .fault => .error cTranslation
  | .poison _ => .error cPoison
  | .leaf level e =>
    let x : Xl := { pa := leafFrame e + va % 2 ^ pageBits level, leaf := e }
    if leafTag e ≠ g.tag ∨ (write && !leafW e) = true ∨ inHomeStore x.pa ∨ (kindOf x.pa = 2 ∧ s.link.up = false) then .error cAccess
    else match s.poisoned x.pa 8 with
      | some _ => .error cPoison
      | none => .ok x

/-- Writes a record to a region's queue: none while the queue is full; a queue that cannot be reached discards it and faults the
region (R228, R234). -/
def State.postTo (s : State) (r : Nat) (w0 w1 w2 w3 : Word) (note core ctx : Nat) : Option State :=
  let g := s.region r
  if g.cq = 0 then some s else
  let n := g.cqn.toNat
  let tail := g.cqTail
  match s.regionXl r g.cq.toNat, s.regionXl r (g.cq.toNat + 32 + 32 * (tail % 2 ^ n)) with
  | .ok cb, .ok slot =>
    if (s.rd64 cb.pa).toNat + 2 ^ n ≤ tail + 1 then none
    else
      let ph : Word := if tail / 2 ^ n % 2 = 0 then 1#64 <<< 63 else 0
      let s := (s.wrWords slot.pa [w0 ||| ph, w1, w2, w3]).wr64 (cb.pa + 8) (BitVec.ofNat 64 (tail + 1))
      let s := s.modRegion r (fun g => { g with cqTail := tail + 1 })
      some (if note = 1 then s.raiseUser core ctx r (Config.freeValue s.steps)
        else if note = 2 then { s with msix := s.msix ++ [(g.tag, g.msix)] } else s)
  | .error q, _ => some (s.regionFault r q)
  | _, .error q => some (s.regionFault r q)

/-- Writes a record to the host event queue (R456): none while it is full; without a queue it is discarded. -/
def State.postHost (s : State) (w0 w1 w2 w3 : Word) : Option State :=
  match s.hostq with
  | none => some s
  | some q =>
    if (s.rd64 q.base).toNat + 2 ^ q.n ≤ q.tail + 1 then none
    else some { (s.putRecord q.base q.n q.tail w0 w1 w2 w3) with hostq := some { q with tail := q.tail + 1 } }

/-- COMPLETION_RECORD_POST (R227, R228): a record is written in the order in which those for its queue came. -/
def tryCompletionRecordPost (i : Nat) (s : State) : Option State :=
  match s.flight[i]? with
  | none => none
  | some f =>
    match f.body with
    | .record r w0 w1 w2 w3 note core ctx =>
      if (s.flight.take i).any (fun g => g.dst == f.dst) then none
      else if r = hostQueueNo then (s.land i).postHost w0 w1 w2 w3
      else (s.land i).postTo r w0 w1 w2 w3 note core ctx
    | _ => none

/-! ### Table loads (R252) -/

/-- Does an epilogue descriptor name table n (0 to 3 decode, 4 to 7 curve)? -/
def EpiDesc.names (d : EpiDesc) (n : Nat) : Bool :=
  if n < 4 then decide (d.mode = 2) && decide (d.tfmt.toNat = 6 + n) else d.cv && decide (d.cvn.toNat = n - 4)

/-- Does a matrix operation name table n? -/
def MatOp.names (o : MatOp) (n : Nat) : Bool :=
  (decide (n < 4) && (decide (o.fa = 7 + n) || decide (o.fb = 7 + n))) || (match o.epi with | some d => d.names n | none => false)

/-- Is an operation that was queued before a load still to use its table, on the core or in the saved state of a region (R252, R393)? -/
def State.tableHeld (s : State) (c : Nat) (x : TableLoad) : Bool :=
  let uses (mat : List MatOp) (epi : List EpiEntry) : Bool :=
    mat.any (fun o => decide (o.id < x.before) && o.names x.table)
    || epi.any (fun p => decide (p.id < x.before) && decide (p.kind ≠ 2) && p.desc.names x.table)
  uses (s.core c).mat (s.core c).epi || s.saved.any (fun v => decide (v.core = c) && s.tagOf v.region == (s.core c).tag && uses v.mat v.epi)

/-- TABLE_LOAD_EFFECT (R252): the table is replaced as a whole, and the thread that loads it goes on. -/
def tryTableLoadEffect (c t : Nat) (s : State) : Option State :=
  let k := s.core c
  match findIdx (fun x => x.ctx == t) k.tload with
  | none => none
  | some i =>
    match k.tload[i]? with
    | none => none
    | some x =>
      if s.tableHeld c x ∨ (k.tload.take i).any (fun y => y.table == x.table) then none
      else
        let old : OldTable := { table := x.table, dec := k.dec.get? x.table, cur := k.cur.get? (x.table - 4) }
        let k := { k with
          tload := listDel k.tload i
          dec := match x.dec with | some d => k.dec.set x.table d | none => k.dec
          cur := match x.cur with | some l => k.cur.set (x.table - 4) l | none => k.cur
          curOwner := if x.cur.isSome then k.curOwner.set (x.table - 4) (s.ctx c t).region.toNat else k.curOwner }
        let s := s.setCore c k
        some (if (s.ctx c t).gen = x.gen then s.modCtx c t (fun k => { k with loaded := k.loaded ++ [old] }) else s)

/-! ### Pattern bindings (R366, R367) -/

/-- Does an access that the thread issued before it bound the pattern of register r still have to perform (R367)? -/
def State.patWaits (s : State) (c t r : Nat) : Bool :=
  let k := s.ctx c t
  s.flight.any (fun f => f.ofThread c t && f.gen == k.gen && decide (0 < f.bun) && decide (f.bun ≤ k.patAt.getD r 0))

/-- PATTERN_READAHEAD (R367): the core reads the next element of a bound pattern, at most four ahead of the pops, as a load of the
thread; what would fault is left for the pop. -/
def tryPatternReadahead (c t r : Nat) (s : State) : Option State :=
  let k := s.ctx c t
  let got := k.ahead.getD r []
  let desc := s.patDesc c t r
  let p := bindPos (k.rb (r - 24)) + got.length
  if k.mode ≠ .running ∨ k.stop.isSome ∨ r < 24 ∨ 32 ≤ r ∨ k.bindKind r ≠ 3 ∨ 4 ≤ got.length ∨ patTotal desc ≤ p ∨ s.patWaits c t r = true then none
  else match translateEngine s c k.prv .load (patAddr desc p).toNat with
    | .error _ => none
    | .ok x =>
      if s.serves x.pa = false ∨ s.unitBusy c x.pa then none
      else if (s.ownHit c (leafL x.leaf) [lineOf x.pa]).isSome then
        (if (s.ownWait c t).isNone then some (s.ownViewStart c t (lineOf x.pa)) else none)
      else
        let met := s.ecc
        let s := s.eccRange x.pa 16
        match s.poisoned x.pa 16 with
        | some _ => if s.ecc = met then none else some s
        | none => some (s.modCtx c t (fun k =>
            { k with ahead := k.ahead.set r (got ++ [BitVec.ofNat 128 (ofBytes (s.readPhys c x.pa 16))]) }))

/-! ### Meanings -/

/-- REALIGN_RELEASE (R185). -/
def execRealignRelease (core : Nat) (ctx : Nat) (s : State) : Out := runEvent (tryRealignRelease core ctx) s

/-- WORKER_TRAP_STOP (R95). -/
def execWorkerTrapStop (core : Nat) (ctx : Nat) (s : State) : Out := runEvent (tryWorkerTrapStop core ctx) s

/-- RECORD_ARRIVAL (R194). -/
def execRecordArrival (idx : Nat) (s : State) : Out := runEvent (tryRecordArrival idx) s

/-- SPILL_REFILL (R195). -/
def execSpillRefill (core : Nat) (s : State) : Out := runEvent (trySpillRefill core) s

/-- DISPATCH (R192). -/
def execDispatch (core : Nat) (s : State) : Out := runEvent (tryDispatch core) s

/-- LOAD_COMPLETE (R192). -/
def execLoadComplete (core : Nat) (ctx : Nat) (s : State) : Out := runEvent (tryLoadComplete core ctx) s

/-- DISPENSER_PLACE (R198). -/
def execDispenserPlace (cluster : Nat) (s : State) : Out := runEvent (tryDispenserPlace cluster) s

/-- EXTENSION_MIGRATE (R200). -/
def execExtensionMigrate (core : Nat) (ctx : Nat) (s : State) : Out := runEvent (tryExtensionMigrate core ctx) s

/-- FRAME_RESTORE_DISPATCH (R201). -/
def execFrameRestoreDispatch (core : Nat) (s : State) : Out := runEvent (tryFrameRestoreDispatch core) s

/-- FRAME_MOVE_RETRY (R201). -/
def execFrameMoveRetry (core : Nat) (ctx : Nat) (s : State) : Out := runEvent (tryFrameMoveRetry core ctx) s

/-- MAILBOX_ARRIVE (R222). -/
def execMailboxArrive (idx : Nat) (s : State) : Out := runEvent (tryMailboxArrive idx) s

/-- COMPLETION_RECORD_POST (R228). -/
def execCompletionRecordPost (idx : Nat) (s : State) : Out := runEvent (tryCompletionRecordPost idx) s

/-- TABLE_LOAD_EFFECT (R252). -/
def execTableLoadEffect (core : Nat) (ctx : Nat) (s : State) : Out := runEvent (tryTableLoadEffect core ctx) s

/-- PATTERN_READAHEAD (R367). -/
def execPatternReadahead (core : Nat) (ctx : Nat) (reg : Nat) (s : State) : Out := runEvent (tryPatternReadahead core ctx reg) s

end Sys2Proof.Machine
end

