-- ==== Sys2Proof/Machine/CopyMove.lean ====
section
/-! DEFINITION. Engine events: copies, the command queue, channel elements, credits, receives, tree reduction and broadcasts (R59,
R213 to R220, R264, R265, R399 to R408). -/

namespace Sys2Proof.Machine

/-! ### Reads and writes of engines (R121, R174, R175) -/

/-- The physical places of n bytes of an engine operation of core c, with the status of the first failure (R121); `held` are the
translations that the operation keeps. -/
def State.enginePieces (s : State) (c t : Nat) (acc : Acc) (va n : Nat) (held : List Tlb := []) : Except (BitVec 8) (List (Xl × Nat)) :=
  (pagePieces va n).foldr (fun p r =>
    match translateEngine s c (prvOf c t).toNat acc p.1 held, r with
    | .ok x, .ok l => .ok ((x, p.2) :: l)
    | .error q, _ => .error q
    | _, .error q => .error q) (.ok [])

/-- The translations that the operation keeps after them (R121). -/
def State.keeps (s : State) (c : Nat) (held : List Tlb) (va n : Nat) : List Tlb := keptLeaves s c held ((pagePieces va n).map (·.1))

/-- The walks for n bytes read their table words (R116, R130); none while a slice that holds one serves no request. -/
def State.walked (s : State) (c : Nat) (held : List Tlb) (va n : Nat) : Option State :=
  let l := ((pagePieces va n).map (fun p => walkPlaces s c p.1 held)).flatten
  if l.any (fun p => !s.serves p.1) then none else some (l.foldl (fun s p => s.eccRange p.1 p.2) s)

/-- Does every place serve requests now (R130)? -/
def State.servesAll (s : State) (l : List (Xl × Nat)) : Bool := l.all (fun p => s.serves p.1.pa)

/-- Buffered host lines that an engine reads or writes are written back first (R137). -/
def State.flushHost (s : State) (l : List (Xl × Nat)) : State :=
  ((l.map (fun p => if kindOf p.1.pa = 2 then linesOf p.1.pa p.2 else [])).flatten).foldl State.writeBack s

/-- Reads the bytes of places: the status poison when a line is poisoned (R131). The state holds what the read leaves. -/
def State.engineRead (s : State) (c : Nat) (l : List (Xl × Nat)) : State × Except (BitVec 8) (List Byte) :=
  let s := l.foldl (fun s p => s.eccRange p.1.pa p.2) (s.flushHost l)
  (s, if l.any (fun p => (s.poisoned p.1.pa p.2).isSome) then .error stPoison
      else .ok ((l.map (fun p => s.readPhys c p.1.pa p.2)).flatten))

/-- A record that an engine appends for context t (R175). -/
def engineRec (t : Nat) (rm : Bool) (x : Xl) (data : List Byte) : LogRec :=
  { kind := 0, size := BitVec.ofNat 4 (Nat.log2 data.length), pa := BitVec.ofNat 52 x.pa, rm := rm, ctx := BitVec.ofNat 4 t, seq := 0
    data := BitVec.ofNat 128 (ofBytes data), home := homeOf x.leaf x.pa }

/-- Appends set records of at most 16 bytes for an engine write into a logged page, in ascending order (R175). -/
def State.appendBytes (s : State) (c t : Nat) (rm : Bool) (x : Xl) : Nat → List Byte → State
  | 0, _ => s
  | n + 1, bs =>
    if bs.isEmpty then s else
    let r := engineRec t rm x (bs.take 16)
    let s := (s.append c r).modCore c (fun k => { k with rbuf := k.rbuf.filter (fun l => !r.lines.contains l.1) })
    s.appendBytes c t rm { x with pa := x.pa + 16 } n (bs.drop 16)

/-- Writes the bytes of an engine operation: in place on direct pages, as records on logged ones; none while the log has no room
(R170, R400). -/
def State.engineWrite (s : State) (c t : Nat) (rm : Bool) (l : List (Xl × Nat)) (bs : List Byte) : Option State :=
  let logged := (l.filter (fun p => leafL p.1.leaf)).map (fun p => (p.2 + 15) / 16)
  if logged ≠ [] ∧ (s.core c).log.room (logged.foldl (· + ·) 0) = false then none
  else
    let step (a : State × List Byte) (p : Xl × Nat) : State × List Byte :=
      (if leafL p.1.leaf then a.1.appendBytes c t rm p.1 (p.2 / 16 + 1) (a.2.take p.2) else a.1.wrBytes p.1.pa (a.2.take p.2), a.2.drop p.2)
    some (l.foldl step (s.flushHost (l.filter (fun p => !leafL p.1.leaf)), bs)).1

/-- Writes bytes of which no write clears a line's poison (R131). -/
def State.wrKeep (s : State) (pa : Nat) (bs : List Byte) : State := { s.wrBytes pa bs with poison := s.poison }

/-! ### Copies (R264, R265, R399 to R403) -/

/-- Packets of a row (R265). -/
def Copy.perRow (x : Copy) : Nat := (x.len + 255) / 256
/-- Packets of a copy (R265). -/
def Copy.total (x : Copy) : Nat := x.rows * x.perRow
/-- Bytes of packet p. -/
def Copy.size (x : Copy) (p : Nat) : Nat := Nat.min 256 (x.len - 256 * (p % x.perRow))
/-- Offset of packet p in its row. -/
def Copy.off (x : Copy) (p : Nat) : Nat := 256 * (p % x.perRow)
/-- Source address of packet p (R399). -/
def Copy.srcOf (x : Copy) (p : Nat) : Nat :=
  (x.src.setWidth 64 + BitVec.ofNat 64 (p / x.perRow) * x.sstr + BitVec.ofNat 64 (x.off p)).toNat
/-- Destination address of packet p (R399). -/
def Copy.dstOf (x : Copy) (p : Nat) : Nat :=
  (x.dst.setWidth 64 + BitVec.ofNat 64 (p / x.perRow) * x.dstr + BitVec.ofNat 64 (x.off p)).toNat
/-- Has packet p come to its end: landed, or never sent? -/
def Copy.settled (x : Copy) (p : Nat) : Bool := x.landed.contains p || x.dropped.contains p
/-- Has packet p been read, and not landed yet? -/
def Copy.isHeld (x : Copy) (p : Nat) : Bool := x.held.any (fun h => h.1 == p)
/-- Packets whose records come before those of packet p: lower destination addresses (R400). -/
def Copy.before (x : Copy) (p : Nat) : List Nat :=
  (List.range x.total).filter (fun q => decide (x.dstOf q < x.dstOf p) || (decide (x.dstOf q = x.dstOf p) && decide (q < p)))

/-- Replaces copy i of core c. -/
def State.setCopy (s : State) (c i : Nat) (x : Copy) : State := s.modCore c (fun k => { k with copies := listSet k.copies i x })

/-- A failure ends a copy early: packets that have not landed and are not held are never sent (R399, R400). -/
def Copy.fail (x : Copy) (st : BitVec 8) : Copy :=
  { x with stat := if x.stat = 0 then st else x.stat, dropped := (List.range x.total).filter (fun p => !x.landed.contains p && !x.isHeld p) }

/-- The counter that a landed packet increments (R264). -/
def State.countPacket (s : State) (c : Nat) (x : Copy) (l : List (Xl × Nat)) : State :=
  let core := match l.head? with
    | some p => if leafL p.1.leaf = false ∧ kindOf p.1.pa = 0 then sliceCore p.1.pa else c
    | none => c
  s.bump core x.tag 1 x.region.toNat

/-- Lines that a copy has by now written whole in place lose their poison (R131, R400). -/
def State.clearCopied (s : State) (x : Copy) (l : List (Xl × Nat)) (p : Nat) : State :=
  let l := l.zip ((pagePieces (x.dstOf p) (x.size p)).map (·.1))
  let inside (a : Nat) : Bool := x.landed.any (fun q => decide (x.dstOf q ≤ a) && decide (a + 16 ≤ x.dstOf q + x.size q))
  let whole (pa va line : Nat) : Bool :=
    (List.range 4).all (fun g => let a := 64 * line + 16 * g + va; decide (pa ≤ a) && inside (a - pa))
  { s with poison := s.poison.filter (fun line =>
      !(l.any (fun p => !leafL p.1.1.leaf && (linesOf p.1.1.pa p.1.2).contains line && whole p.1.1.pa p.2 line))) }

/-- Writes packet p of copy i, which has been read; none while the log has no room. -/
def State.landPacket (s : State) (c i : Nat) (x : Copy) (p : Nat) (bs : List Byte) : Option State :=
  (s.walked c x.tlbs (x.dstOf p) (x.size p)).bind (fun s =>
  match s.enginePieces c x.ctx .store (x.dstOf p) (x.size p) x.tlbs with
  | .error st => some (s.setCopy c i (x.fail st))
  | .ok l =>
    if s.servesAll l = false then none else
    (s.engineWrite c x.ctx x.rm l bs).map (fun u =>
      let x := { x with
        landed := p :: x.landed, held := x.held.filter (fun h => h.1 != p), tlbs := s.keeps c x.tlbs (x.dstOf p) (x.size p) }
      ((u.setCopy c i x).clearCopied x l p).countPacket c x l))

/-- The streamer beside a physical address (R25). -/
def streamerAt (pa : Nat) : Streamer :=
  if kindOf pa = 0 then .cluster (clusterOf (sliceCore pa)) else if kindOf pa = 1 then .bulk (stackDie (pa / 4096 % 8)) else .host

/-- Does a streamer run: firmware has not stopped the clocks of its cluster (R469)? -/
def State.streams (s : State) : Streamer → Bool
  | .cluster k => !(s.cluster k).stopped
  | .bulk _ => true
  | .host => true

/-- The streamer beside its source reads packet p and pushes it to the destination (R25, R399; log 104: all its bytes at one moment). -/
def State.readPacket (s : State) (c i : Nat) (x : Copy) (p : Nat) : Option State :=
  (s.walked c x.tlbs (x.srcOf p) (x.size p)).bind (fun s =>
  match s.enginePieces c x.ctx .load (x.srcOf p) (x.size p) x.tlbs with
  | .error st => some (s.setCopy c i (x.fail st))
  | .ok l =>
    if s.servesAll l = false ∨ l.any (fun q => !s.streams (streamerAt q.1.pa)) then none else
    let y := s.engineRead c l
    let x := { x with tlbs := s.keeps c x.tlbs (x.srcOf p) (x.size p) }
    some (y.1.setCopy c i (match y.2 with | .error st => x.fail st | .ok bs => { x with held := (p, bs) :: x.held })))

/-- A packet of a `copyr` reaches its ring entry (R401). -/
def State.ringPacket (s : State) (c i : Nat) (x : Copy) (r p : Nat) (bs : List Byte) : State :=
  let g := (s.core c).ring r
  let n := x.entry.getD 0
  let s := s.wrBytes (g.addr c n + x.off p) bs
  let s := s.modCore c (fun k => k.modRing r (fun g => g.wrote n bs.length))
  (s.setCopy c i { x with landed := p :: x.landed, held := x.held.filter (fun h => h.1 != p) }).bump c x.tag 1 x.region.toNat

/-- Does a packet that has been read wait for lower ones, as its records enter the log in the order of their addresses (R400)? -/
def State.packetWaits (s : State) (c : Nat) (x : Copy) (p : Nat) : Bool :=
  match s.enginePieces c x.ctx .store (x.dstOf p) (x.size p) x.tlbs with
  | .ok d => d.any (fun q => leafL q.1.leaf) && !(x.before p).all x.settled
  | .error _ => false

/-- COPY_PACKET_LAND (R264, R399 to R401): the streamer reads packet p; once that has been done, the packet lands, in a logged page
behind the lower ones. -/
def tryCopyPacketLand (c i p : Nat) (s : State) : Option State :=
  match (s.core c).copies[i]? with
  | none => none
  | some x =>
    if !x.requested ∨ x.total ≤ p ∨ x.settled p then none else
    match x.held.find? (fun h => h.1 == p), x.ring with
    | none, _ => s.readPacket c i x p
    | some h, some r => some (s.ringPacket c i x r p h.2)
    | some h, none => if s.packetWaits c x p then none else s.landPacket c i x p h.2

/-- Held packets of a copy whose lower packets will never land are appended across the gaps, in ascending order (R400). -/
def State.landGaps (s : State) (c i : Nat) : Nat → State
  | 0 => s
  | n + 1 =>
    match (s.core c).copies[i]? with
    | none => s
    | some x =>
      match x.held.find? (fun h => x.held.all (fun g => (x.before g.1).contains h.1 || g.1 == h.1)) with
      | none => s
      | some h => match s.landPacket c i x h.1 h.2 with | some s' => s'.landGaps c i n | none => s

/-- Its completion objects, in order, and the end of copy i; none while the mailbox has no room (R402). -/
def State.endCopy (s : State) (c i : Nat) (x : Copy) : Option State :=
  let n := x.landed.length
  let m : Msg :=
    { kind := 1, ctx := BitVec.ofNat 4 x.ctx, core := BitVec.ofNat 12 c, tag := x.opn.setWidth 32
      val := BitVec.ofNat 64 (x.stat.toNat * 2 ^ 56 + n) }
  let posted := if x.mb ∨ x.stat ≠ 0 then s.receiveMail c (s.core c).tag m else some s
  posted.map (fun s =>
    let s := if x.cq = 0 then s else s.postRecord c x.region.toNat 1 x.stat x.opn.toNat n 0 (x.cq.toNat - 1) c x.ctx
    s.modCore c (fun k => { k with copies := listDel k.copies i }))

/-- COPY_END (R402): every packet has landed, or will never be sent; held packets are appended first. -/
def tryCopyEnd (c i : Nat) (s : State) : Option State :=
  match (s.core c).copies[i]? with
  | none => none
  | some x =>
    if !x.requested ∨ (List.range x.total).any (fun p => !x.settled p && !x.isHeld p) then none else
    let s := s.landGaps c i x.held.length
    match (s.core c).copies[i]? with
    | none => none
    | some x => if x.held = [] then s.endCopy c i x else none

/-- COPY_CANCEL_ARRIVE (R403): the cancellation reaches the streamers; what they have read, and the packets `pkts` that they are reading
now, land yet. -/
def tryCopyCancelArrive (c i : Nat) (pkts : List Nat) (s : State) : Option State :=
  match (s.core c).copies[i]? with
  | none => none
  | some x =>
    match x.cancelling with
    | none => none
    | some st =>
      let gone := (List.range x.total).filter (fun p => !x.settled p && !x.isHeld p && !pkts.contains p)
      some (s.setCopy c i { x with
        cancelling := none, dropped := gone ++ x.dropped, stat := if gone = [] ∨ x.stat ≠ 0 then x.stat else st })

/-- COPY_TIMEOUT (R403): `TMO` has run out before the end; it is looked at after a freeze (R130). -/
def tryCopyTimeout (c i : Nat) (s : State) : Option State :=
  match (s.core c).copies[i]? with
  | none => none
  | some x =>
    match x.deadline with
    | some d =>
      if s.time < d ∨ (s.core c).freeze ≠ 0 then none
      else some (s.setCopy c i { x with deadline := none, cancelling := some (x.cancelling.getD 5) })
    | none => none

/-! ### EF4 (R220) -/

/-- Format of a channel's floating-point element codes (R235). -/
def chanFmt (f : Nat) : Fmt :=
  match f with | 5 => Fmt.bf16 | 6 => Fmt.f16 | 7 => Fmt.f32 | 8 => Fmt.f64 | 9 => Fmt.e4m3 | 10 => Fmt.e5m2 | _ => Fmt.e2m1

/-- `EF4Send` for one block: the values that the receiver writes and the new residuals. -/
def ef4Block (fmt : Fmt) (x res : List Nat) : List Nat × List Nat :=
  let v := (x.zip res).map (fun p => toF32 ((fmt.decode p.1).add .rne (Fmt.f32.decode p.2)).1)
  let vals := v.map Fmt.f32.decode
  if vals.any (fun y => y.isNan || y.isInf) then (x.map (fun _ => fmt.nan), x.map (fun _ => 0))
  else
    let amax := (vals.map FVal.abs).foldl FVal.maximum (.fin false 0 0)
    let e : Int := if amax.isZero then -127 else max (-127) (min 127 (amax.log2 - 2))
    let q := vals.map (fun y => (Fmt.e2m1.round .rne true (y.scale2 (-e))).1)
    let back := q.map (fun c => (Fmt.e2m1.decode c).scale2 e)
    (back.map (fun y => (fmt.round .rne false y).1), (vals.zip back).map (fun p => toF32 ((p.1.add .rne p.2.neg).1)))

/-- Blocks of 32. -/
def ef4Blocks (fmt : Fmt) : Nat → List Nat → List Nat → List Nat × List Nat
  | 0, _, _ => ([], [])
  | n + 1, x, res =>
    let a := ef4Block fmt (x.take 32) (res.take 32)
    let b := ef4Blocks fmt n (x.drop 32) (res.drop 32)
    (a.1 ++ b.1, a.2 ++ b.2)

/-- Values of w bytes in memory order. -/
def valuesOf (w : Nat) (bs : List Byte) : List Nat := (List.range (bs.length / w)).map (fun i => ofBytes ((bs.drop (w * i)).take w))

/-- Encodes an element on an EF4 channel: the bytes that the receiver writes, the new residuals in the endpoint's buffer, and the
bytes on the wire (R220). -/
def State.ef4Send (s : State) (c : Nat) (ch : Chan) (efb : Nat) (bs : List Byte) : State × List Byte × Nat :=
  let fmt := chanFmt ch.fmt
  let w := fmt.width / 8
  let x := valuesOf w bs
  let room := efbRoom efb (4 * x.length)
  let res := valuesOf 4 (Mem.bytes s.mem (sliceAddr c efb) room ++ List.replicate (4 * x.length - room) 0)
  let y := ef4Blocks fmt (x.length / 32) x res
  (s.wrKeep (sliceAddr c efb) (((y.2.map (toBytes 4)).flatten).take room), (y.1.map (toBytes w)).flatten, x.length / 32 * 17)

/-! ### The command queue (R395, R401, R404, R408) -/

/-- Packets of an element (R404). -/
def packetsOf (bytes : Nat) : Nat := (bytes + 255) / 256

/-- A credit comes back to endpoint i; with a parked sender it is reserved for it, and the sender's record is woken (R214). -/
def State.giveCredit (s : State) (key i : Nat) : State :=
  match (s.chans.get? key).bind (fun ch => ch.eps[i]?) with
  | none => s
  | some p =>
    match p.waiter with
    | none => s.modChan key (fun ch => ch.modEp i (fun p => { p with credit := p.credit + 1 }))
    | some w =>
      (s.modChan key (fun ch => ch.modEp i (fun p => { p with credit := p.credit + 1, reserved := p.reserved + 1, waiter := none }))).wake
        w.core w.cont (.credit w.a w.d)

/-- A send or broadcast whose source cannot be read: nothing is injected (R404). -/
def State.sendFails (s : State) (c key i region : Nat) (bcast : Bool) (st : BitVec 8) (ctx : Nat) : State :=
  let s := if bcast then s.modChan key (fun ch => { ch with bcast := true }) else s.giveCredit key i
  s.postRecord c region 8 st (key % 4096) 0 0 0 c ctx

/-- A broadcast slot breaks R126 (R408). -/
def badSlot (ch : Chan) : Bool := ch.eps.any (fun p => decide (0x1C0000 < p.efb + ch.shape))

/-- The element read by a send, end-of-stream or broadcast enters the fabric (R404, R406, R408). -/
def State.inject (s : State) (c key i : Nat) (ch : Chan) (bs : List Byte) (token bcast : Bool) (ltag itag : BitVec 6) : State :=
  if bcast then
    if badSlot ch then s.chanError key
    else
      let s := s.modChan key (fun ch => { ch with bcastLeft := ch.eps.length })
      (List.range ch.eps.length).foldl (fun s j => s.fly c (dstChan key j) (.bcast key j bs ltag itag (packetsOf bs.length))) s
  else
    match ch.eps[i]? with
    | none => s
    | some p =>
      let y := if ch.ef4 ∧ !token then s.ef4Send c ch p.efb bs else (s, bs, bs.length)
      let s := y.1.modChan key (fun ch => ch.modEp i (fun p => { p with sent := if token then p.sent else p.sent + 1 }))
      s.fly c (dstChan key i) (.elem key i y.2.1 token ltag itag (if token then 1 else packetsOf y.2.2) p.sent)

/-- An entry of the command queue leaves the core; none while it has to wait. -/
def State.runCmd (s : State) (c : Nat) (q : Cmd) : Option State :=
  match q with
  | .copy id =>
    (match findIdx (fun x => x.id == id) (s.core c).copies with
     | none => some s
     | some i =>
       match (s.core c).copies[i]? with
       | none => some s
       | some x =>
         match x.ring with
         | none => some (s.setCopy c i { x with requested := true })
         | some r =>
           if (List.range x.total).all x.settled then some (s.setCopy c i { x with requested := true }) else
           match ((s.core c).ring r).push with
           | none => none
           | some (n, g) =>
             some ((s.modCore c (fun k => { k with rings := k.rings.set r g })).setCopy c i { x with requested := true, entry := some n }))
  | .send key i src token bcast ltag itag ctx region tlbs =>
    (match s.chans.get? key with
     | none => some s
     | some ch =>
       if token then some (s.inject c key i ch [] true false ltag itag)
       else (s.walked c tlbs src.toNat ch.shape).bind (fun s =>
         match s.enginePieces c ctx .load src.toNat ch.shape tlbs with
         | .error st => some (s.sendFails c key i region.toNat bcast st ctx)
         | .ok l =>
           if s.servesAll l = false then none else
           let y := s.engineRead c l
           some (match y.2 with
             | .error st => y.1.sendFails c key i region.toNat bcast st ctx
             | .ok bs => y.1.inject c key i ch bs false bcast ltag itag)))
  | .rcd q target => some (s.fly c (if q.toCluster then dstCluster target else dstCore target) (.cont q))
  | .post m target ctx region tag => some (s.fly c (dstCore target) (.mail m (some ctx) region tag))

/-- SEND_ENGINE_INJECT (R395, R404): the first entry of the command queue that need not wait leaves it; only a `copyr` without a
free entry keeps its place while later entries go on (R401), and a send whose source's slice is frozen keeps the later ones back. All
wait for the accesses that come before them (R174, R178). -/
def trySendEngineInject (c : Nat) (s : State) : Option State :=
  let q := (s.core c).cmdq
  let waiting (x : Cmd) : Bool := match x with
    | .copy id => (s.runCmd c (.copy id)).isNone
    | _ => false
  if s.gatesOpen c = false then none else
  match findIdx (fun x => !waiting x) q with
  | none => none
  | some i =>
    match q[i]? with
    | none => none
    | some x => (s.modCore c (fun k => { k with cmdq := listDel k.cmdq i })).runCmd c x

/-! ### Channel elements (R213 to R219, R404 to R407) -/

/-- Acknowledges n packets to the core that sent them (R264). -/
def State.acknowledge (s : State) (src dst : Nat) (itag : BitVec 6) (n region : Nat) : State :=
  if itag = 0x3F then s else s.fly src dst (.ack itag n (BitVec.ofNat 24 region))

/-- Puts an element that has landed into the buffer: reserved for a parked receiver, who is woken (R214); with `CQE` set a record
is posted (R405, R407). -/
def State.enqueue (s : State) (key : Nat) (x : Elem) (kind count : Nat) (sig : Word) : State :=
  match s.chans.get? key with
  | none => s
  | some ch =>
    let s := s.modChan key (fun ch => { ch with
      elems := ch.elems ++ [{ x with reserved := ch.rwaiter.isSome }], used := x.slot :: ch.used, rwaiter := none })
    let s := match ch.rwaiter with | some w => s.wake w.core w.cont (.element w.a x.slot) | none => s
    if ch.cqe then s.postRecord ch.rcore (key / 4096) kind 0 (key % 4096) count sig 0 0 0 else s

/-- The lowest buffer slot that is free. -/
def Chan.freeSlot (ch : Chan) : Option Nat := (List.range ch.depth).find? (fun i => !ch.used.contains i)

/-- Position from 1 of the element that lands next, among those that the receive endpoint delivers (R405). -/
def Chan.position (ch : Chan) : Nat := (ch.popped.toNat + ch.elems.length + 1) % 2 ^ 32

/-- An element of bytes, or the token that is delivered, lands in the receive buffer; a poisoned line of it puts the channel in
error (R215, R404). -/
def State.landElem (s : State) (key : Nat) (ch : Chan) (src : Nat) (bs : List Byte) (token : Bool) (kind count : Nat) (sig : Word) : State :=
  match ch.freeSlot with
  | none => s
  | some slot =>
    let pa := ch.slotAddr slot
    let s := if token then s else s.eccRange pa ch.shape
    if !token && (s.poisoned pa ch.shape).isSome then s.chanError key
    else (if token then s else s.wrKeep pa bs).enqueue key { src := src, token := token, slot := slot } kind count sig

/-- Does a set that every member has sent still wait at a tree's nodes: a token lands behind its result (R216, R218)? -/
def Chan.whole (ch : Chan) : Bool :=
  ch.parts.any (fun p => decide (((ch.parts.filter (fun q => q.set == p.set)).map (fun q => q.ids.length)).foldl (· + ·) 0 = ch.eps.length))

/-- CHANNEL_ELEMENT_LAND (R213 to R218, R404, R406, R407): an element or token has wholly landed. -/
def tryChannelElementLand (i : Nat) (s : State) : Option State :=
  match s.flight[i]? with
  | none => none
  | some f =>
    match f.body with
    | .elem key ep bs token ltag itag n k =>
      (match s.chans.get? key with
       | none => some (s.land i)
       | some ch =>
         if s.flightReady i = false ∨ ch.rpkg ≠ s.pkg.toNat ∨ s.serves (sliceAddr ch.rcore 0) = false then none
         else
           let region := key / 4096
           let s := (s.land i).acknowledge ch.rcore f.src itag n region
           if !ch.live then some s
           else if token ∧ ch.kind = 2 ∧ ch.whole then none
           else if token ∧ (ch.kind = 1 ∨ ch.kind = 2) ∧ ch.tokens + 1 < ch.eps.length then
             some (((s.bump ch.rcore ltag n region).modChan key (fun ch => { ch with tokens := ch.tokens + 1 })).fly ch.rcore (dstChan key ep)
               (.credit key ep))
           else if token then
             some ((s.bump ch.rcore ltag n region).landElem key ch (if ch.kind = 1 then ep else 0) [] true 2 ch.position 0)
           else if ch.kind = 2 then
             let id := (ch.eps[ep]?).elim 0 (fun p => p.pkg * 2 ^ 24 + p.core * 2 ^ 12 + ep)
             some (s.modChan key (fun ch => { ch with parts := ch.parts ++
               [{ set := k, node := ep, own := true, data := bs, ids := [id], tags := [(ltag, n)] }] }))
           else some ((s.bump ch.rcore ltag n region).landElem key ch (if ch.kind = 1 then ep else 0) bs false 2 ch.position 0))
    | _ => none

/-- CREDIT_RETURN (R213, R214). -/
def tryCreditReturn (i : Nat) (s : State) : Option State :=
  match s.flight[i]? with
  | none => none
  | some f =>
    match f.body with
    | .credit key ep => if s.flightReady i then some ((s.land i).giveCredit key ep) else none
    | _ => none

/-- The receipt word (R405). -/
def receipt (ch : Chan) (x : Elem) (k : BitVec 32) : Word :=
  BitVec.ofNat 64 ((if x.token then 2 ^ 63 else 0) + (if ch.kind = 1 then x.src else 0) * 2 ^ 32 + k.toNat)

/-- Writes bytes to the places of their pieces, in order; no write clears a line's poison. -/
def State.wrPieces (s : State) : List (Nat × Nat) → List Byte → State
  | [], _ => s
  | p :: l, bs => (s.wrKeep p.1 (bs.take p.2)).wrPieces l (bs.drop p.2)

/-- RECV_COPY_COMPLETE (R405): the bytes reach the destination, the receipt its register, and the credit goes back. -/
def tryRecvCopyComplete (i : Nat) (s : State) : Option State :=
  match s.flight[i]? with
  | none => none
  | some f =>
    match f.body with
    | .recv t reg key x dst k =>
      (match s.chans.get? key with
       | none => some (s.land i)
       | some ch =>
         if s.flightReady i = false ∨ s.serves (sliceAddr ch.rcore 0) = false then none else
         let s := s.land i
         let d := f.dest t false reg none
         let pa := ch.slotAddr x.slot
         let s := match dst with | some _ => s.eccRange pa ch.shape | none => s
         match (match dst with | some _ => s.poisoned pa ch.shape | none => none) with
         | some l => some ((s.freeElem key x).deliverPoison d f.pc f.slot l)
         | none =>
           let s := match dst with | some l => s.wrPieces l (Mem.bytes s.mem pa ch.shape) | none => s
           some ((s.deliver d ((receipt ch x k).setWidth 128) none).freeElem key x))
    | _ => none

/-! ### Tree reduction (R59, R218, R219, R407) -/

/-- The spanning tree of a channel: the children of each node. Nodes 0 to m − 1 are those of the m members, later ones have no
contribution of their own, and the last node is the root. Without an installed tree, all members are children of one root
(log 20). -/
def State.treeOf (s : State) (ch : Chan) : List (List Nat) :=
  match s.trees.get? ch.tree.toNat with
  | some t => t
  | none => List.replicate ch.eps.length [] ++ [List.range ch.eps.length]

/-- Signed minimum or maximum of w-bit integers. -/
def intMinMax (w : Nat) (mx : Bool) (a b : Nat) : Nat := if (sInt w a < sInt w b) = mx then b else a

/-- One value combined with another (R59, R407): integers wrap, E2M1 saturates, E4M3 overflows to NaN. -/
def combineVal (op fmt a b : Nat) : Nat :=
  let w := chanFmtBits fmt
  if fmt ≤ 4 then (if op = 0 then (a + b) % 2 ^ w else intMinMax w (op == 2) a b)
  else if op = 0 then ((chanFmt fmt).add .rne a b).1
  else ((chanFmt fmt).minmax (op == 2) a b).1

/-- Values of w bits of an element, from the lowest address (R47). -/
def unpackBits (w : Nat) (bs : List Byte) : List Nat := (List.range (8 * bs.length / w)).map (fun i => ofBytes bs / 2 ^ (w * i) % 2 ^ w)
/-- An element from its values. -/
def repackBits (w n : Nat) (l : List Nat) : List Byte := toBytes n (l.foldr (fun v acc => v % 2 ^ w + acc * 2 ^ w) 0)

/-- Combines two contributions value by value, the first before the second. -/
def TreePart.join (op fmt : Nat) (a b : TreePart) : TreePart :=
  let w := chanFmtBits fmt
  { a with
    data := repackBits w a.data.length (((unpackBits w a.data).zip (unpackBits w b.data)).map (fun p => combineVal op fmt p.1 p.2))
    ids := a.ids ++ b.ids, tags := a.tags ++ b.tags }

/-- The inputs of a node for a set, in combination order: its own contribution, then its children's results (R59); none while one
of them has not arrived. -/
def Chan.inputs (ch : Chan) (tree : List (List Nat)) (node set : Nat) : Option (List TreePart) :=
  let get (n : Nat) (own : Bool) : Option TreePart := ch.parts.find? (fun p => p.set == set && p.node == n && p.own == own)
  let own := if node < ch.eps.length then [get node true] else []
  let l := own ++ (tree.getD node []).map (fun n => get n false)
  if l.all Option.isSome then some (l.filterMap id) else none

/-- TREE_NODE_COMBINE (R59, R218, R407): a node combines the oldest set of which every input has arrived; the root delivers the
result, sets in their order. -/
def tryTreeNodeCombine (region chn node : Nat) (s : State) : Option State :=
  let key := chanKey region chn
  match s.chans.get? key with
  | none => none
  | some ch =>
    let tree := s.treeOf ch
    let sets := (uniq (ch.parts.map (·.set))).filter (fun k => ((ch.inputs tree node k).map (fun l => !l.isEmpty)).getD false)
    match minBy (fun k => k) sets with
    | none => none
    | some k =>
      match ch.inputs tree node k with
      | some (p :: rest) =>
        let r := rest.foldl (TreePart.join ch.op ch.fmt) p
        let gone (q : TreePart) : Bool := q.set == k && ((q.node == node && q.own) || (!q.own && (tree.getD node []).contains q.node))
        let s := s.modChan key (fun ch => { ch with parts := ch.parts.filter (fun q => !gone q) })
        if node + 1 < tree.length then
          some (s.modChan key (fun ch => { ch with parts := ch.parts ++ [{ r with node := node, own := false }] }))
        else if s.serves (sliceAddr ch.rcore 0) = false ∨ !ch.live then none
        else
          let s := r.tags.foldl (fun s p => s.bump ch.rcore p.1 p.2 region) s
          some (s.landElem key ch 0 r.data false 3 r.ids.length (orderSig r.ids))
      | _ => none

/-- BROADCAST_LAND (R408): the element lands at a member's slot; after the last one the broadcast credit returns. -/
def tryBroadcastLand (i : Nat) (s : State) : Option State :=
  match s.flight[i]? with
  | none => none
  | some f =>
    match f.body with
    | .bcast key j bs ltag itag n =>
      (match (s.chans.get? key).bind (fun ch => (ch.eps[j]?).map (fun p => (ch, p))) with
       | none => some (s.land i)
       | some (ch, p) =>
         if s.flightReady i = false ∨ p.pkg ≠ s.pkg.toNat ∨ s.serves (sliceAddr p.core 0) = false then none else
         let region := key / 4096
         let s := ((s.land i).wrKeep (sliceAddr p.core p.efb) bs).bump p.core ltag n region
         let s := s.acknowledge p.core ch.rcore itag n region
         some (s.modChan key (fun ch => { ch with bcastLeft := ch.bcastLeft - 1, bcast := decide (ch.bcastLeft ≤ 1) })))
    | _ => none

/-! ### Meanings -/

/-- COPY_PACKET_LAND (R399). -/
def execCopyPacketLand (core : Nat) (idx : Nat) (pkt : Nat) (s : State) : Out := runEvent (tryCopyPacketLand core idx pkt) s

/-- COPY_END (R402). -/
def execCopyEnd (core : Nat) (idx : Nat) (s : State) : Out := runEvent (tryCopyEnd core idx) s

/-- COPY_CANCEL_ARRIVE (R403). -/
def execCopyCancelArrive (core : Nat) (idx : Nat) (pkts : List Nat) (s : State) : Out := runEvent (tryCopyCancelArrive core idx pkts) s

/-- COPY_TIMEOUT (R403). -/
def execCopyTimeout (core : Nat) (idx : Nat) (s : State) : Out := runEvent (tryCopyTimeout core idx) s

/-- SEND_ENGINE_INJECT (R404). -/
def execSendEngineInject (core : Nat) (s : State) : Out := runEvent (trySendEngineInject core) s

/-- CHANNEL_ELEMENT_LAND (R404). -/
def execChannelElementLand (idx : Nat) (s : State) : Out := runEvent (tryChannelElementLand idx) s

/-- CREDIT_RETURN (R213). -/
def execCreditReturn (idx : Nat) (s : State) : Out := runEvent (tryCreditReturn idx) s

/-- RECV_COPY_COMPLETE (R405). -/
def execRecvCopyComplete (idx : Nat) (s : State) : Out := runEvent (tryRecvCopyComplete idx) s

/-- TREE_NODE_COMBINE (R218). -/
def execTreeNodeCombine (region : Nat) (ch : Nat) (node : Nat) (s : State) : Out := runEvent (tryTreeNodeCombine region ch node) s

/-- BROADCAST_LAND (R408). -/
def execBroadcastLand (idx : Nat) (s : State) : Out := runEvent (tryBroadcastLand idx) s

end Sys2Proof.Machine
end

