-- ==== Sys2Proof/Machine/Router.lean ====
section
/-! DEFINITION. The token router and the owners of experts: jobs, permits, reservoirs, rows, bins and closing counts (R226,
R237 to R241, R273, R410 to R413). -/

namespace Sys2Proof.Machine

/-! ### Tables and numbers (R237, R238) -/

/-- An expert entry (R238). -/
structure ExpEnt where
  cap : Nat
  pkg : Nat
  clus : Nat
  rrl : Nat
  nrep : Nat
  binch : Nat
  hint : Nat
  reps : List (BitVec 39)
deriving DecidableEq, Repr

/-- An expert entry from its words. -/
def ExpEnt.ofWords (w : List Word) : ExpEnt :=
  let g (i : Nat) : Word := w.getD i 0
  { cap := bitsN (g 0) 48 16, pkg := bitsN (g 0) 30 18, clus := bitsN (g 0) 21 9, rrl := bitsN (g 0) 17 2, nrep := bitsN (g 0) 15 2
    binch := bitsN (g 0) 0 12, hint := bitsN (g 1) 48 16, reps := [field (g 1) 0 39, field (g 2) 0 39, field (g 3) 0 39] }

/-- Package, cluster and bin channel of copy j: 0 is the primary (R238, R239). -/
def ExpEnt.copy (x : ExpEnt) (j : Nat) : Nat × Nat × Nat :=
  if j = 0 then (x.pkg, x.clus, x.binch)
  else let w := x.reps.getD (j - 1) 0; (bitsN w 21 18, bitsN w 12 9, bitsN w 0 12)

/-- Number of an expert's batch half in a region. -/
def resvKey (region layer expert half : Nat) : Nat := ((region * 64 + layer) * 1024 + expert) * 2 + half

/-- Number of the batch half that a permit request is for. -/
def Permit.key (p : Permit) : Nat := resvKey p.region p.layer p.expert p.half

/-- Destination number of the primary owner of an expert's half: what one source sends there stays in order (R18, R459). -/
def dstOwner (pkg key : Nat) : Nat := 2 ^ 70 + pkg * 2 ^ 48 + key
/-- Destination number of a bin. -/
def dstBin (pkg key : Nat) : Nat := 2 ^ 71 + pkg * 2 ^ 48 + key
/-- Destination number of the router of a source cluster. -/
def dstRouter (pkg cluster : Nat) : Nat := 2 ^ 72 + pkg * 2 ^ 48 + cluster

/-- Key of a cluster's grants since the last close. -/
def grantKey (region layer half expert : Nat) : Nat := ((region * 64 + layer) * 2 + half) * 1024 + expert

/-- n words of a region's memory, as firmware and owners read tables. -/
def State.regionWords (s : State) (r : Nat) : Nat → Nat → Option (List Word)
  | _, 0 => some []
  | va, n + 1 =>
    match s.regionXl r va false, s.regionWords r (va + 8) n with
    | .ok x, some l => some (s.rd64 x.pa :: l)
    | _, _ => none

/-- Directory entry of a layer, as the owner reads it (R237). -/
def State.ownerDir (s : State) (r layer : Nat) : Option DirEnt :=
  (s.regionWords r ((s.region r).expd.toNat + 32 * layer) 4).map DirEnt.ofWords

/-- Declared sources of a layer: package and cluster, by source number (R237). -/
def State.ownerSrcs (s : State) (r : Nat) (d : DirEnt) : List (Nat × Nat) :=
  ((s.regionWords r d.srcl.toNat d.nsrc).getD []).map (fun w => (bitsN w 9 18, bitsN w 0 9))

/-- Address of an expert entry. -/
def DirEnt.entryVa (d : DirEnt) (expert : Nat) : Nat := d.base.toNat + 32 * expert

/-- The entry that a reservoir keeps (R239). -/
def Resv.entry (r : Resv) : ExpEnt := ExpEnt.ofWords r.ent

/-- The words of an expert entry, as the owner reads them (R239): those that it keeps while a reservoir of the half is in use. -/
def State.ownerWords (s : State) (r : Nat) (d : DirEnt) (layer expert half : Nat) : Option (List Word) :=
  match s.resvs.get? (resvKey r layer expert half) with
  | some q => some q.ent
  | none => s.regionWords r (d.entryVa expert) 4

/-- An expert entry, as the owner reads it (R239). -/
def State.ownerEnt (s : State) (r : Nat) (d : DirEnt) (layer expert half : Nat) : Option ExpEnt :=
  (s.ownerWords r d layer expert half).map ExpEnt.ofWords

/-! ### Bins (R226, R238, R239) -/

/-- A half of a bin. -/
def Chan.half (ch : Chan) (h : Nat) : Half := if h = 0 then ch.half0 else ch.half1
/-- Changes a half of a bin. -/
def Chan.modHalf (ch : Chan) (h : Nat) (f : Half → Half) : Chan :=
  if h = 0 then { ch with half0 := f ch.half0 } else { ch with half1 := f ch.half1 }

/-- Is a channel a bin of an expert of a layer (R226, R238)? -/
def Chan.binOf (ch : Chan) (layer expert : Nat) : Bool :=
  decide (ch.kind = 3) && decide (ch.layer = layer) && decide (ch.expert = expert)

/-- Is a bin channel a replica bin of its expert, for half h (R226)? -/
def State.isReplica (s : State) (key : Nat) (ch : Chan) (h : Nat) : Bool :=
  match (s.ownerDir (key / 4096) ch.layer).bind (fun d => s.ownerEnt (key / 4096) d ch.layer ch.expert h) with
  | none => false
  | some x => ((List.range x.nrep).map (fun j => x.copy (j + 1))).any (fun r =>
      r.1 == ch.rpkg && r.2.1 == clusterOf ch.rcore && r.2.2 == key % 4096)

/-- Is the tenant of a bin away from the core of the bin (R273)? -/
def State.binAway (s : State) (key : Nat) : Bool :=
  match s.chans.get? key with
  | some ch => decide ((s.core ch.rcore).tag ≠ (s.region (key / 4096)).tag)
  | none => false

/-- A bin discards a closing count or a row (R226). -/
def State.binDiscard (s : State) (key count : Nat) : State :=
  s.postRecord ((s.chans.get? key).elim 0 (·.rcore)) (key / 4096) 8 6 (key % 4096) count 0 0 0 0

/-- A half closes with its batch size (R226). -/
def State.closeHalf (s : State) (key h size : Nat) : State :=
  let s := s.modChan key (fun ch => ch.modHalf h (fun x => { x with st := 2, size := size }))
  s.postRecord ((s.chans.get? key).elim 0 (·.rcore)) (key / 4096) 4 0 (key % 4096) size 0 0 0 0

/-- A half becomes Idle: its bits are cleared, and a primary's rounds end and its reservoir is returned (R226, R239, R273, R383). Grouped operations
that are still on it end at their next group boundary (R384). -/
def State.idleHalf (s : State) (key h : Nat) : State :=
  match s.chans.get? key with
  | none => s
  | some ch =>
    let rk := resvKey (key / 4096) ch.layer ch.expert h
    let s := if s.isReplica key ch h then s else
      let s : State := { s with rounds := s.rounds.erase rk }
      match s.resvs.get? rk with
      | none => s
      | some r => ({ s with resvs := s.resvs.erase rk } : State).modCluster r.cluster (fun k => { k with freeResv := k.freeResv + 1 })
    let s := s.modChan key (fun ch => ch.modHalf h (fun _ => {}))
    s.modCore ch.rcore (fun k => { k with mat := k.mat.map (fun o =>
      match o.grp with
      | some g => if g.binch = key % 4096 ∧ g.half = h ∧ o.region.toNat = key / 4096 then { o with idled := true } else o
      | none => o) })

/-! ### Owners (R239 to R241, R273) -/

/-- Answers a permit request. -/
def State.answerPermit (s : State) (p : Permit) (granted : Bool) (slot copy : Nat) : State :=
  s.fly (dstRouter s.pkg.toNat 512) (dstRouter p.pkg p.cluster) (.answer p granted slot copy)

/-- Refuses a request; the refusal that reaches `HINT` posts the hint, once for the half (R241). -/
def State.refusePermit (s : State) (p : Permit) (r : Resv) : State :=
  let n := r.refusals + 1
  let hint := decide (r.entry.hint ≠ 0) && decide (r.entry.hint ≤ n) && !r.hinted
  let s := { s with resvs := s.resvs.set p.key { r with refusals := n, hinted := r.hinted || hint } }
  let s := if hint then s.postRecord (8 * r.cluster) p.region 5 0 (p.layer * 1024 + p.expert) n 0 0 0 0 else s
  s.answerPermit p false 0 0

/-- Grants or refuses a request from the reservoir (R239): the batch slots are counted from 0. A grant fills the half of the owner's bin
channel, if that is one (R226, R238). -/
def State.grantPermit (s : State) (p : Permit) : State :=
  match s.resvs.get? p.key with
  | none => s.answerPermit p false 0 0
  | some r =>
    if r.left = 0 then s.refusePermit p r else
    let slot := r.entry.cap - r.left
    let s := { s with resvs := s.resvs.set p.key { r with left := r.left - 1 } }
    let s := s.modChan (chanKey p.region r.entry.binch) (fun ch =>
      if ch.binOf p.layer p.expert then ch.modHalf p.half (fun h => if h.st = 0 then { h with st := 1 } else h) else ch)
    s.answerPermit p true slot (slot % (r.entry.nrep + 1))

/-- Does what reaches an owner wait: the half of the expert's primary bin is still Closed (R239), or the tenant of its core is away, and
its reservoirs with it (R273)? -/
def State.ownerWaits (s : State) (p : Permit) (binch : Nat) : Bool :=
  match s.chans.get? (chanKey p.region binch) with
  | some ch =>
    (ch.binOf p.layer p.expert && decide ((ch.half p.half).st = 2)) || decide ((s.core ch.rcore).tag ≠ (s.region p.region).tag)
  | none => false

/-- The reservoir of a half, taken and set to `CAP` at the first request, with the words of the entry (R239, R273); none while no
reservoir is free. -/
def State.openResv (s : State) (p : Permit) (d : DirEnt) (w : List Word) : Option State :=
  match s.resvs.get? p.key with
  | some _ => some s
  | none =>
    let x := ExpEnt.ofWords w
    if (s.cluster x.clus).freeResv = 0 then none
    else
      let r : Resv := { ent := w, left := x.cap, srcs := s.ownerSrcs p.region d, ord := d.ord, cluster := x.clus }
      some ({ s with resvs := s.resvs.set p.key r }.modCluster x.clus (fun k => { k with freeResv := k.freeResv - 1 }))

/-- A request at its owner: none while it has to wait (R239, R240, R273). -/
def State.servePermit (s : State) (p : Permit) : Option State :=
  match s.ownerDir p.region p.layer with
  | none => some (s.answerPermit p false 0 0)
  | some d =>
    match s.ownerWords p.region d p.layer p.expert p.half with
    | none => some (s.answerPermit p false 0 0)
    | some w =>
      if s.ownerWaits p (ExpEnt.ofWords w).binch then none
      else (s.openResv p d w).map (fun s =>
        match s.resvs.get? p.key with
        | none => s
        | some r =>
          if !r.ord then s.grantPermit p
          else if r.srcs.contains (p.pkg, p.cluster) then { s with resvs := s.resvs.set p.key { r with asks := r.asks ++ [p] } }
          else s.refusePermit p r)

/-- The cluster of the primary owner that a request goes to, as far as its entry can be read (R239). -/
def State.ownerCluster (s : State) (p : Permit) : Option Nat :=
  ((s.ownerDir p.region p.layer).bind (fun d => s.ownerEnt p.region d p.layer p.expert p.half)).map (·.clus)

/-- Cycle of a cluster's router, and the input port by which a packet of a source comes to it (R17). -/
def State.portNow (s : State) (src k : Nat) : Option (Nat × Nat) := (arrivalPort src k).map (fun p => ((s.core (8 * k)).cycle, p))

/-- Requests that reach an owner in one cycle are taken in the order of the input ports (R17, R240): may one by port q come behind the
last, which came in some cycle by some port? -/
def portFollows (last : Option (Nat × Nat)) (q : Nat × Nat) : Bool :=
  match last with
  | some l => decide (l.1 ≠ q.1) || decide (l.2 ≤ q.2)
  | none => true

/-- PERMIT_REQUEST_ARRIVE (R239, R240): a request reaches its owner, in one cycle in the order of the router's input ports, behind those
that wait there; a number past those in flight names one that waits. -/
def tryPermitRequestArrive (i : Nat) (s : State) : Option State :=
  match s.flight[i]? with
  | some f =>
    (match f.body with
     | .permit p =>
       if s.flightReady i = false ∨ f.dst ≠ dstOwner s.pkg.toNat p.key then none else
       let at? := (s.ownerCluster p).bind (fun k => (s.portNow f.src k).map (fun q => (k, q)))
       if at?.any (fun a => !portFollows (s.cluster a.1).permAt a.2) then none else
       let s := match at? with | some a => s.modCluster a.1 (fun k => { k with permAt := some a.2 }) | none => s
       if s.permits.any (fun q => q.key == p.key) then some { (s.land i) with permits := s.permits ++ [p] }
       else some (((s.land i).servePermit p).getD { (s.land i) with permits := s.permits ++ [p] })
     | _ => none)
  | none =>
    let j := i - s.flight.length
    match s.permits[j]? with
    | none => none
    | some p =>
      if (s.permits.take j).any (fun q => q.key == p.key) then none
      else { s with permits := listDel s.permits j }.servePermit p

/-- Order of the grants of a round (R240): source package, source cluster, token. -/
def Permit.before (a b : Permit) : Bool :=
  decide (a.pkg < b.pkg) || (decide (a.pkg = b.pkg) && (decide (a.cluster < b.cluster) || (decide (a.cluster = b.cluster) &&
    decide (a.tok < b.tok))))

/-- Puts a request behind those that come before it. -/
def insertPermit (p : Permit) : List Permit → List Permit
  | [] => [p]
  | q :: l => if p.before q then p :: q :: l else q :: insertPermit p l

/-- Grants the rounds that every one of m declared sources has closed (R240); n bounds their number. -/
def State.grantRounds (s : State) (key m : Nat) : Nat → State
  | 0 => s
  | n + 1 =>
    let q := s.rounds.getD key (0, [])
    if m = 0 ∨ (List.range m).any (fun i => !q.2.contains (4 * i + q.1)) then s
    else
      let s := { s with rounds := s.rounds.set key (q.1 + 1, q.2) }
      match s.resvs.get? key with
      | none => s.grantRounds key m n
      | some r =>
        let now := r.asks.filter (fun p => p.round == q.1)
        let s := { s with resvs := s.resvs.set key { r with asks := r.asks.filter (fun p => p.round != q.1) } }
        ((now.foldl (fun l p => insertPermit p l) []).foldl State.grantPermit s).grantRounds key m n

/-- A declared source, by its index, closes a round of a half (R240). -/
def State.closeRound (s : State) (key n round : Nat) : State :=
  let q := s.rounds.getD key (0, [])
  { s with rounds := s.rounds.set key (q.1, (4 * n + round) :: q.2) }

/-- ROUND_CLOSE_ARRIVE (R240): it takes no reservoir. -/
def tryRoundCloseArrive (i : Nat) (s : State) : Option State :=
  match s.flight[i]? with
  | none => none
  | some f =>
    match f.body with
    | .roundClose region layer expert half round source =>
      let p : Permit :=
        { region := region, layer := layer, expert := expert, half := half, round := round, pkg := source / 512, cluster := source % 512
          tok := 0, j := 0 }
      if s.flightReady i = false ∨ f.dst ≠ dstOwner s.pkg.toNat p.key ∨ s.permits.any (fun q => q.key == p.key) then none else
      (match s.ownerDir region layer with
       | none => some (s.land i)
       | some d =>
         match s.ownerEnt region d layer expert half with
         | none => some (s.land i)
         | some x =>
           if s.ownerWaits p x.binch then none
           else
             let srcs := match s.resvs.get? p.key with | some r => r.srcs | none => s.ownerSrcs region d
             match findIdx (fun q => q == (p.pkg, p.cluster)) srcs with
             | none => some (s.land i)
             | some n => some (((s.land i).closeRound p.key n round).grantRounds p.key srcs.length 4))
    | _ => none

/-! ### Closing counts (R226, R239) -/

/-- Adds the refusals of a batch to `REFUSE`, which saturates (R238, R239). -/
def State.addRefuse (s : State) (r va refusals : Nat) : State :=
  if refusals = 0 then s else
  match s.regionXl r (va + 16) with
  | .ok x =>
    let w := s.rd64 x.pa
    s.wr64 x.pa (setField w 48 (BitVec.ofNat 16 (Nat.min 0xFFFF (bitsN w 48 16 + refusals))))
  | .error _ => s

/-- A primary bin has the counts of all its sources: the grant total gives the batch size of every copy (R239). -/
def State.closePrimary (s : State) (key h : Nat) (ch : Chan) (d : DirEnt) (x : ExpEnt) (counts : Tab Nat) : State :=
  let region := key / 4096
  let total := (counts.map (·.2)).foldl (· + ·) 0
  let r := s.resvs.get? (resvKey region ch.layer ch.expert h)
  let s := s.closeHalf key h ((total + x.nrep) / (x.nrep + 1))
  let s := (List.range x.nrep).foldl (fun s j =>
    let q := x.copy (j + 1)
    s.fly ch.rcore (dstBin q.1 (chanKey region q.2.2)) (.closing (chanKey region q.2.2) h 0 ((total + x.nrep - (j + 1)) / (x.nrep + 1)) true
      ch.layer ch.expert)) s
  s.addRefuse region (d.entryVa ch.expert) (r.elim 0 (·.refusals))

/-- CLOSING_COUNT_ARRIVE (R226, R239). -/
def tryClosingCountArrive (i : Nat) (s : State) : Option State :=
  match s.flight[i]? with
  | none => none
  | some f =>
    match f.body with
    | .closing key h source count replica layer expert =>
      if s.flightReady i = false ∨ s.binAway key then none
      else if replica ∧ f.dst ≠ dstBin s.pkg.toNat key then none
      else if replica = false ∧ (f.dst < dstOwner s.pkg.toNat 0 ∨ dstOwner s.pkg.toNat (2 ^ 48) ≤ f.dst) then none
      else
        let s := s.land i
        (match s.chans.get? key with
         | none => some (s.binDiscard key count)
         | some ch =>
           let half := ch.half h
           if !ch.binOf layer expert ∨ half.st = 2 ∨ s.isReplica key ch h ≠ replica then some (s.binDiscard key count)
           else if replica then some (s.closeHalf key h count)
           else
             match s.ownerDir (key / 4096) ch.layer with
             | none => some (s.binDiscard key count)
             | some d =>
               match s.ownerEnt (key / 4096) d ch.layer ch.expert h,
                   findIdx (fun q => q == (source / 512, source % 512)) (s.ownerSrcs (key / 4096) d) with
               | some x, some n =>
                 if (half.counts.get? n).isSome then some (s.binDiscard key count)
                 else
                   let counts := half.counts.set n count
                   let s := s.modChan key (fun ch => ch.modHalf h (fun y => { y with st := 1, counts := counts }))
                   some (if counts.length = d.nsrc then s.closePrimary key h ch d x counts else s)
               | _, _ => some (s.binDiscard key count))
    | _ => none

/-- BIN_ROW_LAND (R226, R264): a token row lands at its slot and its packets are counted; a row beyond the batch size, or for a channel
that is no bin of the expert (R238), is discarded, and one that lands on a poisoned line puts the channel in error (R215). The job that sent it counts it as landed. -/
def tryBinRowLand (i : Nat) (s : State) : Option State :=
  match s.flight[i]? with
  | none => none
  | some f =>
    match f.body with
    | .row key h slot data cluster packets layer expert =>
      if s.flightReady i = false ∨ f.dst ≠ dstBin s.pkg.toNat key then none else
      let back (s : State) : State := s.modCluster cluster (fun k => { k with routes := match k.routes with
        | j :: l => { j with rowsOut := j.rowsOut - 1 } :: l
        | [] => [] })
      (match s.chans.get? key with
       | none => some (back ((s.land i).binDiscard key slot))
       | some ch =>
         if s.serves (sliceAddr ch.rcore 0) = false then none else
         let half := ch.half h
         let s := back (s.land i)
         if !ch.binOf layer expert ∨ !ch.live ∨ ch.depth / 2 ≤ slot ∨ (half.st = 2 ∧ half.size ≤ slot) then some (s.binDiscard key slot)
         else
           let pa := ch.slotAddr (h * (ch.depth / 2) + slot)
           let s := s.eccRange pa ch.shape
           if (s.poisoned pa ch.shape).isSome then some ((s.bump ch.rcore ch.cntr packets (key / 4096)).chanError key) else
           let s := s.wrKeep pa data
           let s := s.modChan key (fun ch => ch.modHalf h (fun x =>
             { x with st := if x.st = 0 then 1 else x.st, landed := slot :: x.landed.filter (· != slot) }))
           some (s.bump ch.rcore ch.cntr packets (key / 4096)))
    | _ => none

/-! ### Jobs (R410 to R412) -/

/-- Replaces the job at the head of a cluster's route queue. -/
def State.setJob (s : State) (k : Nat) (j : Job) : State := s.modCluster k (fun c => { c with routes := j :: c.routes.drop 1 })

/-- Reads bytes for a job through the issuing core's TLBs and the translations that it keeps (R121, R412): none while a slice is
frozen. -/
def State.jobRead (s : State) (j : Job) (va n : Nat) : Option (State × Job × Except (BitVec 8) (List Byte)) :=
  (s.walked j.core j.tlbs va n).bind (fun s =>
  match s.enginePieces j.core j.ctx .load va n j.tlbs with
  | .error q => some (s, j, .error q)
  | .ok l =>
    if s.servesAll l = false then none else
    let y := s.engineRead j.core l
    some (y.1, { j with tlbs := s.keeps j.core j.tlbs va n }, y.2))

/-- 64-bit words of bytes. -/
def wordsOf (bs : List Byte) : List Word := (List.range (bs.length / 8)).map (fun i => BitVec.ofNat 64 (ofBytes ((bs.drop (8 * i)).take 8)))

/-- Reads the entries of experts e onward of a job's layer (R238, R243). -/
def State.readEnts (s : State) (j : Job) : Nat → Nat → Option (State × Job)
  | 0, _ => some (s, j)
  | n + 1, e =>
    (s.jobRead j (j.base.toNat + 32 * e) 32).bind (fun r =>
      r.1.readEnts { r.2.1 with ents := r.2.1.ents ++ [match r.2.2 with | .ok bs => (0, wordsOf bs) | .error q => (q, [])] } n (e + 1))

/-- An expert entry as a job uses it, or the status of a failure: as it has read it, but for a half in use as the owner keeps it, since
writes take effect at the next batch (R243). -/
def State.jobEnt (s : State) (j : Job) (expert : Nat) : Except (BitVec 8) ExpEnt :=
  match s.resvs.get? (resvKey j.region.toNat j.layer expert j.half), j.ents[expert]? with
  | some r, _ => .ok r.entry
  | none, some q => if q.1 = 0 then .ok (ExpEnt.ofWords q.2) else .error q.1
  | none, none => .error stTranslation

/-- Rank of a score: NaN below every number, −0 below +0 (R410). -/
def scoreKey (v : BitVec 32) : Int :=
  if (Fmt.f32.decode v.toNat).isNan then -(2 ^ 33)
  else if bit v 31 then -((v.toNat % 2 ^ 31 : Nat) : Int) - 1 else ((v.toNat % 2 ^ 31 : Nat) : Int)

/-- Puts an expert behind those of the same or a higher score. -/
def insertExpert (sc : List (BitVec 32)) (e : Nat) : List Nat → List Nat
  | [] => [e]
  | f :: l => if scoreKey (sc.getD f 0) < scoreKey (sc.getD e 0) then e :: f :: l else f :: insertExpert sc e l

/-- The experts in rank order (R410). -/
def rankExperts (sc : List (BitVec 32)) : List Nat := (List.range sc.length).foldl (fun l e => insertExpert sc e l) []

/-- Reads the score rows of tokens t onward, up to a failure, whose status the job keeps; none while a slice is frozen. -/
def State.readScores (s : State) (j : Job) : Nat → Nat → Option (State × Job)
  | 0, _ => some (s, j)
  | n + 1, t =>
    match j.tile with
    | some a =>
      let row := (List.range j.nexp).map (fun e => ((s.core j.core).tile a).getD (16 * t + e) 0)
      s.readScores { j with scoreBits := j.scoreBits ++ [row] } n (t + 1)
    | none =>
      (s.jobRead j (j.scores.toNat + t * j.sstr) (4 * j.nexp)).bind (fun r =>
        match r.2.2 with
        | .error q => some (r.1, { r.2.1 with stat := q })
        | .ok bs => r.1.readScores { r.2.1 with scoreBits := r.2.1.scoreBits ++ [(valuesOf 4 bs).map (BitVec.ofNat 32)] } n (t + 1))

/-- The choices of a job (R410, R411). -/
def Job.choose (j : Job) (ranks : List (List Nat)) : List Choice :=
  ((List.range ranks.length).map (fun t => (List.range j.k).map (fun i =>
    let e := (ranks.getD t []).getD i 0
    ({ tok := t, j := i, exp := e, first := e, tried := [e] } : Choice)))).flatten

/-- Experts that a token has requested (R410). -/
def Job.requested (j : Job) (tok : Nat) : List Nat := ((j.choices.filter (fun c => c.tok == tok)).map (·.tried)).flatten

/-- Sends the requests of a round, from choice n on (R411); a failure drops what has not been requested (R412). -/
def State.sendAsks (s : State) (k : Nat) (j : Job) : List Choice → State × Job × List Choice
  | [] => (s, j, [])
  | c :: l =>
    if c.st ≠ 0 then let r := s.sendAsks k j l; (r.1, r.2.1, c :: r.2.2)
    else if j.stat ≠ 0 then let r := s.sendAsks k j l; (r.1, r.2.1, { c with st := 2 } :: r.2.2)
    else match s.jobEnt j c.exp with
      | .error q => let r := s.sendAsks k { j with stat := q } l; (r.1, r.2.1, { c with st := 2 } :: r.2.2)
      | .ok x =>
        let p : Permit :=
          { region := j.region.toNat, layer := j.layer, expert := c.exp, half := j.half, round := j.round, pkg := s.pkg.toNat, cluster := k
            tok := j.tokb + c.tok, j := c.j }
        let s := s.fly (dstCluster k) (dstOwner x.pkg p.key) (.permit p)
        let r := s.sendAsks k j l
        (r.1, r.2.1, { c with asked := true } :: r.2.2)

/-- Closes a round at every primary owner of the layer (R411). -/
def State.sendCloses (s : State) (k : Nat) (j : Job) : State :=
  (List.range j.nexp).foldl (fun s e =>
    match s.jobEnt j e with
    | .error _ => s
    | .ok x => s.fly (dstCluster k) (dstOwner x.pkg (resvKey j.region.toNat j.layer e j.half))
        (.roundClose j.region.toNat j.layer e j.half j.round (s.pkg.toNat * 512 + k))) s

/-- Has a refused choice come to its reroute limit, `RRL` of the expert that it chose first (R411)? -/
def Job.atLimit (j : Job) (c : Choice) (rrl : Nat) : Bool :=
  if j.ord then decide (rrl ≤ j.round) || decide (j.round = j.rnd) else decide (c.reroutes = rrl)

/-- The next candidate of a refused choice, or its drop (R410, R411). -/
def State.reroute (s : State) (j : Job) (c : Choice) : Choice :=
  let d : Choice := { c with refused := false, round := if j.ord then j.round else c.reroutes }
  let limit := match s.jobEnt j c.first with | .ok x => j.atLimit c x.rrl | .error _ => true
  match (if j.stat ≠ 0 ∨ limit = true then none else (j.ranks.getD c.tok []).find? (fun e => !(j.requested c.tok).contains e)) with
  | none => { d with st := 2 }
  | some e => { d with exp := e, tried := e :: d.tried, reroutes := d.reroutes + 1 }

/-- Reroutes every refused choice, in ascending order (R411). -/
def State.rerouteAll (s : State) (j : Job) : Nat → Job
  | 0 => j
  | n + 1 =>
    match findIdx (fun c => c.refused) j.choices with
    | none => j
    | some i => match j.choices[i]? with
      | none => j
      | some c => s.rerouteAll { j with choices := listSet j.choices i (s.reroute j c) } n

/-- After the last answer of a round: reroutes, then the next round or the end of the rounds (R411). -/
def State.advanceJob (s : State) (k : Nat) (j : Job) : State :=
  let j := s.rerouteAll j j.choices.length
  if j.choices.all (fun c => c.st != 0) ∧ (j.ord = false ∨ j.round = j.rnd) then s.setJob k { j with done := true }
  else s.setJob k { j with round := j.round + 1 }

/-- Runs rounds until an answer has to be waited for or the rounds end; n bounds their number. -/
def State.runRounds (s : State) (k : Nat) : Nat → State
  | 0 => s
  | n + 1 =>
    match (s.cluster k).routes.head? with
    | none => s
    | some j =>
      let r := s.sendAsks k j j.choices
      let j := { r.2.1 with choices := r.2.2 }
      let s := (if j.ord then r.1.sendCloses k j else r.1).setJob k j
      if j.choices.any (·.asked) then s
      else
        let s := s.advanceJob k j
        if ((s.cluster k).routes.head?.map (·.done)).getD true then s else s.runRounds k n

/-- ROUTE_JOB_START (R409 to R411): the entries of the layer and the scores are read, the experts are ranked, and the requests of round
0 are sent. -/
def tryRouteJobStart (k : Nat) (s : State) : Option State :=
  match (s.cluster k).routes with
  | [] => none
  | j :: _ =>
    if j.close ∨ j.started ∨ s.gatesOpen j.core = false then none else
    ((s.readEnts j j.nexp 0).bind (fun r => r.1.readScores r.2 j.ntok 0)).map (fun r =>
      let ranks := r.2.scoreBits.map rankExperts
      let j := { r.2 with started := true, ranks := ranks }
      (r.1.setJob k { j with choices := j.choose ranks }).runRounds k 8)

/-- Element shape of a bin: as installed in this package, else as its channel entry says (R235, R411); none where that cannot be read. -/
def State.binShape (s : State) (key : Nat) : Option Nat :=
  match s.chans.get? key with
  | some ch => some ch.shape
  | none => (s.regionWords (key / 4096) ((s.region (key / 4096)).chan.toNat + 32 * (key % 4096)) 1).map
      (fun w => 2 ^ (bitsN (w.getD 0 0) 46 4 + 2))

/-- Sends the token row of a grant; a row that cannot be read is a row of zero bytes (R411, R412). None while a slice is frozen. -/
def State.sendRow (s : State) (k : Nat) (j : Job) (c : Choice) : Option (State × Job) :=
  match s.jobEnt j c.exp with
  | .error q => some (s, { j with stat := if j.stat = 0 then q else j.stat })
  | .ok x =>
    let q := x.copy c.copy
    let key := chanKey j.region.toNat q.2.2
    let shape := (s.binShape key).getD 0
    (s.jobRead j (j.rows.toNat + c.tok * j.rstr) shape).map (fun r =>
      let d : List Byte × BitVec 8 := match r.2.2 with | .ok bs => (bs, 0) | .error e => (List.replicate shape 0, e)
      (r.1.fly (dstCluster k) (dstBin q.1 key) (.row key j.half (c.slot / (x.nrep + 1)) d.1 k (packetsOf shape) j.layer c.exp),
       { r.2.1 with rowsOut := j.rowsOut + 1, stat := if j.stat = 0 then d.2 else j.stat }))

/-- PERMIT_ANSWER (R411): a grant sends the row, a refusal waits for the end of the round. -/
def tryPermitAnswer (i : Nat) (s : State) : Option State :=
  match s.flight[i]? with
  | none => none
  | some f =>
    match f.body with
    | .answer p granted slot copy =>
      let k := p.cluster
      if s.flightReady i = false ∨ f.dst ≠ dstRouter s.pkg.toNat k then none else
      (match (s.cluster k).routes with
       | [] => some (s.land i)
       | j :: _ =>
         match findIdx (fun c => c.asked && j.tokb + c.tok == p.tok && c.j == p.j && c.exp == p.expert) j.choices with
         | none => some (s.land i)
         | some n =>
           match j.choices[n]? with
           | none => none
           | some c =>
             let s := s.land i
             let next (s : State) (j : Job) : State :=
               let s := s.setJob k j
               if j.choices.any (·.asked) then s
               else
                 let s := s.advanceJob k j
                 if ((s.cluster k).routes.head?.map (·.done)).getD true then s else s.runRounds k 8
             if granted then
               let c := { c with st := 1, asked := false, slot := slot, copy := copy, round := if j.ord then j.round else c.reroutes }
               let j := { j with choices := listSet j.choices n c }
               let gk := grantKey p.region p.layer p.half p.expert
               (s.sendRow k j c).map (fun r =>
                 next (r.1.modCluster k (fun q => { q with grants := q.grants.set gk (q.grants.getD gk 0 + 1) })) r.2)
             else some (next s { j with choices := listSet j.choices n { c with asked := false, refused := true } }))
    | _ => none

/-- A word of a route record (R412). -/
def Job.recWord (j : Job) (c : Choice) : Word :=
  let e := if c.st = 1 then c.exp else c.first
  let gw := (j.scoreBits.getD c.tok []).getD e 0
  BitVec.ofNat 64 (c.st * 2 ^ 62 + c.round % 4 * 2 ^ 60 + (if c.st = 1 then c.copy else 0) * 2 ^ 58 + e * 2 ^ 48
    + (if c.st = 1 then c.slot % 2 ^ 16 else 0) * 2 ^ 32 + gw.toNat)

/-- Writes the route records of tokens t onward that can be written (R412); none while a slice is frozen or the log is full. -/
def State.writeRecords (s : State) (j : Job) : Nat → Nat → Option (State × BitVec 8)
  | 0, _ => some (s, j.stat)
  | n + 1, t =>
    let mine := j.choices.filter (fun c => c.tok == t)
    if mine.isEmpty then s.writeRecords j n (t + 1) else
    let bs := ((List.range 4).map (fun i => toBytes 8 (match mine.find? (fun c => c.j == i) with | some c => (j.recWord c).toNat | none => 0))).flatten
    let va := j.rrec.toNat + 32 * t
    (s.walked j.core j.tlbs va 32).bind (fun s =>
    match s.enginePieces j.core j.ctx .store va 32 j.tlbs with
    | .error q => s.writeRecords { j with stat := if j.stat = 0 then q else j.stat } n (t + 1)
    | .ok l =>
      if s.servesAll l = false then none
      else (s.engineWrite j.core j.ctx (s.region j.region.toNat).rm l bs).bind (fun u =>
        u.writeRecords { j with tlbs := s.keeps j.core j.tlbs va 32 } n (t + 1)))

/-- ROUTE_JOB_END (R412): every answer has come and every row has landed; the records are written, then the completion objects. -/
def tryRouteJobEnd (k : Nat) (s : State) : Option State :=
  match (s.cluster k).routes with
  | [] => none
  | j :: rest =>
    if j.close ∨ !j.started ∨ !j.done ∨ j.rowsOut ≠ 0 then none else
    (s.writeRecords j j.ntok 0).map (fun r =>
      let granted := (j.choices.filter (fun c => c.st == 1)).length
      let dropped := (j.choices.filter (fun c => c.st == 2)).length
      let s := r.1.modCluster k (fun c => { c with routes := rest })
      if r.2 ≠ 0 then s.postRecord j.core j.region.toNat 8 r.2 j.layer granted 0 0 j.core j.ctx
      else
        let s := s.bump j.core j.cnt 1 j.region.toNat
        if j.cqr then s.postRecord j.core j.region.toNat 6 0 j.layer (dropped * 2 ^ 16 + granted) 0 0 j.core j.ctx else s)

/-- The closing count of an expert goes to its primary owner: the grants of this cluster since its last close (R413). -/
def State.sendCount (s : State) (k : Nat) (j : Job) (e : Nat) : State :=
  let region := j.region.toNat
  let gk := grantKey region j.layer j.half e
  match s.jobEnt j e with
  | .error _ => s
  | .ok x =>
    (s.fly (dstCluster k) (dstOwner x.pkg (resvKey region j.layer e j.half))
      (.closing (chanKey region x.binch) j.half (s.pkg.toNat * 512 + k) ((s.cluster k).grants.getD gk 0) false j.layer e)).modCluster k
      (fun q => { q with grants := q.grants.erase gk })

/-- RCLOSE_RUN (R413): the grants of this cluster since its last close go to every primary owner of the layer. -/
def tryRcloseRun (k : Nat) (s : State) : Option State :=
  match (s.cluster k).routes with
  | [] => none
  | j :: rest =>
    if !j.close ∨ s.gatesOpen j.core = false then none else
    let region := j.region.toNat
    (s.jobRead j ((s.region region).expd.toNat + 32 * j.layer) 32).bind (fun y =>
      let gone (s : State) : State := s.modCluster k (fun c => { c with routes := rest })
      match y.2.2 with
      | .error q => some ((gone y.1).postRecord j.core region 8 q j.layer 0 0 0 j.core j.ctx)
      | .ok bs =>
        let d := DirEnt.ofWords (wordsOf bs)
        (y.1.readEnts { y.2.1 with base := d.base } d.nexp 0).map (fun z =>
          (List.range d.nexp).foldl (fun s e => s.sendCount k z.2 e) (gone z.1)))

/-! ### Meanings -/

/-- ROUTE_JOB_START (R411). -/
def execRouteJobStart (cluster : Nat) (s : State) : Out := runEvent (tryRouteJobStart cluster) s

/-- PERMIT_REQUEST_ARRIVE (R239). -/
def execPermitRequestArrive (idx : Nat) (s : State) : Out := runEvent (tryPermitRequestArrive idx) s

/-- ROUND_CLOSE_ARRIVE (R240). -/
def execRoundCloseArrive (idx : Nat) (s : State) : Out := runEvent (tryRoundCloseArrive idx) s

/-- PERMIT_ANSWER (R411). -/
def execPermitAnswer (idx : Nat) (s : State) : Out := runEvent (tryPermitAnswer idx) s

/-- BIN_ROW_LAND (R226). -/
def execBinRowLand (idx : Nat) (s : State) : Out := runEvent (tryBinRowLand idx) s

/-- ROUTE_JOB_END (R412). -/
def execRouteJobEnd (cluster : Nat) (s : State) : Out := runEvent (tryRouteJobEnd cluster) s

/-- RCLOSE_RUN (R413). -/
def execRcloseRun (cluster : Nat) (s : State) : Out := runEvent (tryRcloseRun cluster) s

/-- CLOSING_COUNT_ARRIVE (R226). -/
def execClosingCountArrive (idx : Nat) (s : State) : Out := runEvent (tryClosingCountArrive idx) s

end Sys2Proof.Machine
end

