-- ==== Sys2Proof/Machine/MatrixUnit.lean ====
section
/-! DEFINITION. The matrix unit at work: steps, their checks, grouped operations, epilogues and tile loads (R56, R57, R100, R223 to
R225, R370 to R377, R380 to R392). -/

namespace Sys2Proof.Machine

/-! ### Operands (R47, R223, R375 to R377) -/

/-- Byte offset, within the element region, of position p of stored row r: rows of `len` elements, their 32-byte sectors rotated by
r times `SWZ` (R223, R376). -/
def storedAt (bits len swz r p : Nat) : Nat :=
  let rb := len * bits / 8
  let b := p * bits / 8
  let l := rb / 32
  r * rb + (if swz = 0 ∨ l = 0 then b else (b / 32 + r * swz) % l * 32 + b % 32)

/-- The element code at position p of stored row r (R47). -/
def storedCode (raw : Array Byte) (bits len swz r p : Nat) : Nat :=
  let o := storedAt bits len swz r p
  let v := (raw.getD o 0).toNat
  if bits = 4 then (if p % 2 = 0 then v % 16 else v / 16)
  else if bits = 8 then v else v + 256 * (raw.getD (o + 1) 0).toNat

/-- Values of 16 rows or columns of `len` elements. -/
def valueGrid (k : Core) (efmt len : Nat) (code : Nat → Nat → Nat) : Array FVal :=
  ((List.range (16 * len)).map (fun i => efmtValue k efmt (code (i / len) (i % len)))).toArray

/-- What one step multiplies: values by row or column and k, the positions that B keeps, the columns that are alive, block scales. -/
structure StepIn where
  kk : Nat
  group : Nat
  a : Nat → Nat → FVal
  b : Nat → Nat → Option FVal
  live : Nat → Bool
  scales : Option ((Nat → Nat → FVal) × (Nat → Nat → FVal))

/-- The partial sum of one group for row r and column c, with its block scales (R49, R56, R380). -/
def StepIn.part (i : StepIn) (r c g : Nat) : Nat :=
  let ks := (List.range i.group).map (· + g * i.group)
  let p := groupSum (ks.filterMap (fun k => (i.b c k).map (fun v => ((i.a r k).mul v).1)))
  match i.scales with
  | none => p
  | some (sa, sb) =>
    let p := (applyScale p (sa r g) (ks.any (fun k => (i.a r k).isZero))).1
    (applyScale p (sb c g) (ks.any (fun k => match i.b c k with | some v => v.isZero | none => true))).1

/-- One element of the new tile: groups in ascending k (R56, R57, R380). -/
def StepIn.elem (i : StepIn) (old : Nat) (r c : Nat) : Nat :=
  if !i.live c then old else (List.range (i.kk / i.group)).foldl (fun acc g => addF32 acc (i.part r c g)) old

/-- `Step` (R380): the new tile from the old one; `z` starts from +0. -/
def StepIn.run (i : StepIn) (z : Bool) (t : List (BitVec 32)) : List (BitVec 32) :=
  let t := t.toArray
  (List.range 256).map (fun e => BitVec.ofNat 32 (i.elem (if z then 0 else (t.getD e 0).toNat) (e / 16) (e % 16)))

/-- Does row r (or column r) hold a non-finite product (R391)? -/
def StepIn.wild (i : StepIn) (r c : Nat) : Bool :=
  (List.range i.kk).any (fun k => match i.b c k with
    | some v => let p := ((i.a r k).mul v).1; p.isNan || p.isInf
    | none => false)

/-- An element whose error the totals of R391 do not show: neither its row nor its column is compared. -/
def StepIn.blind (i : StepIn) (e : Nat) : Bool :=
  (List.range 16).any (i.wild (e / 16)) && (List.range 16).any (fun r => i.wild r (e % 16))

/-- A fault at operand fetch, or the operands with the state that the reads leave (R390). -/
inductive Fetch where
  /-- not ready: the step waits -/
  | wait
  | fault (s : State) (code : BitVec 8) (tval : Word)
  /-- the weights cannot be translated or accessed (R121) -/
  | fail (s : State) (stat : BitVec 8)
  | ok (s : State) (i : StepIn)

/-- Block scales: the first of two copies at `off`, `n` bytes to a row (R375, R376). -/
def scaleAt (raw : Array Byte) (fw : BitVec 10) (off n r j : Nat) : FVal := blockScale (fwBsf fw) (raw.getD (off + r * n + j) 0).toNat

/-- Do two copies of n bytes at `off` differ? -/
def copiesDiffer (raw : Array Byte) (off size : Nat) (at' : List Nat) : Bool :=
  at'.any (fun i => raw.getD (off + i) 0 != raw.getD (off + size + i) 0)

/-- The code of group i of column c of a sparse operand (R377). -/
def groupCode (raw : Array Byte) (off k0 c i : Nat) : Nat :=
  let v := (raw.getD (off + c * (k0 / 4) + i / 2) 0).toNat
  if i % 2 = 0 then v % 16 else v / 16

/-- B's value at logical k of column c in a sparse operand: the kept values are stored in ascending k (R377). -/
def sparseAt (code : Nat → Nat → Nat) (val : Nat → Nat → FVal) (c k : Nat) : Option FVal :=
  let x := code c (k / 4)
  if k % 4 = x % 4 then some (val c (2 * (k / 4))) else if k % 4 = x / 4 then some (val c (2 * (k / 4) + 1)) else none

/-- The layout tag differs from what is expected: `tval` (R102, R225). -/
def tagFault (ring : Nat) (want got : BitVec 16) : Option Word :=
  if want = got then none else some (BitVec.ofNat 64 (ring % 32 + want.toNat * 2 ^ 16 + got.toNat * 2 ^ 32))

/-- First poisoned line among places. -/
def State.poisonIn (s : State) (l : List (Nat × Nat)) : Option Nat := l.findSome? (fun p => s.poisoned p.1 p.2)

/-- Reads meet the latent errors of places. -/
def State.eccAll (s : State) (l : List (Nat × Nat)) : State := l.foldl (fun s p => s.eccRange p.1 p.2) s

/-- Operand fetch of a dense or sparse multiply (R225, R374 to R377, R390): tags first, then poison, then the copies and codes. -/
def State.fetchRings (s : State) (c : Nat) (o : MatOp) (a b : Claim) : Fetch :=
  let k := s.core c
  let ra := k.ring a.ring
  let rb := k.ring b.ring
  if (ra.ent a.entry).st ≠ 2 ∨ (rb.ent b.entry).st ≠ 2 then .wait else
  let ta := bit o.word 24
  let tb := bit o.word 25
  let za := bitsN o.word 26 3
  let zb := bitsN o.word 29 3
  match (tagFault a.ring (expectedTag o.fa za ta) (ra.ent a.entry).tag).or (tagFault b.ring (expectedTag o.fb zb tb) (rb.ent b.entry).tag) with
  | some v => .fault s cRing v
  | none =>
    let bits := efmtBits k o.fa
    let k0 := k0Of bits
    let kk := if o.sparse then 2 * k0 else k0
    let ga := regionsOf k0 o.sparse false o.fw
    let gb := regionsOf k0 o.sparse true o.fw
    let pa := ra.addr c a.entry
    let pb := rb.addr c b.entry
    let rawA := (Mem.bytes s.mem pa ga.size).toArray
    let rawB := (Mem.bytes s.mem pb gb.size).toArray
    let m0 := gb.elems + 2 * gb.scales
    let liveBits := (rawB.getD (m0 + 4 * k0) 0).toNat + 256 * (rawB.getD (m0 + 4 * k0 + 1) 0).toNat
    let live (c : Nat) : Bool := !o.sparse || decide (liveBits / 2 ^ c % 2 = 1)
    let cols := (List.range 16).filter live
    let colBytes := k0 * bits / 8
    let readB : List (Nat × Nat) :=
      if o.sparse then
        (cols.map (fun c => [(pb + c * colBytes, colBytes), (pb + m0 + c * (k0 / 4), k0 / 4), (pb + m0 + gb.meta' + c * (k0 / 4), k0 / 4)]
            ++ (if gb.scales = 0 then [] else
              [(pb + gb.elems + c * (gb.scales / 16), gb.scales / 16), (pb + gb.elems + gb.scales + c * (gb.scales / 16), gb.scales / 16)]))).flatten
          ++ [(pb + m0 + 4 * k0, 2), (pb + m0 + gb.meta' + 4 * k0, 2)]
      else [(pb, gb.size)]
    let read := (pa, ga.size) :: readB
    let s := s.eccAll read
    match s.poisonIn read with
    | some l => .fault s cPoison (BitVec.ofNat 64 l)
    | none =>
      let rows (g : Regions) (l : List Nat) : List Nat := (l.map (fun r => (List.range (g.scales / 16)).map (· + r * (g.scales / 16)))).flatten
      let code (c i : Nat) : Nat := groupCode rawB m0 k0 c i
      let bad :=
        copiesDiffer rawA ga.elems ga.scales (List.range ga.scales) || copiesDiffer rawB gb.elems gb.scales (rows gb cols)
        || (o.sparse && (copiesDiffer rawB m0 gb.meta' ([4 * k0, 4 * k0 + 1] ++ (cols.map (fun c =>
              (List.range (k0 / 4)).map (· + c * (k0 / 4)))).flatten)
            || cols.any (fun c => (List.range (k0 / 2)).any (fun i => decide (code c i / 4 ≤ code c i % 4)))))
      if bad then .fault s cMetadata (BitVec.ofNat 64 o.tile) else
      let va := valueGrid k o.fa kk (fun r j => if ta then storedCode rawA bits 16 za j r else storedCode rawA bits kk za r j)
      let lenB := if o.sparse then k0 else kk
      let vb := valueGrid k o.fb lenB (fun c j => if tb then storedCode rawB bits lenB zb c j else storedCode rawB bits 16 zb j c)
      let kept (c j : Nat) : FVal := vb.getD (c * lenB + j) (.fin false 0 0)
      .ok s
        { kk := kk, group := match o.fw with | some f => fwBlock f | none => 32
          a := fun r j => va.getD (r * kk + j) (.fin false 0 0)
          b := fun c j => if o.sparse then sparseAt code kept c j else some (kept c j)
          live := live
          scales := o.fw.map (fun f => (scaleAt rawA f ga.elems (ga.scales / 16), scaleAt rawB f gb.elems (gb.scales / 16))) }

/-- Operand fetch of a step of a grouped multiply (R382, R383, R390): rows of the taken group, weights of the step's slab. -/
def State.fetchGroup (s : State) (c : Nat) (o : MatOp) (g : GroupDesc) (ch : Chan) (group : Nat) : Fetch :=
  let k := s.core c
  let bits := efmtBits k o.fa
  let k0 := k0Of bits
  let gb := regionsOf k0 false true o.fw
  let nb := gb.scales / 16
  let rowBytes := (g.ks + 1) * k0 * bits / 8
  let srow := (g.ks + 1) * nb
  let need := rowBytes + 2 * srow
  let at' (r : Nat) : Nat := ch.slotAddr (g.half * (ch.depth / 2) + 16 * group + r)
  match s.walked c o.tlbs (g.w.toNat + o.step * g.wstr.toNat) gb.size with
  | none => .wait
  | some s =>
  match s.enginePieces c o.ctx .load (g.w.toNat + o.step * g.wstr.toNat) gb.size o.tlbs with
  | .error st => .fail s st
  | .ok l =>
    if s.servesAll l = false then .wait else
    let read := (List.range o.rows).map (fun r => (at' r, need)) ++ l.map (fun p => (p.1.pa, p.2))
    let s := s.eccAll read
    match s.poisonIn read with
    | some l => .fault s cPoison (BitVec.ofNat 64 l)
    | none =>
      let rawA := ((List.range o.rows).map (fun r => (Mem.bytes s.mem (at' r) need).toArray)).toArray
      let rawB := ((l.map (fun p => s.readPhys c p.1.pa p.2)).flatten).toArray
      let row (r : Nat) : Array Byte := rawA.getD r #[]
      let mine := (List.range nb).map (· + o.step * nb)
      let bad := copiesDiffer rawB gb.elems gb.scales (List.range gb.scales)
        || (List.range o.rows).any (fun r => copiesDiffer (row r) rowBytes srow mine)
      if bad then .fault s cMetadata (BitVec.ofNat 64 o.tile) else
      let va := valueGrid k o.fa k0 (fun r j =>
        if r < o.rows then storedCode (row r) bits ((g.ks + 1) * k0) 0 0 (o.step * k0 + j) else 0)
      let vb := valueGrid k o.fb k0 (fun c j => storedCode rawB bits k0 0 c j)
      let zero : FVal := .fin false 0 0
      .ok s
        { kk := k0, group := match o.fw with | some f => fwBlock f | none => 32
          a := fun r j => if r < o.rows then va.getD (r * k0 + j) zero else zero
          b := fun c j => some (vb.getD (c * k0 + j) zero)
          live := fun _ => true
          scales := o.fw.map (fun f =>
            (fun r j => if r < o.rows then scaleAt (row r) f rowBytes 0 0 (o.step * nb + j) else zero,
             scaleAt rawB f gb.elems nb)) }

/-! ### Steps (R370 to R373) -/

/-- Is the operation's next step its last (R386)? -/
def MatOp.lastStep (o : MatOp) : Bool := match o.grp with | none => true | some g => decide (o.step = g.ks)

/-- Has the halt of an operation's region reached the core, and may its step no longer start: any step of a grouped operation, a
single step after 48 cycles (R209, R393)? -/
def State.haltsStep (s : State) (c : Nat) (o : MatOp) : Bool :=
  s.haltedHere c o.region.toNat &&
    (s.core c).halted.any (fun h => s.within o.region.toNat h.1 && (o.grp.isSome || decide (h.2 + 48 < (s.core c).cycle)))

/-- The operands of an operation's next step, or that it has to wait (R371). -/
def State.fetchStep (s : State) (c : Nat) (o : MatOp) : Fetch :=
  if o.failed ∨ o.running ∨ s.haltsStep c o ∨ (o.lastStep ∧ o.epi.isSome ∧ (s.core c).epiFull) then .wait
  else match o.grp, o.group, o.a, o.b with
    | some g, some n, _, _ =>
      (match s.chans.get? (chanKey o.region.toNat g.binch) with
       | some ch => s.fetchGroup c o g ch n
       | none => .wait)
    | none, _, some a, some b => s.fetchRings c o a b
    | _, _, _, _ => .wait

/-- Is an operation's next step ready? -/
def State.stepReady (s : State) (c : Nat) (o : MatOp) : Bool := match s.fetchStep c o with | .wait => false | _ => true

/-- The oldest operation of queue q with a ready step. -/
def State.readyOp (s : State) (c q : Nat) : Option MatOp := (s.core c).mat.find? (fun o => o.q == q && s.stepReady c o)

/-- The arbitration between the queues: the operation whose step starts, and `n0` after it (R372). -/
def State.chooseStep (s : State) (c : Nat) : Option (MatOp × Nat) :=
  let n0 := (s.core c).n0
  match s.readyOp c 0, s.readyOp c 1 with
  | none, none => none
  | some o, none => some (o, Nat.min (n0 + 1) 7)
  | none, some o => some (o, 0)
  | some o, some p => if n0 = 7 then some (p, 0) else some (o, Nat.min (n0 + 1) 7)

/-- Changes the operation of number id. -/
def Core.modOp (k : Core) (id : Nat) (f : MatOp → MatOp) : Core := { k with mat := k.mat.map (fun o => if o.id = id then f o else o) }
/-- Removes the operation of number id. -/
def Core.dropOp (k : Core) (id : Nat) : Core := { k with mat := k.mat.filter (fun o => o.id != id) }

/-- The claims of an operation retire or are freed (R225, R390). -/
def Core.freeClaims (k : Core) (o : MatOp) : Core :=
  let one (k : Core) (c : Option Claim) : Core := match c with | some x => k.modRing x.ring (fun r => r.retire x.entry) | none => k
  one (one k o.a) o.b

/-- An operation fails after issue: no later step runs, the tile is not written, its claims are freed, and the fault waits for its
delivery (R390, R391). -/
def State.matFault (s : State) (c : Nat) (o : MatOp) (code : BitVec 8) (tval : Word) : State :=
  s.modCore c (fun k => ((((k.freeClaims o).modOp o.id (fun o =>
    { o with failed := true, fault := some (code, tval), group := none, a := none, b := none })).setBusy o.tile false)))

/-- A grouped operation ends early: it starts no further group, applies no `RET` and increments no counter (R384). -/
def State.endGroup (s : State) (c : Nat) (o : MatOp) : State := s.modCore c (fun k => (k.dropOp o.id).setBusy o.tile false)

/-- MATRIX_STEP_START (R371, R372, R390): when the array of a compute core (R14) is free, the step that the arbitration chooses fetches its operands and
starts; its result is formed from them, with what an error of the array makes of it (R391). -/
def tryMatrixStepStart (c : Nat) (s : State) : Option State :=
  let k := s.core c
  if 4096 ≤ c ∨ k.run.isSome ∨ k.freeze ≠ 0 ∨ s.gatesOpen c = false then none else
  match s.chooseStep c with
  | none => none
  | some (o, n0) =>
    let s := s.modCore c (fun k => { k with n0 := n0 })
    match s.fetchStep c o with
    | .wait => none
    | .fault s code tval => some (s.matFault c o code tval)
    | .fail s st => some ((s.endGroup c o).postRecord c o.region.toNat 8 st o.tile o.stored 0 0 c o.ctx)
    | .ok s i =>
      let z := match o.grp with | some _ => decide (o.step = 0) | none => o.z
      let res := i.run z (k.tile o.tile)
      let run : MatRun :=
        { op := o.id, left := 16, result := k.arrErr.foldl (fun r x => listSet r x.1 x.2) res
          bad := o.ck && k.arrErr.any (fun x => decide (x.1 < 256) && !i.blind x.1) }
      let entry : List EpiEntry := match o.lastStep, o.epi with
        | true, some d =>
          [{ kind := 0, ctx := o.ctx, region := o.region, gen := o.gen, tile := o.tile, desc := d, op := some o.id
             rowBase := 16 * o.group.getD 0, rows := o.rows, reserved := true, id := o.id, rm := o.rm, paired := o.paired, tlbs := o.tlbs }]
        | _, _ => []
      let kept := match o.grp with
        | some g => s.keeps c o.tlbs (g.w.toNat + o.step * g.wstr.toNat) (regionsOf (k0Of (efmtBits k o.fa)) false true o.fw).size
        | none => o.tlbs
      some (s.modCore c (fun k => { (k.modOp o.id (fun o => { o with running := true, tlbs := kept })) with run := some run, arrErr := [], epi := k.epi ++ entry }))

/-- MATRIX_STEP_RETIRE (R57, R371, R391): the tile receives the new contents; a last step frees the claims, and the epilogue's
reserved place becomes an entry. -/
def tryMatrixStepRetire (c : Nat) (s : State) : Option State :=
  let k := s.core c
  match k.run with
  | none => none
  | some r =>
    if r.left ≠ 0 ∨ k.freeze ≠ 0 then none else
    let s := s.modCore c (fun k => { k with run := none })
    match k.mat.find? (fun o => o.id == r.op) with
    | none => some s
    | some o =>
      let mine (e : EpiEntry) : Bool := e.op == some o.id && e.reserved
      let s := s.modCore c (fun k => k.modOp o.id (fun o => { o with running := false }))
      if o.failed then some (s.modCore c (fun k => { k with epi := k.epi.filter (fun e => !mine e) }))
      else if r.bad then
        some ((s.modCore c (fun k => { k with epi := k.epi.filter (fun e => !mine e) })).matFault c { o with running := false } cChecksum
          (BitVec.ofNat 64 o.tile))
      else
        let s := s.writeTile c o.ctx o.tile o.paired o.id r.result
        let s := s.modCore c (fun k => { k with epi := k.epi.map (fun e => if mine e then { e with reserved := false } else e) })
        some (match o.grp with
          | none => s.modCore c (fun k =>
              let k := (k.freeClaims o).dropOp o.id
              if o.epi.isSome then k else k.setBusy o.tile false)
          | some g => s.modCore c (fun k => k.modOp o.id (fun o =>
              if o.step = g.ks then { o with step := 0, group := none, epiWait := true, out := o.out + 1 } else { o with step := o.step + 1 })))

/-! ### Grouped operations (R383, R384) -/

/-- Is group n of a half in the hands of an operation of the core: running, or with its epilogue outstanding? -/
def Core.groupTaken (k : Core) (region : BitVec 24) (g : GroupDesc) (n : Nat) : Bool :=
  k.mat.any (fun o => o.region == region && (match o.grp with
    | some h => h.binch == g.binch && h.half == g.half
        && (o.group == some n || k.epi.any (fun e => e.kind == 0 && e.op == some o.id && e.rowBase == 16 * n))
    | none => false))

/-- The group that a grouped operation takes next, with its rows (R383). -/
def Core.nextGroup (k : Core) (region : BitVec 24) (g : GroupDesc) (ch : Chan) : Option (Nat × Nat) :=
  let h := ch.half g.half
  let closed := decide (h.st = 2)
  let n := if closed then h.size else ch.depth / 2
  let fits (i : Nat) : Bool :=
    let hi := Nat.min (16 * i + 16) n
    !h.consumed.contains i && !k.groupTaken region g i && (closed || decide (hi = 16 * i + 16))
    && (List.range (hi - 16 * i)).all (fun r => h.landed.contains (16 * i + r))
  ((List.range ((n + 15) / 16)).find? fits).map (fun i => (i, Nat.min 16 (n - 16 * i)))

/-- Has every group of a Closed half been consumed? -/
def Half.finished (h : Half) : Bool := decide (h.st = 2) && (List.range ((h.size + 15) / 16)).all h.consumed.contains

/-- MMG_GROUP_TAKE (R383, R384): the lowest group that has landed; an operation whose half has become Idle ends instead. -/
def tryMmgGroupTake (c idx : Nat) (s : State) : Option State :=
  let k := s.core c
  match k.mat[idx]? with
  | none => none
  | some o =>
    match o.grp with
    | none => none
    | some g =>
      if o.failed ∨ o.group.isSome ∨ o.epiWait ∨ k.freeze ≠ 0 ∨ s.frozenOn c o.region.toNat then none else
      match s.chans.get? (chanKey o.region.toNat g.binch) with
      | none => none
      | some ch =>
        if o.idled then
          (if o.out ≠ 0 then none else some ((s.endGroup c o).postRecord c o.region.toNat 8 6 o.tile o.stored 0 0 c o.ctx))
        else match k.nextGroup o.region g ch with
          | none => none
          | some (n, rows) => some (s.modCore c (fun k => k.modOp o.id (fun o => { o with group := some n, rows := rows, step := 0 })))

/-- MMG_COMPLETE (R383): every group below the batch size is consumed, and every epilogue's rows have performed. -/
def tryMmgComplete (c idx : Nat) (s : State) : Option State :=
  match (s.core c).mat[idx]? with
  | none => none
  | some o =>
    match o.grp with
    | none => none
    | some g =>
      match s.chans.get? (chanKey o.region.toNat g.binch) with
      | none => none
      | some ch =>
        if o.failed ∨ o.idled ∨ o.group.isSome ∨ o.out ≠ 0 ∨ !(ch.half g.half).finished then none
        else
          let s := s.endGroup c o
          let s := if g.ret then s.idleHalf (chanKey o.region.toNat g.binch) g.half else s
          some (s.bump c g.cnt 1 o.region.toNat)

/-! ### Faults after issue (R96, R100) -/

/-- Does the issuing context of an operation still hold the issuing continuation (R100)? Context 0 holds none (R417). -/
def State.holdsIssuer (s : State) (c : Nat) (o : MatOp) : Bool :=
  let k := s.ctx c o.ctx
  decide (o.ctx ≠ 0) && decide (o.gen = some k.gen) && ((k.mode == .running) || (k.mode == .stopped))

/-- Can a fault found after issue be delivered now (R100)? That of a continuation whose context has stopped, or is stopping, waits
until the context runs again or the continuation has left it (log 94). -/
def State.faultDue (s : State) (c : Nat) (o : MatOp) : Bool :=
  o.fault.isSome && (!s.holdsIssuer c o || (((s.ctx c o.ctx).mode == .running) && (s.ctx c o.ctx).stop.isNone))

/-- MATRIX_FAULT_STOP (R100): the issuing context, if it still holds the continuation, stops at its next bundle boundary; else the
notice is posted as an event, and the operation keeps its place until context 0 takes it (R96). -/
def tryMatrixFaultStop (c : Nat) (s : State) : Option State :=
  match (s.core c).mat.find? (s.faultDue c) with
  | none => none
  | some o =>
    match o.fault with
    | none => none
    | some (code, tval) =>
      let k := s.ctx c o.ctx
      if s.holdsIssuer c o then
        some (((s.modCore c (fun q => q.dropOp o.id)).dropTwin c o.ctx).takeTrapAt c o.ctx code o.slot tval k.pc o.pc)
      else
        some ((s.modCore c (fun q => q.modOp o.id (fun o => { o with fault := none }))).notify c
          { code := code, evt := true, ctx := BitVec.ofNat 4 o.ctx, npc := o.pc, tval := tval, op := some o.id })

/-! ### Epilogues (R386 to R389) -/

/-- The entry at the head of the epilogue queue, if it is not only reserved. -/
def Core.epiHead (k : Core) : Option EpiEntry := match k.epi with | e :: _ => if e.reserved then none else some e | [] => none

/-- Replaces the head of the epilogue queue. -/
def State.setEpi (s : State) (c : Nat) (e : EpiEntry) : State := s.modCore c (fun k => { k with epi := e :: k.epi.drop 1 })
/-- Removes the head of the epilogue queue. -/
def State.popEpi (s : State) (c : Nat) : State := s.modCore c (fun k => { k with epi := k.epi.drop 1 })

/-- An epilogue, or a tile load, fails after issue: the engine-failure record; a grouped operation ends at that group (R384, R385,
R389). -/
def State.failEpi (s : State) (c : Nat) (e : EpiEntry) (st : BitVec 8) : State :=
  let s := (s.popEpi c).postRecord c e.region.toNat 8 st e.tile e.progress 0 0 c e.ctx
  match e.op.bind (fun i => (s.core c).mat.find? (fun o => o.id == i)) with
  | some o => (s.modCore c (fun k => { k with epi := k.epi.filter (fun x => x.op != some o.id || !x.reserved) })).endGroup c o
  | none => s

/-- The places of an engine operation of n bytes, and the bytes read: none while a slice is frozen. -/
def State.engineLoad (s : State) (c t va n : Nat) (held : List Tlb := []) : Option (State × Except (BitVec 8) (List Byte)) :=
  (s.walked c held va n).bind (fun s =>
  match s.enginePieces c t .load va n held with
  | .error q => some (s, .error q)
  | .ok l => if s.servesAll l then some (s.engineRead c l) else none)

/-- Virtual address of the scale entry of a quantising epilogue (R254). -/
def State.epiScaleVa (s : State) (e : EpiEntry) : Nat := (s.region e.region.toNat).scale.toNat + 64 * e.desc.sent.toNat

/-- The scale entry of a quantising epilogue (R254, R388), through the translation made and checked at issue (R121). -/
def State.epiScale (s : State) (c : Nat) (e : EpiEntry) : Except (BitVec 8) Xl :=
  translateEngine s c (prvOf c e.ctx).toNat .load (s.epiScaleVa e) e.tlbs

/-- Does no group of a half remain whose epilogue has not read the tile (R383)? -/
def State.lastGroup (s : State) (c : Nat) (o : MatOp) : Bool :=
  match o.grp with
  | none => true
  | some g =>
    match s.chans.get? (chanKey o.region.toNat g.binch) with
    | none => true
    | some ch =>
      let h := ch.half g.half
      let read (i : Nat) : Bool := (s.core c).epi.any (fun e => e.op == some o.id && e.rowBase == 16 * i && e.data.isSome)
      decide (h.st = 2) && (List.range ((h.size + 15) / 16)).all (fun i => h.consumed.contains i || read i)

/-- EPILOGUE_START (R388): the epilogue at the head reads the tile, the biases and the scale, and the busy bit clears; a grouped
operation's only after its last group. -/
def tryEpilogueStart (c : Nat) (s : State) : Option State :=
  let k := s.core c
  match k.epiHead with
  | none => none
  | some e =>
    if e.kind = 2 ∨ e.data.isSome ∨ k.freeze ≠ 0 ∨ s.gatesOpen c = false ∨ s.frozenOn c e.region.toNat then none else
    let clear (s : State) : State :=
      match e.op.bind (fun i => (s.core c).mat.find? (fun o => o.id == i)) with
      | some o =>
        let s := s.modCore c (fun k => k.modOp o.id (fun o => { o with epiWait := false }))
        if s.lastGroup c o then s.modCore c (fun k => k.setBusy e.tile false) else s
      | none => s.modCore c (fun k => k.setBusy e.tile false)
    let bias := if e.desc.bi then s.engineLoad c e.ctx e.desc.bias.toNat 64 e.tlbs else some (s, .ok [])
    bias.bind (fun r =>
      let scl := if e.desc.mode = 2 then r.1.engineLoad c e.ctx (s.epiScaleVa e) 64 e.tlbs else some (r.1, .ok [])
      scl.map (fun q =>
        let e := { e with tlbs := if e.desc.bi then s.keeps c e.tlbs e.desc.bias.toNat 64 else e.tlbs, dec := k.dec, cur := k.cur }
        let s := clear (q.1.setEpi c { e with data := some (k.tile e.tile) })
        match r.2, q.2 with
        | .ok bs, .ok n => s.setEpi c { e with
            data := some (k.tile e.tile), bias := (valuesOf 4 bs).map (BitVec.ofNat 32), scl := BitVec.ofNat 32 (ofBytes ((n.drop 48).take 4)) }
        | .error st, _ => s.failEpi c e st
        | _, .error st => s.failEpi c e st))

/-- `Convert` of an epilogue: the code of a value in an output format (R53, R54, R387). -/
def outCode (o v : Nat) : Nat :=
  let x := Fmt.f32.decode v
  match o with
  | 0 => v
  | 1 => (Fmt.bf16.round .rne false x).1
  | 2 => (Fmt.f16.round .rne false x).1
  | 3 => (Fmt.e4m3.round .rne false x).1
  | 4 => (Fmt.e4m3.round .rne true x).1
  | 5 => (Fmt.e5m2.round .rne false x).1
  | 6 => (Fmt.e2m1.round .rne false x).1
  | _ => uWrap 8 (x.toInt .rne (-128) 127).1

/-- Values of output row j before conversion (R388). -/
def EpiEntry.values (e : EpiEntry) (k : Core) (j : Nat) : List Nat :=
  let d := e.desc
  let t := (e.data.getD []).toArray
  (List.range 16).map (fun c =>
    let y := (t.getD (if d.tr then 16 * c + j else 16 * j + c) 0).toNat
    let y := if d.ts then mulF32 (mulF32 y d.tsa.toNat) d.tsb.toNat else y
    let y := if d.sc then mulF32 y d.scale.toNat else y
    let y := if d.bi then addF32 y (e.bias.getD (if d.tr then j else c) 0).toNat else y
    let y := if d.cv then (curveEval (k.curve d.cvn.toNat) y).1 else y
    if d.mode = 2 then mulF32 y e.scl.toNat else y)

/-- Bytes of an output row (R47, R388). -/
def EpiEntry.rowBytes (e : EpiEntry) (k : Core) (vs : List Nat) : List Byte :=
  if e.desc.mode = 2 then packCodes (quantBits k e.desc.tfmt.toNat) (vs.map (quantCode k e.desc.tfmt.toNat false))
  else let o := e.desc.ofmt.toNat; packCodes (ofmtRow o / 2) (vs.map (outCode o))

/-- Folds a row into the engine fingerprints of both twins, 16 bytes at a time (R434). -/
def State.foldRow (s : State) (c ctx : Nat) (bs : List Byte) : State :=
  match (s.ctx c ctx).pair with
  | none => s
  | some p =>
    let f (q : Pair) : Pair :=
      { q with efp := (List.range ((bs.length + 15) / 16)).foldl (fun a i => foldFp a (BitVec.ofNat 128 (ofBytes ((bs.drop (16 * i)).take 16)))) q.efp }
    (s.modPair c ctx f).modPair p.twinCore p.twinCtx f

/-- Writes a row of a paired context's epilogue: every store is logged and held, direct pages included (R172, R392). -/
def State.pairedWrite (s : State) (c ctx : Nat) (rm : Bool) (l : List (Xl × Nat)) (bs : List Byte) : Option State :=
  if (s.core c).log.room ((l.map (fun p => (p.2 + 15) / 16)).foldl (· + ·) 0) = false then none else
  let one (a : State × List Byte) (p : Xl × Nat) : State × List Byte :=
    ((List.range ((p.2 + 15) / 16)).foldl (fun s i =>
        let r := engineRec ctx rm { p.1 with pa := p.1.pa + 16 * i } ((a.2.take p.2).drop (16 * i) |>.take 16)
        (s.append c { r with held := true, direct := !leafL p.1.leaf }).modCore c (fun k =>
          { k with rbuf := k.rbuf.filter (fun l => !r.lines.contains l.1) })) a.1, a.2.drop p.2)
  some (l.foldl one (s, bs)).1

/-- The stores of an epilogue issued before the pairing widen the written range of the divergence interval (R441). -/
def State.widen (s : State) (c ctx : Nat) (l : List (Xl × Nat)) : State :=
  l.foldl (fun s p => s.modPair c ctx (fun q => { q with wrote := match q.wrote with
    | none => some (p.1.pa, p.1.pa + p.2 - 1)
    | some (a, b) => some (Nat.min a p.1.pa, Nat.max b (p.1.pa + p.2 - 1)) })) s

/-- Where an epilogue's row goes (R389): the state after it has been accepted, a failure's status, or none while it waits. -/
def State.emitRow (s : State) (c : Nat) (e : EpiEntry) (bs : List Byte) : Option (Except (BitVec 8) State) :=
  let d := e.desc
  match d.mode.toNat with
  | 3 => (s.ringWrite c (d.dst.toNat % 32) bs).map .ok
  | 4 =>
    let key := chanKey e.region.toNat (d.dst.toNat % 4096)
    (match s.chans.get? key with
     | none => some (.error 6)
     | some ch =>
       match ch.epOf s.pkg.toNat c with
       | none => some (.error 6)
       | some i =>
         match ch.eps[i]? with
         | none => some (.error 6)
         | some p =>
           if !ch.live ∨ p.eos then some (.error 6)
           else if !p.free ∨ s.sendQueued c key i then none
           else some (.ok ((s.modChan key (fun ch => ch.modEp i (fun p => p.takeCredit false))).inject c key i ch bs false false 0x3F 0x3F)))
  | _ =>
    let va := (d.dst.setWidth 64 + BitVec.ofNat 64 (e.rowBase + e.progress) * d.stride.setWidth 64).toNat
    (s.walked c e.tlbs va bs.length).bind (fun s =>
    match s.enginePieces c e.ctx .store va bs.length e.tlbs with
    | .error st => some (.error st)
    | .ok l =>
      if s.servesAll l = false then none
      else (if e.paired ∧ (s.ctx c e.ctx).pair.isSome then s.pairedWrite c e.ctx e.rm l bs
        else (s.engineWrite c e.ctx e.rm l bs).map (fun s => s.widen c e.ctx l)).map .ok)

/-- The core as an epilogue that has started sees its tables (R252, R388). -/
def EpiEntry.tables (e : EpiEntry) (k : Core) : Core := { k with dec := e.dec, cur := e.cur }

/-- EPILOGUE_ROW_EMIT (R388, R389): the next output row is formed and stored. -/
def tryEpilogueRowEmit (c : Nat) (s : State) : Option State :=
  let k := s.core c
  match k.epiHead with
  | none => none
  | some e =>
    if e.kind = 2 ∨ e.data.isNone ∨ e.rows ≤ e.progress ∨ k.freeze ≠ 0 ∨ s.frozenOn c e.region.toNat then none else
    let vs := e.values (e.tables k) e.progress
    let bs := e.rowBytes (e.tables k) vs
    (s.emitRow c e bs).map (fun r => match r with
      | .error st => s.failEpi c e st
      | .ok s =>
        let va := (e.desc.dst.setWidth 64 + BitVec.ofNat 64 (e.rowBase + e.progress) * e.desc.stride.setWidth 64).toNat
        let s := s.setEpi c { e with
          progress := e.progress + 1
          tlbs := if e.desc.mode.toNat = 3 ∨ e.desc.mode.toNat = 4 then e.tlbs else s.keeps c e.tlbs va bs.length
          amax := if e.desc.mode = 2 then BitVec.ofNat 32 (maxF32 e.amax.toNat (amaxF32 vs)) else e.amax }
        if e.paired then s.foldRow c e.ctx bs else s)

/-- EPILOGUE_COMPLETE (R386, R388, R389): every row has been accepted; the fold of a quantising epilogue performs, the counter is
incremented and the place is freed; a grouped operation's group is consumed. -/
def tryEpilogueComplete (c : Nat) (s : State) : Option State :=
  let k := s.core c
  match k.epiHead with
  | none => none
  | some e =>
    if e.kind = 2 ∨ e.data.isNone ∨ e.progress < e.rows ∨ k.freeze ≠ 0 then none else
    let folded : Option (Except (BitVec 8) State) :=
      if e.desc.mode ≠ 2 then some (.ok s)
      else match s.epiScale c e with
        | .error st => some (.error st)
        | .ok x => if s.serves x.pa = false then none else
          let s := s.eccRange x.pa 64
          some (if (s.poisoned x.pa 64).isSome then .error stPoison else .ok (s.scaleFold x.pa e.amax.toNat))
    folded.map (fun r => match r with
      | .error st => s.failEpi c e st
      | .ok s =>
        let s := (s.popEpi c).bump c e.desc.cnt 1 e.region.toNat
        match e.op.bind (fun i => (s.core c).mat.find? (fun o => o.id == i)) with
        | some o =>
          let s := s.modCore c (fun k => k.modOp o.id (fun o => { o with out := o.out - 1, stored := o.stored + e.rows }))
          (match o.grp with
           | some g => s.modChan (chanKey o.region.toNat g.binch) (fun ch => ch.modHalf g.half (fun h =>
               { h with consumed := (e.rowBase / 16) :: h.consumed }))
           | none => s)
        | none => s)

/-- MTLD_COMPLETE (R385): the tile is written once all 16 rows have been read; a failure leaves it unchanged. -/
def tryMtldComplete (c : Nat) (s : State) : Option State :=
  let k := s.core c
  match k.epiHead with
  | none => none
  | some e =>
    if e.kind ≠ 2 ∨ k.freeze ≠ 0 ∨ s.gatesOpen c = false ∨ s.frozenOn c e.region.toNat then none else
    let row (a : Option (State × Except (BitVec 8) (List Byte))) (r : Nat) : Option (State × Except (BitVec 8) (List Byte)) :=
      match a with
      | some (s, .ok bs) =>
        (s.engineLoad c e.ctx (e.src.setWidth 64 + BitVec.ofNat 64 r * e.desc.stride.setWidth 64).toNat 64 e.tlbs).map (fun y =>
          (y.1, y.2.map (bs ++ ·)))
      | x => x
    ((List.range 16).foldl row (some (s, .ok []))).map (fun y =>
      match y.2 with
      | .error st => (y.1.failEpi c e st).modCore c (fun k => k.setBusy e.tile false)
      | .ok bs =>
        let s := y.1.writeTile c e.ctx e.tile e.paired e.id ((valuesOf 4 bs).map (BitVec.ofNat 32))
        ((s.popEpi c).modCore c (fun k => k.setBusy e.tile false)).bump c e.desc.cnt 1 e.region.toNat)

/-! ### Meanings -/

/-- MATRIX_FAULT_STOP (R100). -/
def execMatrixFaultStop (core : Nat) (s : State) : Out := runEvent (tryMatrixFaultStop core) s

/-- MATRIX_STEP_START (R372). -/
def execMatrixStepStart (core : Nat) (s : State) : Out := runEvent (tryMatrixStepStart core) s

/-- MATRIX_STEP_RETIRE (R371). -/
def execMatrixStepRetire (core : Nat) (s : State) : Out := runEvent (tryMatrixStepRetire core) s

/-- MMG_GROUP_TAKE (R383). -/
def execMmgGroupTake (core : Nat) (idx : Nat) (s : State) : Out := runEvent (tryMmgGroupTake core idx) s

/-- MMG_COMPLETE (R383). -/
def execMmgComplete (core : Nat) (idx : Nat) (s : State) : Out := runEvent (tryMmgComplete core idx) s

/-- EPILOGUE_START (R388). -/
def execEpilogueStart (core : Nat) (s : State) : Out := runEvent (tryEpilogueStart core) s

/-- EPILOGUE_ROW_EMIT (R389). -/
def execEpilogueRowEmit (core : Nat) (s : State) : Out := runEvent (tryEpilogueRowEmit core) s

/-- EPILOGUE_COMPLETE (R389). -/
def execEpilogueComplete (core : Nat) (s : State) : Out := runEvent (tryEpilogueComplete core) s

/-- MTLD_COMPLETE (R385). -/
def execMtldComplete (core : Nat) (s : State) : Out := runEvent (tryMtldComplete core) s

end Sys2Proof.Machine
end

