-- ==== Sys2Proof/Machine/Fetching.lean ====
section
/-! DEFINITION. Translation misses, walks and invalidations, and the fetch of instruction lines (R119 to R123, R182 to R184, R431). -/

namespace Sys2Proof.Machine

/-! ### Misses and walks (R120, R121) -/

/-- Cores that share the TLB, the instruction cache and the fetch port of cluster k: its eight, and the service core that joins its
router (R14, R119, R182). -/
def coresOf (k : Nat) : List Nat := (List.range 8).map (· + 8 * k) ++ (if k % 64 = 0 then [4096 + k / 64] else [])

/-- Two addresses in one page of the smallest size. -/
def samePage (a b : Nat) : Bool := decide (a / 2 ^ 16 = b / 2 ^ 16)

/-- Changes every context of a core. -/
def Core.mapCtx (k : Core) (f : Ctx → Ctx) : Core := { k with ctxs := k.ctxs.map f }

/-- Page walkers of a die (R119), and walks that a cluster may have in flight (R121). -/
def dieWalkers : Nat := 32
def clusterWalks : Nat := 8

/-- Walks of a cluster that walkers have taken (R121). -/
def Cluster.walking (q : Cluster) : Nat := (q.walks.filter (fun w => w.on)).length

/-- Has cluster k a walk that a walker may take: the oldest one that waits, while fewer than eight are in flight (R121)? -/
def State.walkWaits (s : State) (k : Nat) : Bool :=
  decide ((s.cluster k).walking < clusterWalks) && (s.cluster k).walks.any (fun w => !w.on)

/-- The oldest waiting walk of a list is taken. -/
def takeWalk : List Walk → List Walk
  | [] => []
  | w :: l => if w.on then w :: takeWalk l else { w with on := true } :: l

/-- One free walker of die d takes a walk of the next cluster in round-robin order that has one waiting (R121). -/
def State.giveWalker (s : State) (d : Nat) : State :=
  let mine := (s.clusters.map (·.1)).filter (fun k => decide (k / 64 = d))
  if dieWalkers ≤ (mine.map (fun k => (s.cluster k).walking)).foldl (· + ·) 0 then s else
  let last := s.walkTurn.getD d 0
  let ready := mine.filter s.walkWaits
  match (ready.find? (fun k => decide (last % 64 < k % 64))).or ready.head? with
  | none => s
  | some k => { (s.modCluster k (fun q => { q with walks := takeWalk q.walks })) with walkTurn := s.walkTurn.set d k }

/-- The free walkers of die d take walks (R121). -/
def State.giveWalkers (s : State) (d : Nat) : State := (List.range dieWalkers).foldl (fun s _ => s.giveWalker d) s

/-- CLUSTER_TLB_LOOKUP (R120, R121): a hit installs the entry in the micro-TLB; a miss joins the walk for its page, or starts one. -/
def tryClusterTlbLookup (c t : Nat) (s : State) : Option State :=
  match (s.ctx c t).tlb with
  | .lookup va =>
    let k := s.core c
    (match tlbFind (s.cluster (clusterOf c)).tlb k.tag va with
     | some e => some ((s.setCore c { k with utlb := tlbPut 32 k.utlb e }).modCtx c t (fun x => { x with tlb := .none }))
     | none =>
       let s := s.modCluster (clusterOf c) (fun q =>
         if q.walks.any (fun w => w.tag == k.tag && samePage w.va va) then q
         else { q with walks := q.walks ++ [{ tag := k.tag, root := k.root, va := va }] })
       some ((s.modCtx c t (fun x => { x with tlb := .walk va })).giveWalkers (dieOf c)))
  | _ => none

/-- Ends the waits of a cluster for a walk: both TLBs install a leaf, a fault waits for the bundle (R120). -/
def State.endWalk (s : State) (k : Nat) (w : Walk) (r : WalkEnd) : State :=
  let waits (x : Ctx) : Bool := match x.tlb with | .walk va => samePage va w.va | _ => false
  let entry : Option Tlb := match r with
    | .leaf level e => some { tag := w.tag, level := level, vpn := w.va / 2 ^ pageBits level, leaf := e }
    | _ => none
  let after (x : Ctx) : TlbWait := match x.tlb, r with
    | .walk _, .leaf _ _ => .none
    | .walk va, .fault => .failed va cTranslation (BitVec.ofNat 64 va)
    | .walk va, .poison l => .failed va cPoison (BitVec.ofNat 64 l)
    | t, _ => t
  let s := match entry with
    | some e => s.modCluster k (fun q => { q with tlb := tlbPut 4096 q.tlb e })
    | none => s
  (coresOf k).foldl (fun s c =>
    let q := s.core c
    if q.tag ≠ w.tag ∨ (q.ctxs.toList.any waits) = false then s
    else s.setCore c ({ q with utlb := match entry with | some e => tlbPut 32 q.utlb e | none => q.utlb }.mapCtx (fun x =>
      if waits x then { x with tlb := after x } else x))) s

/-- WALK_COMPLETE (R115, R116, R120, R121): a walk that a walker has taken ends, and the walker takes another. Its reads are made at this
moment (log 98). -/
def tryWalkComplete (k idx : Nat) (s : State) : Option State :=
  match (s.cluster k).walks[idx]? with
  | none => none
  | some w =>
    let places := (walkFrom s w.va 4 0 (entryNext w.root)).2.map (fun pa => (pa, 8))
    if w.on = false ∨ places.any (fun p => !s.serves p.1) then none
    else
      let s := (s.eccAll places).modCluster k (fun q => { q with walks := listDel q.walks idx })
      some ((s.endWalk k w (walk s w.root w.va)).giveWalkers (k / 64))

/-! ### Invalidations (R122, R123, R431) -/

/-- Physical address at which a thread's access in flight performs. -/
def Body.accessPa : Body → Option Nat
  | .load _ _ _ _ _ pa _ _ _ _ => some pa
  | .planed _ _ _ _ _ pa _ _ => some pa
  | .store _ pa _ _ _ => some pa
  | .planes _ pa _ _ => some pa
  | .scale _ _ pa _ => some pa
  | _ => none

/-- Does an access in flight lie in the page of an entry? -/
def Flight.through (f : Flight) (e : Tlb) : Bool :=
  match f.body.accessPa with
  | some pa => decide (leafFrame e.leaf ≤ pa) && decide (pa < leafFrame e.leaf + 2 ^ pageBits e.level)
  | none => false

/-- An invalidation of translations takes its entries out of every TLB in its scope, discards the walks in flight there, and marks
the accesses that went through a removed entry, be it one of the core's TLB or of the cluster's (R122, R123, R423). The bundles whose
walks it discards walk again; `xinvl`, whose scope is one core, leaves the walks for which another core of the cluster waits. -/
def State.removeEntries (s : State) (i : Inv) : State :=
  let hit (c : Nat) (e : Tlb) : Bool := i.coversCore c && i.hits e
  let gone : List Tlb := (s.cores.map (fun e => e.2.utlb.filter (hit e.1))).flatten
    ++ (s.clusters.map (fun e => if i.coversCluster e.1 then e.2.tlb.filter i.hits else [])).flatten
  let s := { s with
    flight := s.flight.map (fun (f : Flight) => if i.coversCore f.src && gone.any f.through then { f with marks := i.id :: f.marks } else f)
    cores := s.cores.map (fun (e : Nat × Core) => (e.1, { e.2 with
      utlb := e.2.utlb.filter (fun x => !hit e.1 x)
      staged := e.2.staged.map (fun (g : Nat × Staged) => (g.1, { g.2 with tlbs := g.2.tlbs.filter (fun x => !hit e.1 x) })) })) }
  let again (x : Ctx) : Ctx := match x.tlb with | .walk _ => { x with tlb := .none } | _ => x
  let s := { s with cores := s.cores.map (fun (e : Nat × Core) => (e.1, if i.coversCore e.1 then e.2.mapCtx again else e.2)) }
  let wanted (k : Nat) (w : Walk) : Bool := (coresOf k).any (fun c => decide ((s.core c).tag = w.tag) &&
    (s.core c).ctxs.toList.any (fun x => match x.tlb with | .walk va => samePage va w.va | _ => false))
  let s := { s with clusters := s.clusters.map (fun (e : Nat × Cluster) => (e.1, { e.2 with
    tlb := if i.coversCluster e.1 then e.2.tlb.filter (fun x => !i.hits x) else e.2.tlb
    walks := if i.coversCluster e.1 then [] else e.2.walks.filter (wanted e.1) })) }
  (List.range 8).foldl State.giveWalkers s

/-- An invalidation of instruction lines takes them out of every cluster's cache (R431). -/
def State.removeLines (s : State) (i : Inv) : State :=
  { s with clusters := s.clusters.map (fun (e : Nat × Cluster) => (e.1, { e.2 with
    icache := if i.kind = 5 then [] else e.2.icache.filter (fun l => !(l.1 == i.tag && l.2.1 == i.va / 64 * 64)) })) }

/-- INVALIDATION_COMPLETE (R123, R431). -/
def tryInvalidationComplete (idx : Nat) (s : State) : Option State :=
  match s.invs[idx]? with
  | none => none
  | some i =>
    if i.done then none else
    let s := if i.kind < 4 then s.removeEntries i else s.removeLines i
    let old (j : Inv) : Bool := j.done && !(s.flight.any (fun f => f.marks.contains j.id))
    some { s with invs := (listSet s.invs idx { i with done := true }).filter (fun j => !old j || j.id == i.id) }

/-! ### Fetching lines (R182 to R184) -/

/-- Slot words of a line's bytes (R5). -/
def lineWords (bs : List Byte) : List SlotWord := (valuesOf 4 bs).map (BitVec.ofNat 32)

/-- Tag under which a core's instruction lines stand in the cache: physical addresses of service cores stand under 0. -/
def State.fetchTag (s : State) (c : Nat) : BitVec 7 := if 4096 ≤ c then 0 else (s.core c).tag

/-- The outstanding line requests of a cluster: core, context, line address and moment. -/
def State.requests (s : State) (k : Nat) : List (Nat × Nat × Nat × Nat) :=
  ((coresOf k).map (fun c => (List.range 16).filterMap (fun t => (s.ctx c t).freq.map (fun f => (c, t, f.1, f.2))))).flatten

/-- The fault of a fetch by a context, or the address to fetch from (R117, R183). -/
def State.fetchXl (s : State) (c t va : Nat) : Except (BitVec 8 × Word) Xl :=
  if 4096 ≤ c then
    (if accessOk s c 3 .fetch (physXl va) then .ok (physXl va) else .error (cAccess, BitVec.ofNat 64 va))
  else if 2 ^ 60 ≤ va ∨ bit (s.core c).root 63 = false then .error (cTranslation, BitVec.ofNat 64 va)
  else match translateEngine s c (s.ctx c t).prv .fetch va with
    | .ok x => .ok x
    | .error st =>
      if st = stAccess then .error (cAccess, BitVec.ofNat 64 va)
      else match walk s (s.core c).root va with
        | .poison l => .error (cPoison, BitVec.ofNat 64 l)
        | _ => .error (cTranslation, BitVec.ofNat 64 va)

/-- The table words that the walk of a fetch reads (R116, R130). -/
def State.fetchPlaces (s : State) (c va : Nat) : List (Nat × Nat) := walkPlaces s c va

/-- What a line, or the fault of its fetch, brings to each context with an outstanding request for it: each one's own right to fetch is
checked (R117, R183). -/
def State.lineFor (s : State) (k : Nat) (tag : BitVec 7) (va : Nat) (b : FetchBuf) : List (Nat × Nat × FetchBuf) :=
  ((s.requests k).filter (fun r => s.fetchTag r.1 == tag && r.2.2.1 == va)).map (fun r =>
    (r.1, r.2.1, match s.fetchXl r.1 r.2.1 va with | .ok _ => b | .error (code, tval) => .bad va code tval))

/-- A line on its way to the fetch buffers. -/
def State.sendLine (s : State) (k : Nat) (tag : BitVec 7) (va : Nat) (recips : List (Nat × Nat × FetchBuf)) : State :=
  s.modCluster k (fun q => { q with delivs := q.delivs ++ [{ tag := tag, va := va, recips := recips, since := s.steps }] })

/-- FETCH_PORT_SERVE (R183): the oldest request, then the lowest core and context, is served: a line of the cache is on its way to
the fetch buffers with an outstanding request for it, a miss starts a fill, and a fault is on its way too, to the contexts whose fetch
meets one. -/
def tryFetchPortServe (k : Nat) (s : State) : Option State :=
  let q := s.cluster k
  let busy (r : Nat × Nat × Nat × Nat) : Bool :=
    let tag := s.fetchTag r.1
    q.delivs.any (fun d => d.recips.any (fun x => x.1 == r.1 && x.2.1 == r.2.1 && d.va == r.2.2.1))
      || q.fills.any (fun d => d.tag == tag && d.va == r.2.2.1)
  let open' := (s.requests k).filter (fun r => !busy r)
  match (bestIdx (fun _ => true) (fun r => r.2.2.2) open').bind (fun i => open'[i]?) with
  | none => none
  | some (c, t, va, _) =>
    let tag := s.fetchTag c
    match q.icache.find? (fun l => l.1 == tag && l.2.1 == va) with
    | some l => some (s.sendLine k tag va (s.lineFor k tag va (.line va l.2.2)))
    | none =>
      if (s.fetchPlaces c va).any (fun p => !s.serves p.1) then none else
      let s := s.eccAll (s.fetchPlaces c va)
      match s.fetchXl c t va with
      | .error _ => some (s.sendLine k tag va ((s.lineFor k tag va .empty).filter (fun x => x.2.2 != .empty)))
      | .ok _ => some (s.modCluster k (fun q => { q with fills := q.fills ++ [{ tag := tag, root := (s.core c).root, va := va }] }))

/-- A context of a cluster that fetches a line under a tag, one that may if there is any. -/
def State.fetcher (s : State) (k : Nat) (tag : BitVec 7) (va : Nat) : Option (Nat × Nat) :=
  let l := (s.requests k).filter (fun r => s.fetchTag r.1 == tag && r.2.2.1 == va)
  ((l.find? (fun r => match s.fetchXl r.1 r.2.1 va with | .ok _ => true | .error _ => false)).or l.head?).map (fun r => (r.1, r.2.1))

/-- ICACHE_FILL_COMPLETE (R183): the line of the oldest fill comes from its memory into the cache; every request for it is still
outstanding. A poisoned line reaches the fetch buffers as such. -/
def tryIcacheFillComplete (k : Nat) (s : State) : Option State :=
  match (s.cluster k).fills with
  | [] => none
  | w :: rest =>
    let drop (s : State) : State := s.modCluster k (fun q => { q with fills := rest })
    match s.fetcher k w.tag w.va with
    | none => some (drop s)
    | some (c, t) =>
      match s.fetchXl c t w.va with
      | .error _ => some (drop s)
      | .ok x =>
        if s.serves x.pa = false then none else
        let s := (drop s).eccRange x.pa 64
        match s.poisoned x.pa 64 with
        | some l => some (s.sendLine k w.tag w.va (s.lineFor k w.tag w.va (.bad w.va cPoison (BitVec.ofNat 64 l))))
        | none =>
          let data := lineWords (s.readPhys c x.pa 64)
          some (s.modCluster k (fun q => { q with
            icache := ((w.tag, w.va, data) :: q.icache.filter (fun l => !(l.1 == w.tag && l.2.1 == w.va))).take 1024 }))

/-- FETCH_LINE_DELIVER (R183): a served line, or the fault of its fetch, reaches the fetch buffer of every context whose request was
outstanding when it was served, and still is. -/
def tryFetchLineDeliver (k : Nat) (s : State) : Option State :=
  match (s.cluster k).delivs with
  | [] => none
  | d :: rest =>
    let s := s.modCluster k (fun q => { q with delivs := rest })
    let waits (r : Nat × Nat × FetchBuf) : Bool := match (s.ctx r.1 r.2.1).freq with
      | some f => decide (f.1 = d.va) && decide (f.2 ≤ d.since) && s.fetchTag r.1 == d.tag
      | none => false
    some ((d.recips.filter waits).foldl (fun s r => s.modCtx r.1 r.2.1 (fun x => { x with fbuf := r.2.2, freq := none })) s)

/-! ### Meanings -/

/-- CLUSTER_TLB_LOOKUP (R120). -/
def execClusterTlbLookup (core : Nat) (ctx : Nat) (s : State) : Out := runEvent (tryClusterTlbLookup core ctx) s

/-- WALK_COMPLETE (R120). -/
def execWalkComplete (cluster : Nat) (idx : Nat) (s : State) : Out := runEvent (tryWalkComplete cluster idx) s

/-- INVALIDATION_COMPLETE (R123). -/
def execInvalidationComplete (idx : Nat) (s : State) : Out := runEvent (tryInvalidationComplete idx) s

/-- FETCH_PORT_SERVE (R183). -/
def execFetchPortServe (cluster : Nat) (s : State) : Out := runEvent (tryFetchPortServe cluster) s

/-- FETCH_LINE_DELIVER (R183). -/
def execFetchLineDeliver (cluster : Nat) (s : State) : Out := runEvent (tryFetchLineDeliver cluster) s

/-- ICACHE_FILL_COMPLETE (R183). -/
def execIcacheFillComplete (cluster : Nat) (s : State) : Out := runEvent (tryIcacheFillComplete cluster) s

end Sys2Proof.Machine
end

