-- ==== Sys2Proof/Machine/Regions.lean ====
section
/-! DEFINITION. The region scheduler: region commands and their answers (R230 to R233, R432, R455), the handlers of regions
(R207, R234) and the end of a subtree (R234). -/

namespace Sys2Proof.Machine

/-! ### Commands (R432, R455, R457) -/

/-- `OP` of a command block. -/
def RgCmd.op (q : RgCmd) : Nat := bitsN (q.words.getD 0 0) 56 8
/-- `REGION` of a command block. -/
def RgCmd.target (q : RgCmd) : Nat := bitsN (q.words.getD 0 0) 0 24
/-- `IMG` of a command block. -/
def RgCmd.img (q : RgCmd) : Nat := bitsN (q.words.getD 1 0) 0 60

/-- A command of the PF that management firmware serves (R457). -/
def RgCmd.forManagement (q : RgCmd) : Bool := q.from?.isNone && decide (7 ≤ q.op) && decide (q.op ≤ 10)

/-- The command that a body serves next: the oldest of those addressed to it, while neither a probation
nor a failure of the body holds them (R99, R463). -/
def State.nextCmd (s : State) (management : Bool) : Option (Nat × RgCmd) :=
  let b := s.body (if management then 0 else 1)
  if b.probation.isSome ∨ b.failed then none else
  match findIdx (fun q => q.forManagement == management) s.cmds with
  | none => none
  | some i => (s.cmds[i]?).map (fun q => (i, q))

/-- Answers a command: to the awaiting register, or into word 6 of the PF block, whose bit 63 of word 7 it clears (R432, R455). -/
def State.answer (s : State) (i : Nat) (q : RgCmd) (status value : Nat) : State :=
  let v : Word := BitVec.ofNat 64 (status * 2 ^ 56 + value)
  let s := { s with cmds := listDel s.cmds i }
  match q.from? with
  | none => { s with pf := (s.pf.set 6 v).set 7 (s.pf[7] &&& ~~~(1#64 <<< 63)) }
  | some (c, t, reg, _) =>
    { s with flight := s.flight ++ [{ src := 4097, dst := dstBack c, gen := q.gen, uh := q.uh,
                                      body := .result t false reg (v.setWidth 128) none q.latch }] }

/-- May a command name its target: a region that exists, for a tenant one of its own subtree (R432)? -/
def State.mayName (s : State) (q : RgCmd) : Bool :=
  (s.regions.get? q.target).isSome && !(s.region q.target).dead &&
  (match q.from? with
   | none => true
   | some (_, _, _, r) => decide (q.target ≠ 0) && s.tagOf q.target == s.tagOf r.toNat)

/-- n words of an image: under the issuing core's root word, under the target's tenant for the PF, or, where the target has no
address space, in host memory (log 21). A word that cannot be read makes the image malformed. -/
def State.imageWords (s : State) (root : Word) : Nat → Nat → Option (List Word)
  | _, 0 => some []
  | va, n + 1 =>
    let pa : Option Nat :=
      if !bit root 63 then some (2 * 2 ^ 48 + va % 2 ^ 48)
      else match walk s root va with
        | .leaf level e => if leafTag e = field root 0 7 then some (leafFrame e + va % 2 ^ pageBits level) else none
        | _ => none
    match pa, s.imageWords root (va + 8) n with
    | some p, some l => if (s.poisoned p 8).isSome then none else some (s.rd64 p :: l)
    | _, _ => none

/-- The image of a command. -/
def State.image? (s : State) (q : RgCmd) (n : Nat) : Option (List Word) :=
  s.imageWords (if q.from?.isSome then q.root else (s.region q.target).root) q.img n

/-- The image of a region control block has a number that its field does not take (R231); reserved bits are ignored (R7). -/
def rcbMalformed (w : List Word) : Bool :=
  let g (i : Nat) : Word := w.getD i 0
  decide (4096 < bitsN (g 13) 48 13)
  || (decide (bitsN (g 12) 0 60 ≠ 0) && (decide (bitsN (g 13) 0 5 < 4) || decide (16 < bitsN (g 13) 0 5)))

/-- The fields that the scheduler takes from an image (R231, R432). A new queue counts from its first record. -/
def Region.ofImage (r : Region) (w : List Word) : Region :=
  let g (i : Nat) : Word := w.getD i 0
  { r with
    rm := bit (g 3) 63, fdb := bit (g 3) 62, prio := field (g 3) 56 5, fabr := field (g 3) 48 8
    wctx := field (g 4) 59 5, tiles := field (g 4) 53 6, cont := field (g 4) 0 32
    slice := field (g 5) 32 32, logb := field (g 5) 0 32, dbnd := field (g 6) 32 16, bulk := field (g 6) 0 32
    handler := field (g 7) 0 60, chan := field (g 8) 0 60, expd := field (g 9) 0 60, scale := field (g 10) 0 60
    cq := field (g 12) 0 60, nch := field (g 13) 48 13, pq := field (g 13) 32 16, msix := field (g 13) 16 12
    cqn := field (g 13) 0 5, savev := field (g 14) 0 60
    cqTail := if r.cq = field (g 12) 0 60 ∧ r.cqn = field (g 13) 0 5 then r.cqTail else 0 }

/-- A budget of an image goes over the effective value of its parent (R232, R432). -/
def State.overBudget (s : State) (parent : Option Nat) (x : Region) : Bool :=
  match parent with
  | none => false
  | some p =>
    let past (f : Region → Nat) (inh lim cap : Nat) : Bool :=
      decide (f x ≠ inh) && decide (s.effBudget f inh lim cap s.depth p < Nat.min (f x) cap)
    past (fun g => g.wctx.toNat) 31 15 15 || past (fun g => g.tiles.toNat) 63 32 32
    || past (fun g => g.cont.toNat) 0xFFFFFFFF 0xFFFFFFFF 0xFFFFFFFF || past (fun g => g.slice.toNat) 0xFFFFFFFF 131072 0xFFFFFFFF
    || past (fun g => g.logb.toNat) 0xFFFFFFFF 0xFFFFFFFF 0xFFFFFFFF || past (fun g => g.bulk.toNat) 0xFFFFFFFF 8388608 0xFFFFFFFF
    || past (fun g => g.fabr.toNat) 0xFF 256 254

/-! ### Region control blocks in memory (R230, R231) -/

/-- Where firmware keeps the control block of a region: below the save areas (DESIGN CHOICE, log 101). -/
def rcbAddr (r : Nat) : Nat := 2 ^ 48 + 2 ^ 39 - 4096 * 0x4800000 - (r + 1) * 256

/-- Address of the control block of the first live region with property f, in the order of numbers; 0 if none. -/
def State.rcbLink (s : State) (f : Nat × Region → Bool) : Word :=
  match s.regions.find? (fun e => !e.2.dead && f e) with
  | some e => BitVec.ofNat 64 (rcbAddr e.1)
  | none => 0

/-- The words of a region's control block (R231): children and siblings follow one another in the order of their numbers. -/
def State.rcbWords (s : State) (r : Nat) : List Word :=
  let g := s.region r
  let n (x : Nat) (sh : Nat) : Word := BitVec.ofNat 64 (x * 2 ^ sh)
  [ match g.parent with | some p => BitVec.ofNat 64 (rcbAddr p) | none => 0
  , s.rcbLink (fun e => e.2.parent == some r)
  , if g.parent.isNone then 0 else s.rcbLink (fun e => e.2.parent == g.parent && decide (r < e.1))
  , n g.rm.toNat 63 ||| n g.fdb.toNat 62 ||| n g.prio.toNat 56 ||| n g.fabr.toNat 48 ||| n (r % 2 ^ 24) 0
  , n g.wctx.toNat 59 ||| n g.tiles.toNat 53 ||| g.cont.setWidth 64
  , n g.slice.toNat 32 ||| g.logb.setWidth 64
  , n g.dbnd.toNat 32 ||| g.bulk.setWidth 64
  , g.handler.setWidth 64, g.chan.setWidth 64, g.expd.setWidth 64, g.scale.setWidth 64, g.save.setWidth 64, g.cq.setWidth 64
  , n g.nch.toNat 48 ||| n g.pq.toNat 32 ||| n g.msix.toNat 16 ||| g.cqn.setWidth 64
  , g.savev.setWidth 64 ] ++ List.replicate 17 0

/-- Firmware writes the control blocks that have changed (R230, R243). -/
def State.writeRcbs (s : State) : State :=
  (s.regions.filter (fun e => !e.2.dead)).foldl (fun m e =>
    if m.rdWords (rcbAddr e.1) 32 = s.rcbWords e.1 then m
    else m.wrBytes (rcbAddr e.1) ((s.rcbWords e.1).map (fun w => toBytes 8 w.toNat)).flatten) s

/-! ### Tags (R110) -/

/-- Does a core work under a tag: in its root word, its micro-TLB, or a translation that an engine operation of it holds? -/
def Core.underTag (k : Core) (tag : BitVec 7) : Bool :=
  let on (l : List Tlb) : Bool := l.any (fun e => e.tag == tag)
  k.tag == tag || on k.utlb || k.copies.any (fun x => on x.tlbs) || k.mat.any (fun o => on o.tlbs) || k.epi.any (fun x => on x.tlbs)
  || k.staged.any (fun e => on e.2.tlbs) || k.cmdq.any (fun q => match q with | .send _ _ _ _ _ _ _ _ _ t => on t | _ => false)

/-- Does a cluster: in its TLB, a walk or a fill, or a routing job? -/
def Cluster.underTag (k : Cluster) (tag : BitVec 7) : Bool :=
  let on (l : List Tlb) : Bool := l.any (fun e => e.tag == tag)
  on k.tlb || k.walks.any (fun w => w.tag == tag) || k.fills.any (fun w => w.tag == tag) || k.routes.any (fun j => on j.tlbs)

/-- May a tag not be given to a new tenant: a tenant has it, or a former one has not left every translation structure (R110)? -/
def State.tagTaken (s : State) (tag : BitVec 7) : Bool :=
  s.regions.any (fun e => !e.2.dead && e.2.tag == tag) || s.cores.any (fun e => e.2.underTag tag)
  || s.clusters.any (fun e => e.2.underTag tag) || s.tenants.any (fun t => t.tag == tag)

/-- The lowest number from n on that a list does not hold. -/
def freeNumber (l : List Nat) : Nat → Nat → Nat
  | 0, n => n
  | k + 1, n => if l.contains n then freeNumber l k (n + 1) else n

/-- Where firmware puts the save area of a region: below the end of bulk memory, 64 Ki frame slots of 0x480 bytes (R95; DESIGN
CHOICE, log 22). -/
def saveArea (r : Nat) : BitVec 52 := BitVec.ofNat 52 (2 ^ 48 + 2 ^ 39 - (r % 4096 + 1) * 0x4800000)

/-- A new child of a region (R230, R432): a tenant receives the lowest free tag and an address space of firmware's making, and any
other region is of its parent's tenant. -/
def State.newRegion (s : State) (parent r : Nat) (w : List Word) : Region :=
  let p := s.region parent
  let x : Region := ({} : Region).ofImage w
  let x := { x with parent := some parent, save := saveArea r }
  if parent = 0 then
    let tag := BitVec.ofNat 7 (freeNumber ((List.range 128).filter (fun n => s.tagTaken (BitVec.ofNat 7 n))) 127 1)
    { x with tag := tag, root := (Config.freeValue s.steps &&& 0x000FFFFFFFFFC000#64) ||| tag.setWidth 64 ||| (1#64 <<< 63) }
  else { x with tag := p.tag, root := p.root }

/-- REGION_CREATE (R432): `OP` 1 makes a child of a region; an unknown `OP` is answered with status 4. -/
def tryRegionCreate (s : State) : Option State :=
  match s.nextCmd false with
  | none => none
  | some (i, q) =>
    if q.op = 0 ∨ 6 < q.op then some (s.answer i q 4 0)
    else if q.op ≠ 1 then none
    else if !s.mayName q then some (s.answer i q 1 0)
    else match s.image? q 32 with
      | none => some (s.answer i q 3 0)
      | some w =>
        if rcbMalformed w then some (s.answer i q 3 0)
        else
          let r := freeNumber (s.regions.map (·.1)) s.regions.length 1
          let x := s.newRegion q.target r w
          if s.overBudget x.parent x ∨ (q.target = 0 ∧ x.tag = 0) then some (s.answer i q 2 0)
          else some (({ s with regions := s.regions.set r x } : State).writeRcbs.answer i q 0 r)

/-- REGION_CHANGE (R233, R432): `OP` 2 takes the fields of an image. -/
def tryRegionChange (s : State) : Option State :=
  match s.nextCmd false with
  | none => none
  | some (i, q) =>
    if q.op ≠ 2 then none
    else if !s.mayName q then some (s.answer i q 1 0)
    else match s.image? q 32 with
      | none => some (s.answer i q 3 0)
      | some w =>
        if rcbMalformed w then some (s.answer i q 3 0)
        else
          let x := (s.region q.target).ofImage w
          if s.overBudget x.parent x then some (s.answer i q 2 0)
          else some ((s.modRegion q.target (fun g => g.ofImage w)).writeRcbs.answer i q 0 0)

/-- REGION_PREEMPT (R208, R432): `OP` 4 sets a region's own pre-empted state; the PF's command on a tenant or on the root takes
tenants off their cores, and a tenant's command never halts its context 0. -/
def tryRegionPreempt (s : State) : Option State :=
  match s.nextCmd false with
  | none => none
  | some (i, q) =>
    if q.op ≠ 4 then none
    else if !s.mayName q then some (s.answer i q 1 0)
    else
      let top := decide (q.target = 0) || decide ((s.region q.target).parent = some 0)
      some ((s.modRegion q.target (fun g => { g with preempted := true, evict := g.evict || (q.from?.isNone && top) })).answer i q 0 0)

/-- REGION_RESUME (R208, R211, R432): `OP` 5 clears a region's own pre-empted state. -/
def tryRegionResume (s : State) : Option State :=
  match s.nextCmd false with
  | none => none
  | some (i, q) =>
    if q.op ≠ 5 then none
    else if !s.mayName q then some (s.answer i q 1 0)
    else some ((s.modRegion q.target (fun g => { g with preempted := false, evict := false })).answer i q 0 0)

/-! ### Launches by firmware (R207, R234, R432) -/

/-- Sends a record that firmware starts in a region: to the lowest core that the region's tenant holds and that accepts it, else
to the dispenser of cluster k (DESIGN CHOICE, log 22). -/
def State.fwLaunch (s : State) (r k : Nat) (w : List Word) : State :=
  let rcd := { Rec.ofWords w with m := false, s := false, ext := false, hop := 0, prio := s.prio r, region := BitVec.ofNat 24 r }
  let mine (e : Nat × Core) : Bool :=
    decide (e.1 < 4096) && bit e.2.root 63 && e.2.tag == s.tagOf r && s.acceptsRegion e.1 r
  let s := s.contStart r
  match s.cores.find? mine with
  | some e => s.sendCont 4097 { rcd := rcd } false e.1
  | none => s.sendCont 4097 { rcd := rcd } true k

/-- REGION_LAUNCH (R432): `OP` 6 launches the record of an image into a region. -/
def tryRegionLaunch (s : State) : Option State :=
  match s.nextCmd false with
  | none => none
  | some (i, q) =>
    if q.op ≠ 6 then none
    else if !s.mayName q then some (s.answer i q 1 0)
    else match s.image? q 8 with
      | none => some (s.answer i q 3 0)
      | some w =>
        if !s.contRoom q.target then some (s.answer i q 2 0)
        else some ((s.fwLaunch q.target (match q.from? with | some (c, _) => clusterOf c | none => 0) w).answer i q 0 0)

/-- Launches the handler of the first region of a path that has one, with x1 and on from a list (R207, R234). -/
def State.launchHandler (s : State) (path : List Nat) (xs : List Word) : State :=
  match path.find? (fun r => decide ((s.region r).handler ≠ 0) && !(s.region r).dead) with
  | none => s
  | some r =>
    match s.regionWords r (s.region r).handler.toNat 8 with
    | none => s
    | some w => s.fwLaunch r 0 (w.take 2 ++ xs ++ w.drop (2 + xs.length))

/-! ### The end of a subtree (R234) -/

/-- The root of the subtree that a region's fault kills: the nearest region at or above it with `FDB`, or its tenant (R234). -/
def State.domainRoot (s : State) (r : Nat) : Option Nat :=
  (s.pathUp s.depth r).find? (fun q => decide (q ≠ 0) && ((s.region q).fdb || decide ((s.region q).parent = some 0)))

/-- What the end of some regions does on one context: it becomes idle, or off under a deferred reap, and context 0 stops. -/
def State.endCtx (s : State) (c t : Nat) (hit : Nat → Bool) : State :=
  let k := s.ctx c t
  let live := k.mode == .loading || k.mode == .running || k.mode == .stopped
  if !live ∨ !hit k.region.toNat then s
  else if t = 0 then s.modCtx c 0 (fun k => { k with mode := .stopped, fbuf := .empty, freq := none, stop := none })
  else (s.modCtx c t (fun k => { k with pair := none, gen := k.gen + 1 })).freeCtx c t

/-- What the end of some regions does on a core (R234, steps 1 to 4): continuations end, unpublished records of their contexts are
void, and queued engine operations fail with `STAT` 4. -/
def State.endCore (s : State) (c : Nat) (hit : Nat → Bool) : State :=
  let k := s.core c
  let live (t : Nat) : Bool :=
    let x := s.ctx c t
    (x.mode == .loading || x.mode == .running || x.mode == .stopped) && hit x.region.toNat
  let quits (r : LogRec) : Bool := r.st == .unpublished && live r.ctx.toNat
  let rest (o : MatOp) : Bool := !hit o.region.toNat || o.running
  let sends := k.cmdq.filterMap (fun q => match q with
    | .send ch ep _ _ b _ _ t r _ => if hit r.toNat then some (ch, ep, b, t, r) else none
    | _ => none)
  let ids := (k.copies.filter (fun x => hit x.region.toNat && !x.requested)).map (·.id)
  let keep (q : Cmd) : Bool := match q with
    | .copy id => !ids.contains id
    | .send _ _ _ _ _ _ _ _ r _ => !hit r.toNat
    | .rcd q _ => !hit q.rcd.region.toNat
    | .post _ _ _ _ _ => true
  let gone := k.mat.filter (fun o => !rest o)
  let k := gone.foldl (fun k o => (if o.failed then k else k.freeClaims o).setBusy o.tile false) k
  let k := { k with
    log := ({ k.log with recs := k.log.recs.map (fun r => if quits r then { r with st := .void } else r) } : Log).advance
    aq := k.aq.filter (fun q => !hit q.rcd.region.toNat), spilled := k.spilled.filter (fun q => !hit q.rcd.region.toNat)
    waits := k.waits.filter (fun w => !hit w.cont.rcd.region.toNat), frames := k.frames.filter (fun f => !hit f.region.toNat)
    copies := k.copies.map (fun x => if ids.contains x.id then { x with requested := true, stat := 4, dropped := List.range x.total } else x)
    cmdq := k.cmdq.filter keep, mat := k.mat.filter rest }
  let s := (List.range 16).foldl (fun s t => s.endCtx c t hit) (s.setCore c k)
  let s := (gone.filter (fun o => !o.failed)).foldl (fun s o => s.postRecord c o.region.toNat 8 4 o.tile o.stored 0 0 c o.ctx) s
  sends.foldl (fun s x => s.sendFails c x.1 x.2.1 x.2.2.2.2.toNat x.2.2.1 4 x.2.2.2.1) s

/-- Waiters of some regions leave a channel, which enters error (R215, R234, step 5). -/
def State.endChan (s : State) (hit : Nat → Bool) (key : Nat) : State :=
  let drop (w : Option Waiter) : Option Waiter := w.filter (fun w => !hit w.cont.rcd.region.toNat)
  let s := s.modChan key (fun ch => { ch with
    rwaiter := drop ch.rwaiter, eps := ch.eps.map (fun p => { p with waiter := drop p.waiter }) })
  if hit (key / 4096) then s.chanError key else s

/-- Ends a subtree (R234, steps 1 to 6). Its regions keep their numbers, with no continuations; when a tenant ends, its VF is
disabled (R449), what it has left on cores is dropped, and its translations leave every TLB (R110). -/
def State.endSubtree (s : State) (root : Nat) : State :=
  let hit (r : Nat) : Bool := s.within r root
  let last : Bool := (s.region root).parent == some 0
  let s1 := (s.cores.map (·.1)).foldl (fun s c => s.endCore c hit) s
  let s2 := (s1.chans.map (·.1)).foldl (fun s key => s.endChan hit key) s1
  let waiting (j : Job) : Bool := hit j.region.toNat && !j.started
  let jobs := (s2.clusters.map (fun (e : Nat × Cluster) => e.2.routes.filter waiting)).flatten
  let s3 := { s2 with
    flight := s2.flight.filter (fun (f : Flight) => match f.body with | .cont q => !hit q.rcd.region.toNat | _ => true)
    saved := s2.saved.filter (fun (v : Saved) => !hit v.region)
    tenants := (s2.tenants.filter (fun (t : SavedTenant) => !(last && t.tag == s.tagOf root))).map (fun (t : SavedTenant) => { t with
      spilled := t.spilled.filter (fun q => !hit q.rcd.region.toNat), queue := t.queue.filter (fun q => !hit q.rcd.region.toNat)
      waits := t.waits.filter (fun w => !hit w.cont.rcd.region.toNat) })
    clusters := s2.clusters.map (fun (e : Nat × Cluster) => (e.1, { e.2 with
      disp := e.2.disp.filter (fun q => !hit q.rcd.region.toNat), routes := e.2.routes.filter (fun j => !waiting j) }))
    windows := s2.windows.map (fun (w : Nat × Window) =>
      if hit (bitsN w.2.ctl 0 24) then (w.1, { w.2 with ctl := setField w.2.ctl 63 0#1 }) else w)
    regions := s2.regions.map (fun (e : Nat × Region) =>
      if hit e.1 then (e.1, { e.2 with dead := true, conts := 0, placed := 0, preempted := false, evict := false, idleSince := none })
      else e) }
  let s4 := jobs.foldl (fun s j => s.postRecord j.core j.region.toNat 8 4 j.layer 0 0 0 j.core j.ctx) s3
  if last then s4.removeEntries { id := 0, core := 0, ctx := 0, gen := 0, kind := 3, tag := s.tagOf root, va := 0 } else s4

/-- REGION_DESTROY (R432): `OP` 3 ends a subtree as R234 does, and launches no handler. -/
def tryRegionDestroy (s : State) : Option State :=
  match s.nextCmd false with
  | none => none
  | some (i, q) =>
    if q.op ≠ 3 then none
    else if !s.mayName q ∨ q.target = 0 then some (s.answer i q 1 0)
    else some ((s.endSubtree q.target).writeRcbs.answer i q 0 0)

/-- The faults that the scheduler finds next: those reported to it, oldest first, and regions whose control block lies on a poisoned
line (R234). -/
def State.faultsFound (s : State) : List RegFault :=
  s.faults ++ (s.regions.filter (fun e => decide (e.1 ≠ 0) && !e.2.dead && (s.poisoned (rcbAddr e.1) 256).isSome)).map
    (fun e => { region := e.1, code := cPoison })

/-- REGION_FAULT_KILL (R234): the oldest fault kills its domain's subtree; the parent's handler learns of it, or, for a tenant, the
host. A fault that no domain holds has no effect (log 22). -/
def tryRegionFaultKill (s : State) : Option State :=
  match s.faultsFound with
  | [] => none
  | f :: _ =>
    let s := { s with faults := s.faults.drop 1 }
    if (s.region f.region).dead then some s
    else match s.domainRoot f.region with
      | none => some s
      | some k =>
        let up := (s.pathUp s.depth k).drop 1
        let s := (s.endSubtree k).writeRcbs
        if (s.region k).parent = some 0 then some (s.hostEvent 0x10 0 k f.code.toNat)
        else some (s.launchHandler up [f.code.setWidth 64, BitVec.ofNat 64 k, BitVec.ofNat 64 f.region])

/-! ### Meanings -/

/-- REGION_CREATE (R432). -/
def execRegionCreate (s : State) : Out := runEvent (tryRegionCreate) s

/-- REGION_CHANGE (R432). -/
def execRegionChange (s : State) : Out := runEvent (tryRegionChange) s

/-- REGION_DESTROY (R432). -/
def execRegionDestroy (s : State) : Out := runEvent (tryRegionDestroy) s

/-- REGION_PREEMPT (R208). -/
def execRegionPreempt (s : State) : Out := runEvent (tryRegionPreempt) s

/-- REGION_RESUME (R211). -/
def execRegionResume (s : State) : Out := runEvent (tryRegionResume) s

/-- REGION_LAUNCH (R432). -/
def execRegionLaunch (s : State) : Out := runEvent (tryRegionLaunch) s

/-- REGION_FAULT_KILL (R234). -/
def execRegionFaultKill (s : State) : Out := runEvent (tryRegionFaultKill) s

end Sys2Proof.Machine
end

