-- ==== Sys2Proof/Machine/Preempt.lean ====
section
/-! DEFINITION. Pre-emption: the halt, the saving and the restoring of a region's state on a core, and of the tenant that leaves or
returns (R171, R197, R208 to R211, R253, R262, R393, R440, R444). -/

namespace Sys2Proof.Machine

/-! ### The halt (R208) -/

/-- The regions whose pre-emption has not reached a core yet; the root stands for a core that firmware empties for a bin move. -/
def State.haltsDue (s : State) (c : Nat) : List Nat :=
  let k := s.core c
  let due := (s.regions.filter (fun (e : Nat × Region) => e.2.preempted)).map (·.1) ++ (if k.binNext.isSome ∨ k.oos then [0] else [])
  due.filter (fun r => !k.halted.any (fun h => decide (h.1 = r)))

/-- PREEMPT_ARRIVE (R208): the request reaches a core; from this cycle no bundle of the subtree issues there. -/
def tryPreemptArrive (c : Nat) (s : State) : Option State :=
  if 4096 ≤ c then none else
  match s.haltsDue c with
  | [] => none
  | r :: _ => some (s.modCore c (fun k => { k with halted := k.halted ++ [(r, k.cycle)] }))

/-- Does a halt take the tenant off the core (R211, R444)? -/
def State.evicting (s : State) (c : Nat) : Bool :=
  let k := s.core c
  k.halted.any (fun h =>
    ((s.region h.1).evict && (decide (h.1 = 0) || s.tagOf h.1 == k.tag)) || (decide (h.1 = 0) && (k.binNext.isSome || k.oos)))

/-- Is a context halted (R208)? Context 0 is only where its tenant leaves the core. -/
def State.ctxHalted (s : State) (c t : Nat) : Bool :=
  if t = 0 then s.evicting c else s.haltedOn c (s.ctx c t).region.toNat

/-! ### Saving (R209, R210, R393) -/

/-- A context that holds a continuation (R186). -/
def Ctx.occupied (k : Ctx) : Bool := k.mode == .loading || k.mode == .running || k.mode == .stopped

/-- Workers of a core that hold a continuation of region r. -/
def State.workersIn (s : State) (c r : Nat) : List Nat :=
  ((List.range 16).drop 1).filter (fun t => (s.ctx c t).occupied && decide ((s.ctx c t).region.toNat = r))

/-- A secondary, which its primary's core frees (R440). -/
def Ctx.isSecondary (k : Ctx) : Bool := match k.pair with | some p => !p.primary | none => false

/-- Does a command queue entry belong to region r? -/
def Core.cmdOf (k : Core) (r : Nat) : Cmd → Bool
  | .copy id => k.copies.any (fun x => decide (x.id = id) && decide (x.region.toNat = r))
  | .send _ _ _ _ _ _ _ _ g _ => decide (g.toNat = r)
  | .rcd _ _ => false
  | .post _ _ _ g _ => decide (g.toNat = r)

/-- Has region r something on a core that pre-emption saves? -/
def State.present (s : State) (c r : Nat) : Bool :=
  let k := s.core c
  !(s.workersIn c r).isEmpty || k.mat.any (fun o => !o.failed && decide (o.region.toNat = r))
  || k.epi.any (fun e => decide (e.region.toNat = r)) || k.aq.any (fun q => decide (q.rcd.region.toNat = r))
  || k.spilled.any (fun q => decide (q.rcd.region.toNat = r)) || k.waits.any (fun w => decide (w.cont.rcd.region.toNat = r))
  || k.ctrs.any (fun e => decide (r ≠ 0) && decide (e.2.region.toNat = r))

/-- The drain of a region on a core is over (R209, steps 1, 3 and 4): no result is awaited, its engine operations have ended, no step
of it runs and none can start any more. -/
def State.drained (s : State) (c r : Nat) : Bool :=
  let k := s.core c
  (s.workersIn c r).all (fun t =>
    let x := s.ctx c t
    x.mode != .running || (!x.hasPending && x.stop.isNone && (match x.pair with | some p => p.foldq.isEmpty | none => true)))
  && !k.copies.any (fun x => decide (x.region.toNat = r)) && !k.cmdq.any (k.cmdOf r)
  && k.mat.all (fun o => decide (o.region.toNat ≠ r) || o.failed || (!o.running && s.haltsStep c { o with grp := none }))

/-- The held records of context t are void (R172, R437). -/
def Log.voidHeld (l : Log) (t : Nat) : Log :=
  ({ l with recs := l.recs.map (fun r => if r.held ∧ r.ctx.toNat = t then { r with st := .void, held := false } else r) } : Log).advance

/-- A paired thread goes back to its checkpoint (R440): held records are void, the secondary is free, and the checkpoint stands in the
primary's context. -/
def State.toCheckpoint (s : State) (c t : Nat) : State :=
  match (s.ctx c t).pair with
  | none => s
  | some p =>
    let s := s.modCore c (fun k => p.shadow.foldl (fun k (e : Nat × List (BitVec 32)) => k.setTile e.1 e.2) { k with log := k.log.voidHeld t })
    let s := s.dropTwin c t
    s.modCtx c t (fun k => { (k.ofImage p.ckpt (prvOf c t)) with latSeq := k.latSeq + 1 })

/-- Saves worker t: its frame with `STOP` 0x19, unless a frame of it is saved already; a record that was loading goes back to the head
of the queue. The answer says whether a trap had stopped it (R197, R209). -/
def State.saveCtx (s : State) (c t : Nat) : State × Option (Nat × Bool) :=
  let k := s.ctx c t
  if k.isSecondary then (s, none)
  else match k.mode with
  | .running =>
    let s := s.toCheckpoint c t
    ((s.writeFrame c t (s.ctx c t).pc cPreempt).freeCtx c t, some (t, false))
  | .stopped => (s.freeCtx c t, some (t, k.stop.isNone))
  | .loading =>
    let aq := (s.core c).aq
    let mine := (aq.filter (fun q => q.loading == some t)).map (fun q => { q with loading := none })
    ((s.modCore c (fun k => { k with aq := mine ++ k.aq.filter (fun q => q.loading != some t) })).freeCtx c t, none)
  | _ => (s, none)

/-- Physical tiles in the windows of some workers. -/
def State.windowTiles (s : State) (c : Nat) (ts : List Nat) : List Nat :=
  (ts.map (fun t => (List.range (winCount (s.ctx c t).tiles)).map (physTile (s.ctx c t).tiles))).flatten

/-- Tiles that saved matrix work keeps busy (R76). -/
def Saved.busyTiles (v : Saved) : List Nat :=
  v.mat.map (·.tile) ++ (v.epi.filter (fun e => e.data.isNone)).map (·.tile)

/-- A counter whose image has been saved, with its increments: the live one has none left to apply (R209, R266). -/
def Counter.taken (x : Counter) : Counter := { x with inc := 0, arms := [] }

/-- Saves what a region has on a core (R209, R210, R393), with what an earlier resume has not brought back yet. Counters, rings and
curve tables also stay where they are. So do its wait-list records: what wakes one meanwhile moves it to its queue, where it takes
part in nothing until the resume (R197, R209). -/
def State.saveRegion (s : State) (c r : Nat) : State :=
  let ts := s.workersIn c r
  let k := s.core c
  let mine (g : BitVec 24) : Bool := decide (g.toNat = r)
  let mat := k.mat.filter (fun o => mine o.region && !o.failed)
  let epi := k.epi.filter (fun e => mine e.region)
  let tiles := uniq (s.windowTiles c ts ++ mat.map (·.tile) ++ epi.map (·.tile))
  let y := ts.foldl (fun (a : State × List (Nat × Bool)) t =>
    let z := a.1.saveCtx c t
    (z.1, a.2 ++ z.2.toList)) (s, [])
  let s := y.1
  let k := s.core c
  let acc : Tab (List (BitVec 32)) := tiles.foldl (fun t n => Tab.set t n (k.tile n)) []
  let rest := s.saved.filter (fun v => decide (v.core = c) && decide (v.region = r))
  let v : Saved := {
    core := c, region := r, ctxs := (rest.map (·.ctxs)).flatten ++ y.2, mat := mat, epi := epi, acc := acc
    queue := (rest.map (·.queue)).flatten ++ k.aq.filter (fun q => mine q.rcd.region) ++ k.spilled.filter (fun q => mine q.rcd.region)
    ctrs := k.ctrs.filter (fun (e : Nat × Counter) => mine e.2.region)
    cur := k.cur.filter (fun (e : Nat × List Segment) => decide (k.curOwner.get? e.1 = some r)), rings := k.rings }
  let k := { k with
    ctrs := k.ctrs.map (fun (e : Nat × Counter) => (e.1, if mine e.2.region then e.2.taken else e.2))
    aq := k.aq.filter (fun q => !mine q.rcd.region), spilled := k.spilled.filter (fun q => !mine q.rcd.region)
    mat := k.mat.filter (fun o => !(mine o.region && !o.failed)), epi := k.epi.filter (fun e => !mine e.region) }
  let k := v.busyTiles.foldl (fun k n => k.setBusy n false) k
  { (s.setCore c k) with saved := s.saved.filter (fun v => !(decide (v.core = c) && decide (v.region = r))) ++ [v] }

/-! ### The tenant leaves and returns (R171, R211, R222, R253, R262) -/

/-- Nothing of its tenant's work is left on a core: threads saved, engine operations and
routing jobs ended, published records shipped (R171; log 105). -/
def State.emptied (s : State) (c : Nat) : Bool :=
  let k := s.core c
  let x := s.ctx c 0
  ((List.range 16).drop 1).all (fun t => !(s.ctx c t).occupied)
  && (s.cluster (clusterOf c)).routes.all (fun j => decide (j.core ≠ c))
  && k.mat.all (fun o => o.failed) && k.epi.isEmpty && k.copies.isEmpty && k.cmdq.isEmpty && k.acts.isEmpty && k.tload.isEmpty
  && k.log.recs.all (fun r => !precedes r.seq k.log.frontier) && !x.hasPending && x.stop.isNone

/-- The core is ready to give up its tenant, which a halt takes off it (R171, R211). -/
def State.canLeave (s : State) (c : Nat) : Bool := s.evicting c && bit (s.core c).root 63 && s.emptied c

/-- Is a reservoir that of a bin on core c (R273)? -/
def State.resvOn (s : State) (c : Nat) (e : Nat × Resv) : Bool :=
  match s.chans.get? (chanKey (e.1 / 131072) (bitsN (e.2.ent.getD 0 0) 0 12)) with
  | some ch => decide (ch.rcore = c)
  | none => false

/-- The core holds no tenant: what belongs to one is at its value before the first (R109, R249, R250, R262, R277). -/
def State.vacate (s : State) (c : Nat) : State :=
  s.modCore c (fun k => { k with
    root := 0, utlb := [], log := {}, notices := [], aspill := 0, spilled := [], spillTail := 0, aq := [], mail := [], dec := []
    cur := [], curOwner := [], ctrs := [], acts := [], staged := [], rings := [], perf := Vector.replicate 8 {}, waits := []
    rbuf := [], mat := []
    ctxs := k.ctxs.set 0 { (Ctx.reset c 0) with mode := .stopped, gen := (s.ctx c 0).gen + 1, regErr := (s.ctx c 0).regErr } })

/-- The tenant leaves the core (R171, R211, R273): its log, notices, spill ring, mailbox, tables, counters, staged commands and
reservoirs are saved, and the frame of its context 0 with `STOP` 0x19, unless a double trap has written it (R98). -/
def State.leave (s : State) (c : Nat) : State :=
  let x := s.ctx c 0
  let s := if x.mode = .stopped then s else s.writeFrame c 0 x.pc cPreempt
  let k := s.core c
  let held := s.resvs.filter (s.resvOn c)
  let t : SavedTenant := {
    core := c, tag := k.tag, log := k.log, notices := k.notices, aspill := k.aspill, spilled := k.spilled, queue := k.aq
    mail := k.mail, dec := k.dec, cur := k.cur, ctrs := k.ctrs, staged := k.staged, rings := k.rings, perf := k.perf
    steward := x, waits := k.waits, root := k.root, spillTail := k.spillTail, curOwner := k.curOwner, resvs := held }
  let s := held.foldl (fun (s : State) (e : Nat × Resv) =>
    ({ s with resvs := s.resvs.erase e.1 } : State).modCluster e.2.cluster (fun q => { q with freeResv := q.freeResv + 1 })) s
  { (s.vacate c) with tenants := s.tenants ++ [t] }

/-- PREEMPT_SAVE (R209): the first drained region of a core is saved; when none is left and its tenant leaves, the tenant is. -/
def tryPreemptSave (c : Nat) (s : State) : Option State :=
  let here := (s.regions.map (·.1)).filter (fun r => s.frozenOn c r && s.present c r
    && !s.saved.any (fun v => decide (v.core = c) && decide (v.region = r) && decide (v.phase = 0)))
  match here.find? (s.drained c) with
  | some r => some (s.saveRegion c r)
  | none => if here.isEmpty && s.canLeave c then some (s.leave c) else none

/-! ### Restoring (R211) -/

/-- The bytes of a log's records in their slots, and those of spilled records in their ring, as they were before the tenant left
(R151, R171, R193). -/
def State.rewriteRings (s : State) (c : Nat) (t : SavedTenant) : State :=
  let s := t.log.recs.foldl (fun s r => s.wrBytes (t.log.slotAddr c r) r.bytes) s
  let first := t.spillTail - t.spilled.length
  (t.spilled.zip (List.range t.spilled.length)).foldl (fun s q => s.wrWords (spillSlot c t.aspill (first + q.2)) q.1.rcd.words) s

/-- Context 0 of a tenant that returns: from its frame, or stopped as a double trap has left it (R81, R98, R211). A frame that cannot
be read is a fault of the region (R234). -/
def State.returnSteward (s : State) (c : Nat) (x : Ctx) : State :=
  let back (y : Ctx) : State :=
    s.setCtx c 0 { y with fbuf := .empty, freq := none, tlb := .none, acq := none, ownLine := none, gen := (s.ctx c 0).gen + 1 }
  if x.mode = .stopped then back x
  else match s.savedFrame c 0 x.region.toNat with
    | some w => (back (x.ofImage w (prvOf c 0))).wantLine c 0
    | none => (back { x with mode := .stopped }).regionFault x.region.toNat cPoison

/-- The tenant returns to a core that holds none, under a root word: its log first, then all else that left with it (R171, R211); an
arrival-spill notice reports what came meanwhile (R197), and messages that came meanwhile wake the waiters that they match (R222). -/
def State.comeBack (s : State) (c : Nat) (t : SavedTenant) (root : Word) : State :=
  let s := s.modCore c (fun k => { k with
    root := root, utlb := [], log := t.log, notices := t.notices, aspill := t.aspill, spilled := t.spilled, spillTail := t.spillTail
    aq := t.queue ++ k.aq, mail := [], dec := t.dec, cur := t.cur, curOwner := t.curOwner, ctrs := t.ctrs, staged := t.staged
    rings := t.rings, perf := t.perf, waits := t.waits ++ k.waits, rbuf := [] })
  let s := s.rewriteRings c t
  let s := t.resvs.foldl (fun (s : State) (e : Nat × Resv) =>
    ({ s with resvs := s.resvs.set e.1 e.2 } : State).modCluster e.2.cluster (fun q => { q with freeResv := q.freeResv - 1 })) s
  let s := t.mail.foldl (fun s m => s.enterMail c m) s
  let s := s.returnSteward c t.steward
  if t.late = 0 then s
  else s.notifyEvent c cArrivalSpill 0 0 (fun o => match o with | some v => v + BitVec.ofNat 64 t.late | none => BitVec.ofNat 64 t.late)

/-- The queue of a saved region goes back to its core as far as there is room; the answer is what still waits (R188, R211). -/
def State.bringQueue (s : State) (c : Nat) (q : List Cont) : State × List Cont :=
  let room := 48 - (s.core c).aq.length
  (s.modCore c (fun k => { k with aq := (q.take room).map (fun q => { q with rcd := { q.rcd with s := false } }) ++ k.aq }), q.drop room)

/-- The state of a region returns to a core (R211, R253, R393), all but its queue and frames: rings, counters, its curve tables, tiles,
frozen epilogues and saved operations, in their places ahead of new ones. -/
def State.bringBack (s : State) (c : Nat) (v : Saved) : State :=
  s.modCore c (fun k =>
    let k := { k with
      rings := v.rings, ctrs := v.ctrs.foldl (fun t (e : Nat × Counter) => Tab.set t e.1 e.2) k.ctrs
      cur := v.cur.foldl (fun t (e : Nat × List Segment) => Tab.set t e.1 e.2) k.cur
      curOwner := v.cur.foldl (fun t (e : Nat × List Segment) => Tab.set t e.1 v.region) k.curOwner
      acc := v.acc.foldl (fun t (e : Nat × List (BitVec 32)) => Tab.set t e.1 e.2) k.acc
      epi := v.epi ++ k.epi, mat := v.mat ++ k.mat, rbuf := [] }
    v.busyTiles.foldl (fun k n => k.setBusy n true) k)

/-- One saved frame goes to a free context: a stopped thread stays stopped, any other resumes (R81, R211). The former context is taken
when it is free, else the lowest that is. -/
def State.bringFrame (s : State) (c r : Nat) (words : List Word) (former : Nat × Bool) : Option State :=
  let place := if (s.ctx c former.1).mode == .idle then some former.1 else s.idleCtx c
  place.map (fun t =>
    let s := s.modCtx c t (fun k => { k with region := BitVec.ofNat 24 r, gen := k.gen + 1 })
    if former.2 then
      let s := s.wrWords (s.frameSlot c t r) words
      s.modCtx c t (fun k =>
        { (k.ofImage words (prvOf c t)) with mode := .stopped })
    else s.restoreFrame c t words)

/-- Frames go to free contexts in ascending order of their former numbers; the rest wait. One that cannot be read is a fault of the
region (R234). -/
def State.bringFrames (s : State) (c r : Nat) : List (Nat × Bool) → State × List (Nat × Bool)
  | [] => (s, [])
  | f :: l =>
    match s.savedFrame c f.1 r with
    | none => (s.regionFault r cPoison).bringFrames c r l
    | some w =>
      match s.bringFrame c r w f with
      | some s' => s'.bringFrames c r l
      | none => (s, f :: l)

/-- Replaces entry i of the saved states; one without frames and records left is done. -/
def State.setSaved (s : State) (i : Nat) (v : Saved) : State :=
  { s with saved := if v.phase = 2 ∧ v.ctxs.isEmpty ∧ v.queue.isEmpty then listDel s.saved i else listSet s.saved i v }

/-- Are the reservoirs that a saved tenant takes back free (R273)? -/
def State.resvRoom (s : State) (t : SavedTenant) : Bool := t.resvs.all (fun e => decide (t.resvs.length ≤ (s.cluster e.2.cluster).freeResv))

/-- May a saved tenant return to a core: the core holds none, nothing keeps the tenant off it, and its reservoirs are free? -/
def State.mayReturn (s : State) (c : Nat) (t : SavedTenant) : Bool :=
  decide (t.core = c) && !bit (s.core c).root 63 &&
  (s.regions.filter (fun (e : Nat × Region) => decide (e.2.parent = some 0) && e.2.tag == t.tag)).all (fun e => !s.haltedHere c e.1) &&
  s.resvRoom t

/-- Does a halt still hold on a core: its region is pre-empted, the core is being emptied, or a part of its subtree is not restored? -/
def State.haltStays (s : State) (c : Nat) (h : Nat × Nat) : Bool :=
  (s.region h.1).preempted || (decide (h.1 = 0) && ((s.core c).oos || (s.core c).binNext.isSome))
  || s.saved.any (fun v => decide (v.core = c) && s.within v.region h.1 && !s.haltedHere c v.region && decide (v.phase < 2))
  || s.tenants.any (fun t => s.mayReturn c t && decide (h.1 = 0 ∨ s.tagOf h.1 = t.tag))

/-- The next stage of the state saved for a region on core c, whose tenant is there and which nothing halts (R211): all but its queue
and frames, then as much of its queue as finds room, then its frames as they find contexts, once the frozen epilogues have finished. -/
def State.restoreStage (s : State) (c : Nat) (v : Saved) : Option (State × Saved) :=
  let k := s.core c
  if v.core ≠ c ∨ s.tagOf v.region ≠ k.tag ∨ s.haltedHere c v.region then none
  else if v.phase = 0 then
    let y := (s.bringBack c v).bringQueue c v.queue
    some (y.1, { v with phase := 1, queue := y.2 })
  else if v.queue ≠ [] ∧ k.aq.length < 48 then
    let y := s.bringQueue c v.queue
    some (y.1, { v with queue := y.2 })
  else if (v.phase = 1 ∨ (v.ctxs ≠ [] ∧ (s.idleCtx c).isSome))
      ∧ !k.epi.any (fun e => decide (e.region.toNat = v.region) && !e.reserved) then
    let y := s.bringFrames c v.region v.ctxs
    some (y.1, { v with phase := 2, ctxs := y.2 })
  else none

/-- RESUME_RESTORE (R211): the next stage of what a resume restores on a core; with the last stage the halt ends there. -/
def tryResumeRestore (c : Nat) (s : State) : Option State :=
  let k := s.core c
  match findIdx (s.mayReturn c) s.tenants with
  | some i => (s.tenants[i]?).map (fun t => { s with tenants := listDel s.tenants i }.comeBack c t t.root)
  | none =>
  match findIdx (fun v => (s.restoreStage c v).isSome) s.saved with
  | some i => ((s.saved[i]?).bind (s.restoreStage c)).map (fun y => y.1.setSaved i y.2)
  | none =>
    if k.halted.all (s.haltStays c) then none
    else some (s.modCore c (fun k => { k with halted := k.halted.filter (s.haltStays c) }))

/-! ### Meanings -/

/-- PREEMPT_ARRIVE (R208). -/
def execPreemptArrive (core : Nat) (s : State) : Out := runEvent (tryPreemptArrive core) s

/-- PREEMPT_SAVE (R209). -/
def execPreemptSave (core : Nat) (s : State) : Out := runEvent (tryPreemptSave core) s

/-- RESUME_RESTORE (R211). -/
def execResumeRestore (core : Nat) (s : State) : Out := runEvent (tryResumeRestore core) s

end Sys2Proof.Machine
end

