-- ==== Sys2Proof/Machine/Domain.lean ====
section
/-! DEFINITION. What watches over regions: deadlock detection (R206, R207) and placement points (R13, R124, R242). -/

namespace Sys2Proof.Machine

/-! ### Deadlock (R206, R207) -/

/-- Has region r any activity: a continuation that is queued, spilled, in transit, loading or running, or an engine operation in
flight (R206), a mailbox post and a trigger action that waits (R268) among them? Records and operations that pre-emption has saved count
as before; frames do not. -/
def State.active (s : State) (r : Nat) : Bool :=
  let mine (g : BitVec 24) : Bool := decide (g.toNat = r)
  let cont (q : Cont) : Bool := mine q.rcd.region
  s.cores.any (fun e =>
    e.2.aq.any cont || e.2.spilled.any cont || e.2.acts.any (fun a => mine a.region)
    || (List.range 16).any (fun t =>
        let x := s.ctx e.1 t
        decide (t ≠ 0) && (x.mode == .loading || x.mode == .running) && mine x.region)
    || e.2.mat.any (fun o => !o.failed && mine o.region) || e.2.epi.any (fun p => mine p.region) || e.2.copies.any (fun x => mine x.region)
    || e.2.cmdq.any (fun q => match q with
        | .send _ _ _ _ _ _ _ _ g _ => mine g
        | .rcd q _ => cont q
        | .copy _ => false
        | .post _ _ _ g _ => mine g))
  || s.saved.any (fun v => decide (v.region = r)
      && (!v.queue.isEmpty || !v.mat.isEmpty || !v.epi.isEmpty))
  || s.tenants.any (fun t => t.queue.any cont || t.spilled.any cont)
  || s.clusters.any (fun e => e.2.disp.any cont || e.2.routes.any (fun j => mine j.region))
  || s.flight.any (fun f => match f.body with
      | .cont q => cont q
      | .elem ch _ _ _ _ _ _ _ => decide (ch / 4096 = r)
      | .bcast ch _ _ _ _ _ => decide (ch / 4096 = r)
      | .recv _ _ ch _ _ _ => decide (ch / 4096 = r)
      | .row ch _ _ _ _ _ _ _ => decide (ch / 4096 = r)
      | .mail _ (some _) g _ => mine g
      | .permit p => decide (p.region = r)
      | _ => false)

/-- Channels of region r that hold a parked waiter, in ascending order. -/
def State.waitingChans (s : State) (r : Nat) : List Nat :=
  (s.chans.filter (fun (e : Nat × Chan) => decide (e.1 / 4096 = r) && (e.2.rwaiter.isSome || e.2.eps.any (fun p => p.waiter.isSome)))).map
    (fun e => e.1 % 4096)

/-- The wait lists of the cores, and of tenants that are away (R203, R211). -/
def State.allWaits (s : State) : List WaitEntry := (s.cores.map (·.2.waits)).flatten ++ (s.tenants.map (·.waits)).flatten

/-- Is a continuation of region r parked (R203)? -/
def State.hasParked (s : State) (r : Nat) : Bool :=
  !(s.waitingChans r).isEmpty || s.allWaits.any (fun w => decide (w.cont.rcd.region.toNat = r))

/-- Is external input pending for region r: data in flight for a channel with an endpoint on another package, a timed `waitc`, an
armed trigger (R206)? -/
def State.awaitsInput (s : State) (r : Nat) : Bool :=
  s.chans.any (fun e => decide (e.1 / 4096 = r) && (decide (e.2.rpkg ≠ s.pkg.toNat) || e.2.eps.any (fun p => decide (p.pkg ≠ s.pkg.toNat)))
    && s.flight.any (fun f => match f.body with
        | .elem ch _ _ _ _ _ _ _ => decide (ch = e.1)
        | .credit ch _ => decide (ch = e.1)
        | _ => false))
  || s.allWaits.any (fun w => decide (w.cont.rcd.region.toNat = r) && (match w.cond with | .counter _ _ (some _) => true | _ => false))
  || ((s.cores.map (·.2.ctrs)).flatten ++ (s.tenants.map (·.ctrs)).flatten).any (fun n => (List.range 4).any (fun i =>
      bit (n.2.slot i) 63 && decide ((n.2.armer i).toNat = r)))

/-- The conditions of R206 hold for region r at this moment. -/
def State.quiet (s : State) (r : Nat) : Bool := !s.active r && s.hasParked r && !s.awaitsInput r

/-- What the hardware notes of every region after each step: since when it has been quiet, and that a new window may begin (R206,
R207). -/
def State.observe (s : State) : State :=
  { s with regions := s.regions.map (fun (e : Nat × Region) =>
      (e.1, { e.2 with
        idleSince := if s.quiet e.1 then some (e.2.idleSince.getD s.time) else none
        deadRaised := e.2.deadRaised && !s.active e.1 })) }

/-- DEADLOCK_DETECT (R206, R207): a region has been quiet for 38,550 ns, and its handler learns of it once. -/
def tryDeadlockDetect (r : Nat) (s : State) : Option State :=
  let g := s.region r
  match g.idleSince with
  | none => none
  | some t =>
    if s.time < t + 38550 ∨ g.deadRaised ∨ g.dead ∨ !s.quiet r then none
    else
      let l := (s.waitingChans r).map (BitVec.ofNat 64)
      let xs := [0x16#64] ++ (List.range 5).map (fun i => l.getD i (~~~0#64))
      some ((s.launchHandler (s.pathUp s.depth r) xs).modRegion r (fun g => { g with deadRaised := true }))

/-! ### Placement points (R241, R242) -/

/-- Physical address of word j of an expert entry of a region (R237, R238). -/
def State.expWord (s : State) (r layer expert j : Nat) : Option Nat :=
  match s.ownerDir r layer with
  | none => none
  | some d =>
    match s.regionXl r (d.base.toNat + 32 * expert + 8 * j) false with
    | .ok x => some x.pa
    | .error _ => none

/-- Is a half of an expert Filling or Closed at a bin of this package? -/
def State.expBusy (s : State) (r layer expert : Nat) : Bool :=
  s.chans.any (fun e => decide (e.1 / 4096 = r) && decide (e.2.kind = 3) && decide (e.2.layer = layer) && decide (e.2.expert = expert)
    && (decide (e.2.half0.st ≠ 0) || decide (e.2.half1.st ≠ 0)))

/-- The table entry that maps an address, with its level: n levels are left to read (R112, R115). -/
def leafAt (s : State) (va : Nat) : Nat → Nat → Nat → Option (Nat × Nat)
  | 0, _, _ => none
  | n + 1, level, table =>
    let pa := table + 8 * vaIndex level va
    let e := s.rd64 pa
    if !tableOk table ∨ !leafV e then none
    else if leafT e then (if leafOk level e then some (pa, level) else none)
    else if level = 3 then none else leafAt s va n (level + 1) (entryNext e)

/-- A leaf with another frame and owner (R114, R242). -/
def leafMoved (e : Word) (frame : Nat) (owner : BitVec 12) : Word :=
  setField (setField e 16 (BitVec.ofNat 36 (frame / 2 ^ 16))) 52 owner

/-- Does a log record that is unshipped, saved, on its way or pending at a home lie in [pa, pa + n) (R242)? -/
def State.recordIn (s : State) (pa n : Nat) : Bool :=
  let hit (r : LogRec) : Bool := decide (pa ≤ r.pa.toNat) && decide (r.pa.toNat < pa + n)
  s.cores.any (fun e => e.2.log.recs.any hit || e.2.home.any (fun h => hit h.r)) || s.tenants.any (fun t => t.log.recs.any hit)
  || s.flight.any (fun f => match f.body with | .logRec h => hit h.r | _ => false)

/-- Is an access to [pa, pa + n) in flight (R124)? -/
def State.accessIn (s : State) (pa n : Nat) : Bool :=
  s.flight.any (fun f => match f.body.accessPa with | some a => decide (pa ≤ a) && decide (a < pa + n) | none => false)

/-- Copies n bytes of memory, with their poison, from one frame to another that does not meet it. -/
def State.moveBytes (s : State) (src dst n : Nat) : State :=
  let here (a : Nat) : Bool := decide (src ≤ a) && decide (a < src + n)
  let there (a : Nat) : Bool := decide (dst ≤ a) && decide (a < dst + n)
  let kept := s.mem.filter (fun c => !there c.1)
  { s with
    mem := (s.mem.filter (fun c => here c.1)).foldl (fun m c => Mem.write m (c.1 - src + dst) c.2) kept
    poison := s.poison.filter (fun l => !there (64 * l)) ++ (s.poison.filter (fun l => here (64 * l))).map (fun l => l + dst / 64 - src / 64) }

/-- Drops every translation of an address under a tag, with those of the walks and instruction lines (R122, R124). -/
def State.dropPage (s : State) (tag : BitVec 7) (va : Nat) : State :=
  let s := s.removeEntries { id := 0, core := 0, ctx := 0, gen := 0, kind := 2, tag := tag, va := va }
  s.removeLines { id := 0, core := 0, ctx := 0, gen := 0, kind := 5, tag := tag, va := va }

/-- What keeps a change of a placement point waiting: a half of its expert that is Filling or Closed, an access in flight to its page,
a core that is not retired (R242). -/
def State.placeWaits (s : State) (r : Nat) : PlaceChange → Bool
  | .replicas layer expert _ _ => s.expBusy r layer expert
  | .residence layer expert _ => s.expBusy r layer expert
  | .page va _ _ =>
    (match leafAt s va.toNat 4 0 (entryNext (s.region r).root) with
     | some (pa, level) => s.accessIn (leafFrame (s.rd64 pa)) (2 ^ pageBits level)
     | none => false)
  | .withdraw c => (s.core c).bin != .retired

/-- Is a frame in the slice of a core that is out of service, where firmware places no pages (R13)? -/
def State.retiredFrame (s : State) (frame : Nat) : Bool := decide (kindOf frame = 0) && (s.core (sliceCore frame)).oos

/-- Channels keep the place of their table entry when its page moves (R236). -/
def State.moveEntries (s : State) (old new n : Nat) : State :=
  { s with chans := s.chans.map (fun (e : Nat × Chan) =>
      (e.1, if old ≤ e.2.entry ∧ e.2.entry < old + n then { e.2 with entry := e.2.entry - old + new } else e.2)) }

/-- One change of a placement point (R242). A page moves only if `P` is set in its leaf, and, when it is logged, only without
outstanding records; a frame that is not one of its level's, or lies in a retired core's slice (R13), leaves the page where it is. -/
def State.placeOne (s : State) (r : Nat) : PlaceChange → State
  | .replicas layer expert nrep reps =>
    match s.expWord r layer expert 0 with
    | none => s
    | some a =>
      let s := s.wr64 a (setField (s.rd64 a) 15 nrep)
      (List.range 3).foldl (fun s j => match s.expWord r layer expert (j + 1) with
        | some b => s.wr64 b (setField (s.rd64 b) 0 (reps.getD j (field (s.rd64 b) 0 39)))
        | none => s) s
  | .residence layer expert res =>
    match s.expWord r layer expert 0 with
    | none => s
    | some a => s.wr64 a (setField (s.rd64 a) 14 (if res then 1#1 else 0#1))
  | .page va frame owner =>
    match leafAt s va.toNat 4 0 (entryNext (s.region r).root) with
    | none => s
    | some (pa, level) =>
      let e := s.rd64 pa
      let n := 2 ^ pageBits level
      let old := leafFrame e
      let new := frame.toNat / n * n
      let e' := leafMoved e new owner
      if !leafP e ∨ (leafL e && s.recordIn old n) = true ∨ !leafOk level e' ∨ (new ≠ old ∧ s.retiredFrame new) then s
      else
        let s := if new = old then s else (s.moveBytes old new n).moveEntries old new n
        (s.wr64 pa e').dropPage (s.tagOf r) va.toNat
  | .withdraw c => s.modRegion r (fun g => { g with noShare := if g.noShare.contains c then g.noShare else c :: g.noShare })

/-- Wakes a region's continuations that have parked at its placement point (R242), those of saved wait lists too (R197). -/
def State.endPlacement (s : State) (r : Nat) : State :=
  let here (w : WaitEntry) : Bool := decide (w.cont.rcd.region.toNat = r) && (match w.cond with | .place => true | _ => false)
  let woken : List (Nat × Cont) := (s.cores.map (fun (e : Nat × Core) => (e.2.waits.filter here).map (fun w => (e.1, w.cont)))).flatten
  let s := { s with
    cores := s.cores.map (fun (e : Nat × Core) => (e.1, { e.2 with waits := e.2.waits.filter (fun w => !here w) }))
    tenants := s.tenants.map (fun (t : SavedTenant) => { t with
      waits := t.waits.filter (fun w => !here w)
      queue := t.queue ++ (t.waits.filter here).map (fun (w : WaitEntry) => { w.cont with wake := .placed }) }) }
  (woken.foldl (fun (s : State) w => s.wake w.1 w.2 .placed) s).modRegion r (fun g => { g with placed := 0 })

/-- PLACEMENT_APPLY (R242): a region has reached its placement point, and nothing keeps the changes waiting. -/
def tryPlacementApply (r : Nat) (chg : List PlaceChange) (s : State) : Option State :=
  let g := s.region r
  if g.pq = 0 ∨ g.placed < g.pq.toNat ∨ chg.any (s.placeWaits r) then none
  else some ((chg.foldl (fun s c => s.placeOne r c) s).endPlacement r)

/-! ### Meanings -/

/-- DEADLOCK_DETECT (R207). -/
def execDeadlockDetect (region : Nat) (s : State) : Out := runEvent (tryDeadlockDetect region) s

/-- PLACEMENT_APPLY (R242). -/
def execPlacementApply (region : Nat) (chg : List PlaceChange) (s : State) : Out := runEvent (tryPlacementApply region chg) s

end Sys2Proof.Machine
end

