-- ==== Sys2Proof/Machine/PairRun.lean ====
section
/-! DEFINITION. Coelostat pairing: compare points, agreement, rollback, the third run and its outcomes (R172, R434 to R441). -/

namespace Sys2Proof.Machine

/-- An agreement publishes the held records of context t as far as releases allow (R155, R172, R435). -/
def Log.agree (l : Log) (t : Nat) : Log :=
  ({ l with recs := l.recs.map (fun r => if r.ctx.toNat = t then { r with held := false } else r) } : Log).advance

/-- The fingerprints of a twin are complete: it waits, and no result is left to fold (R435). -/
def Pair.ready (p : Pair) : Bool := p.waiting && !p.agreed && p.foldq.isEmpty

/-- Every matrix operation that the context issued has finished its epilogue (R435). -/
def State.matrixDone (s : State) (c t : Nat) : Bool :=
  let k := s.core c
  let gen := some (s.ctx c t).gen
  !k.mat.any (fun o => decide (o.ctx = t) && o.gen == gen && !o.failed)
  && !k.epi.any (fun e => decide (e.ctx = t) && e.gen == gen && !e.reserved)

/-- A context takes the checkpoint back (R437, R438): the checkpoint's frame, no results awaited, and values from the replay buffer
again. -/
def State.takeCheckpoint (s : State) (c t : Nat) (img : List Word) (p : Pair) : State :=
  let s := s.modCtx c t (fun k =>
    { (k.ofImage img (prvOf c t)) with
      mode := .running, latSeq := k.latSeq + 1, fbuf := .empty, tlb := .none, acq := none, ownLine := none, wake := .none
      realign := none, realigned := false, stop := none, inv := none, loaded := []
      pair := some { p with fp := 0, efp := 0, count := 0, foldq := [], taken := p.ckBase, waiting := false, agreed := false } })
  s.wantLine c t

/-- The window tiles take back what they held at the checkpoint, in both cores (R436, R437). -/
def State.restoreTiles (s : State) (c : Nat) (p : Pair) : State :=
  let back (k : Core) : Core := p.shadow.foldl (fun k (e : Nat × List (BitVec 32)) => k.setTile e.1 e.2) k
  (s.modCore c back).modCore p.twinCore back

/-- `RollBack` (R437): held records are void, both contexts take the checkpoint back, and a run of the given phase begins. -/
def State.rollBack (s : State) (c t phase : Nat) : State :=
  match (s.ctx c t).pair with
  | none => s
  | some p =>
    match (s.ctx p.twinCore p.twinCtx).pair with
    | none => s
    | some q =>
      let s := (s.modCore c (fun k => { k with log := k.log.voidHeld t })).restoreTiles c p
      let s := s.takeCheckpoint c t p.ckpt { p with phase := phase, tie := none, shadow := [] }
      s.takeCheckpoint p.twinCore p.twinCtx p.ckpt { q with phase := phase, ckBase := p.ckBase }

/-- Adds to the life counters of a buddy pair (R278). -/
def State.lifeDiverge (s : State) (c : Nat) (resolved : Bool) : State :=
  let e := s.lifePair.getD (c / 2) (0, 0)
  let up (n : Nat) : Nat := Nat.min (n + 1) (2 ^ 32 - 1)
  { s with lifePair := s.lifePair.set (c / 2) (if resolved then (up e.1, e.2) else (e.1, up e.2)) }

/-- A Chronograph record of a divergence, with the written range of R441. -/
def State.chroniclePair (s : State) (kind c t : Nat) (p : Pair) (det : Nat) : State :=
  let range := p.wrote.getD (0, 0)
  s.chronicle kind c 0 5 (s.ctx c t).region.toNat range.1 (BitVec.ofNat 64 det) (BitVec.ofNat 64 range.2)

/-- The twins agree (R435): held records are published, and the waiting bundle issues next. -/
def State.agreement (s : State) (c t : Nat) (p : Pair) : State :=
  let yes (p : Pair) : Pair := { p with agreed := true, phase := 0, tie := none }
  ((s.modCore c (fun k => { k with log := k.log.agree t })).modPair c t yes).modPair p.twinCore p.twinCtx yes

/-- The core and context that break a tie (R438). -/
def State.tieBreaker (s : State) (c r : Nat) (tiles : Word) : Option (Nat × Nat) :=
  let ok (x : Nat) : Bool := decide (x / 2 ≠ c / 2) && (s.idleWorker x r tiles).isSome
  let pick (o : Option Nat) : Option (Nat × Nat) := o.bind (fun x => (s.idleWorker x r tiles).map (fun t => (x, t)))
  match ((List.range 8).map (· + c / 8 * 8)).find? ok with
  | some x => pick (some x)
  | none => pick (minBy (fun x => meshHops (clusterOf x) (clusterOf c)) (((List.range 512).map (· + dieOf c * 512)).filter ok))

/-- Cause pair-unresolved (R439): the checkpoint's frame with `STOP` 0x14, held records void, the other contexts idle, the cores
marginal. -/
def State.unresolved (s : State) (c t : Nat) (p : Pair) : State :=
  let tie := match p.tie with | some x => x.1 | none => 0xFFF
  let s := (s.chroniclePair 0x0A c t p (tie + 2 ^ 12 * p.twinCore)).lifeDiverge c false
  let s := (s.modCore c (fun k => { k with log := k.log.voidHeld t })).restoreTiles c p
  let s := (s.takeCheckpoint c t p.ckpt p).dropTwin c t
  let s := match p.tie with
    | some x => ((s.modCtx x.1 x.2 (fun k => { k with pair := none })).freeCtx x.1 x.2).mark x.1
    | none => s
  let s := (s.mark c).mark p.twinCore
  let pc := (s.ctx c t).pc
  s.takeTrapAt c t cPairUnresolved 0 (BitVec.ofNat 64 tie) pc pc

/-- Starts the third run (R438): the tie-breaker runs the interval from the checkpoint as a secondary would, while both twins wait; with
no core to break the tie the pair is unresolved. -/
def State.thirdRun (s : State) (c t : Nat) (p : Pair) : State :=
  match s.tieBreaker c (s.ctx c t).region.toNat (s.ctx c t).tiles with
  | none => s.unresolved c t { p with tie := none }
  | some (tc, tt) =>
    let s := s.modCtx tc tt (fun k => { k with region := (s.ctx c t).region, gen := k.gen + 1 })
    let q : Pair := { twinCore := c, twinCtx := t, primary := false, phase := 2, ckBase := p.ckBase }
    let s := (s.copyTiles c tc (s.ctx c t).tiles p.shadow).takeCheckpoint tc tt p.ckpt q
    (s.modPair c t (fun p => { p with phase := 2, tie := some (tc, tt) })).modPair p.twinCore p.twinCtx (fun q => { q with phase := 2 })

/-- COMPARE_POINT (R435, R437): both twins have reached the compare point, and exchange both fingerprints. -/
def tryComparePoint (c t : Nat) (s : State) : Option State :=
  match (s.ctx c t).pair with
  | none => none
  | some p =>
    match (s.ctx p.twinCore p.twinCtx).pair with
    | none => none
    | some q =>
      if !p.primary ∨ p.phase = 2 ∨ !p.ready ∨ !q.ready ∨ !s.matrixDone c t then none
      else if p.fp = q.fp ∧ p.efp = q.efp then
        let s := s.agreement c t p
        some (if p.phase = 1 then
            ((s.chroniclePair 0x08 c t p (p.twinCore + 2 ^ 12 * t)).lifeDiverge c true).notifyEvent c cPairDiverge (BitVec.ofNat 4 t)
              0 (fun o => match o with | some v => v + 1 | none => 1)
          else s)
      else if p.phase = 0 then some (s.rollBack c t 1)
      else some (s.thirdRun c t p)

/-- The primary core has been outvoted (R438): the secondary's context becomes the primary from the checkpoint, and the tie-breaker its
secondary. -/
def State.swapPrimary (s : State) (c t : Nat) (p q : Pair) (tc tt : Nat) : State :=
  let s := (s.modCore c (fun k => { k with log := k.log.voidHeld t })).restoreTiles c p
  let s := s.copyTiles c p.twinCore (s.ctx c t).tiles []
  let nc := p.twinCore
  let nt := p.twinCtx
  let new : Pair := { p with
    twinCore := tc, twinCtx := tt, primary := true, phase := 3, tie := none, ckTail := (s.core nc).log.tail, wrote := none, shadow := []
    ckOp := (s.core nc).nextId }
  let s := s.takeCheckpoint nc nt p.ckpt new
  let s := s.takeCheckpoint tc tt p.ckpt { q with twinCore := nc, twinCtx := nt, primary := false, phase := 3, ckBase := p.ckBase, tie := none }
  (s.modCtx c t (fun k => { k with pair := none })).freeCtx c t

/-- TIE_BREAK_RESULT (R438): the third run has reached the compare point. -/
def tryTieBreakResult (c t : Nat) (s : State) : Option State :=
  match (s.ctx c t).pair with
  | none => none
  | some p =>
    match p.tie, (s.ctx p.twinCore p.twinCtx).pair with
    | some (tc, tt), some q =>
      (match (s.ctx tc tt).pair with
       | none => none
       | some x =>
         if !p.primary ∨ p.phase ≠ 2 ∨ !x.ready then none
         else
           let same (a : Pair) : Bool := a.fp == x.fp && a.efp == x.efp
           let broken (out : Nat) : State := ((s.chroniclePair 0x09 c t p (tc + 2 ^ 12 * out)).lifeDiverge c true).mark out
           if same p then
             let s := broken p.twinCore
             let s := (s.modCtx p.twinCore p.twinCtx (fun k => { k with pair := none })).freeCtx p.twinCore p.twinCtx
             some ((s.modPair c t (fun p => { p with twinCore := tc, twinCtx := tt })).rollBack c t 3)
           else if same q then some ((broken c).swapPrimary c t p q tc tt)
           else some (s.unresolved c t p))
    | _, _ => none

/-! ### Meanings -/

/-- COMPARE_POINT (R435). -/
def execComparePoint (core : Nat) (ctx : Nat) (s : State) : Out := runEvent (tryComparePoint core ctx) s

/-- TIE_BREAK_RESULT (R438). -/
def execTieBreakResult (core : Nat) (ctx : Nat) (s : State) : Out := runEvent (tryTieBreakResult core ctx) s

end Sys2Proof.Machine
end

