-- ==== Sys2Proof/Machine/Platform.lean ====
section
/-! DEFINITION. What firmware, the links and the host do to the package: bring-up, links, power, device control writes, the PF's own
commands, hand-over, operating bins (R99, R138, R275, R278, R444, R449 to R469). -/

namespace Sys2Proof.Machine

/-! ### Bring-up (R465, R468) -/

/-- `Extend` (R465), on the digest of an image: bytes in ascending significance (R5). -/
def extendMeas (m digest : BitVec 256) : BitVec 256 :=
  BitVec.ofNat 256 (ofBytes (Shake.shake256 (toBytes 32 m.toNat ++ toBytes 32 digest.toNat) 32))

/-- `meas` after boot: the management, scheduler and fabric images, in that order (R465). -/
def bootMeas : BitVec 256 := [0, 1, 2].foldl (fun m b => extendMeas m (Config.bootDigest b)) 0

/-- POWER_ON (R468): package reset and bring-up. Module flash keeps the Chronograph, the life counters, the attestation leaf and the
firmware images; the part keeps the operating bins of its cores (R444, R445, R467, R469). -/
def State.powerOn (s : State) : State :=
  { State.reset with
    cores := (s.cores.filter (fun (e : Nat × Core) => e.2.bin != .nominal || e.2.suspect.isSome)).map (fun (e : Nat × Core) =>
      (e.1, { Core.reset e.1 with bin := e.2.bin, suspect := e.2.suspect, oos := e.2.bin == .retired }))
    bodies := s.bodies.map (fun (e : Nat × FwBody) =>
      (e.1, { slot := e.2.slot, otherVersion := e.2.otherVersion, version := e.2.version, minVersion := e.2.minVersion }))
    meas := bootMeas, leaf := s.leaf, chrono := s.chrono, chLeftOut := s.chLeftOut, lifeCorr := s.lifeCorr, lifeTemp := s.lifeTemp
    lifeBin := s.lifeBin, lifePair := s.lifePair, powered := s.poweredTime, agenda := s.agenda, steps := s.steps + 1 }

/-! ### Links (R138, R449, R458, R459) -/

/-- HOST_LINK_TRAIN (R449, R450): PCI Express 5.0 to 7.0 at x4, x8 or x16; CXL 2.0, 3.1 or 3.2 (20, 31, 32). -/
def tryHostLinkTrain (gen width cxlVer : Nat) (cache : Bool) (s : State) : Option State :=
  if (gen = 5 ∨ gen = 6 ∨ gen = 7) ∧ (width = 4 ∨ width = 8 ∨ width = 16) ∧ (cxlVer = 20 ∨ cxlVer = 31 ∨ cxlVer = 32) then
    some { s with link := { up := true, gen := gen, width := width, cxlVer := cxlVer, cache := cache } }
  else none

/-- Where and at which address a load in flight of host memory performs. -/
def Flight.hostLoad (f : Flight) : Option (Dest × Nat) :=
  match f.body with
  | .load t isV reg _ _ pa latch _ _ _ => if kindOf pa = 2 then some (f.dest t isV reg latch, pa) else none
  | .planed t reg _ _ _ pa latch _ => if kindOf pa = 2 then some (f.dest t true reg latch, pa) else none
  | _ => none

/-- HOST_LINK_DOWN (R138): loads in flight complete as consumed poisoned lines, and buffered lines are lost, each with a record.
Direct stores in flight stay in flight (DEDUCED, log 109). -/
def tryHostLinkDown (s : State) : Option State :=
  if s.link.up = false then none else
  let lost := s.flight.filter (fun f => f.hostLoad.isSome)
  let s := { s with flight := s.flight.filter (fun f => f.hostLoad.isNone), link := { s.link with up := false } }
  let s := lost.foldl (fun s f => match f.hostLoad with
    | some (d, pa) => s.deliverPoison d f.pc f.slot (pa / 64 * 64)
    | none => s) s
  let s := s.hostBuf.foldl (fun s h => s.chronicle 0x06 (h.2.2.headD 4096) 0 3 0 (64 * h.1) 0 0) s
  some { s with hostBuf := [] }

/-- GOMOND_PORT_TRAIN (R458): a port trains at generation 1 or 2. -/
def tryGomondPortTrain (port gen : Nat) (s : State) : Option State :=
  if port < 36 ∧ (gen = 1 ∨ gen = 2) then some { s with ports := s.ports.set port { gen := gen } } else none

/-- GOMOND_PORT_DOWN (R458). -/
def tryGomondPortDown (port : Nat) (s : State) : Option State :=
  if port < 36 ∧ (s.ports.getD port {}).gen ≠ 0 then some { s with ports := s.ports.set port {} } else none

/-- CHANNEL_ROUTE_LOSS (R215, R459): the receive endpoint of a channel, on another package, has had no route for 1 ms. -/
def tryChannelRouteLoss (region ch : Nat) (s : State) : Option State :=
  let key := chanKey region ch
  match s.chans.get? key with
  | none => none
  | some x => if x.live ∧ x.rpkg ≠ s.pkg.toNat then some (s.chanError key) else none

/-! ### Power, temperature and time (R275, R278, R469) -/

/-- THERMAL_THROTTLE (R469): firmware stops or starts the clocks of a cluster. -/
def tryThermalThrottle (cluster : Nat) (stop : Bool) (s : State) : Option State :=
  if cluster < 512 then some (s.modCluster cluster (fun k => { k with stopped := stop })) else none

/-- THERMAL_SHUTDOWN (R469): the host event has been written, and the package shuts down; `NUM` is the die (DESIGN CHOICE, log 23). -/
def tryThermalShutdown (die : Nat) (s : State) : Option State :=
  if 8 ≤ die ∨ s.flight.any (fun f => f.dst == dstQueue hostQueueNo) then none
  else (s.postHost (BitVec.ofNat 64 (0x13 * 2 ^ 48 + die)) 0 0 (BitVec.ofNat 64 s.time)).map (fun s => { s with shut := true })

/-- Has a second passed since the last temperature count of a die (R278)? -/
def State.sampleDue (s : State) (die : Nat) : Bool :=
  match s.tempAt.get? die with
  | some t => decide (t + 1000000000 ≤ s.time)
  | none => true

/-- TEMPERATURE_SAMPLE (R278): once in a second, one count in the 5 C bin of a die; readings above the last bin count in it. -/
def tryTemperatureSample (die celsius : Nat) (s : State) : Option State :=
  if 8 ≤ die ∨ s.sampleDue die = false then none
  else some { s with lifeTemp := lifeAdd s.lifeTemp (25 * die + Nat.min (celsius / 5) 24), tempAt := s.tempAt.set die s.time }

/-- TIME_RATE_ADJUST (R275, R461): at most 200 ppm either way; a hand-over of the fabric body holds the last adjustment. -/
def tryTimeRateAdjust (ppm : Int) (s : State) : Option State :=
  if ppm.natAbs ≤ 200 ∧ (s.body 2).probation = none then some { s with ppm := ppm } else none

/-! ### Device control writes (R109, R142 to R148, R193, R271, R448, R451) -/

/-- The region scheduler gives a cluster's cell window to a tenant, and zeroes its cells (R271). -/
def State.writeCellWindow (s : State) (k : Nat) (v : Word) : State :=
  let w := v &&& 0xFE1FFFFF#64
  let inside (n : Nat) : Bool := decide (bitsN w 0 10 ≤ n) && decide (n < bitsN w 0 10 + bitsN w 10 11)
  s.modCluster k (fun q => { q with window := w, cells := q.cells.filter (fun (e : Nat × Word) => !inside e.1) })

/-- The regions of a tenant are translated under its root word (R109). -/
def State.tenantWord (s : State) (w : Word) : State :=
  let tag : BitVec 7 := field w 0 7
  { s with regions := s.regions.map (fun (e : Nat × Region) => if e.1 ≠ 0 ∧ e.2.tag = tag ∧ tag ≠ 0 then (e.1, { e.2 with root := w }) else e) }

/-- Does a tag belong to a live tenant (R110)? -/
def State.liveTag (s : State) (tag : BitVec 7) : Bool :=
  s.regions.any (fun e => decide (e.2.parent = some 0) && !e.2.dead && e.2.tag == tag)

/-- The root region of a tenant, the region of its context 0 (log 99). -/
def State.tenantRoot (s : State) (tag : BitVec 7) : Nat :=
  match s.regions.find? (fun e => decide (e.2.parent = some 0) && !e.2.dead && e.2.tag == tag) with
  | some e => e.1
  | none => 0

/-- A tenant first receives a core that holds none: tables and counters stand at their first values (R249, R250, R262, R277), and its
context 0 starts (DESIGN CHOICE, log 22). -/
def State.firstTenant (s : State) (c : Nat) (w : Word) : State :=
  let s := s.writeRoot c w
  let x := s.ctx c 0
  (s.setCtx c 0 { (Ctx.reset c 0) with
    region := BitVec.ofNat 24 (s.tenantRoot (field w 0 7)), gen := x.gen + 1, regErr := x.regErr }).wantLine c 0

/-- The former tenant goes: a live one with all that belongs to it, while of one that has ended nothing is kept (R171, R262). -/
def State.sendAway (s : State) (c : Nat) : State :=
  let tag := (s.core c).tag
  if tag = 0 then s else if s.liveTag tag then s.leave c else s.vacate c

/-- A tenant receives a core that holds none: it returns to one where it has left state, and else receives it first (R171, R211, R262);
none while its reservoirs are not free. A word with tag 0 gives the core to no tenant. -/
def State.receiveCore (s : State) (c : Nat) (w : Word) : Option State :=
  if field w 0 7 = (0 : BitVec 7) then some (s.writeRoot c w) else
  match findIdx (fun t => decide (t.core = c) && t.tag == field w 0 7) s.tenants with
  | none => some (s.firstTenant c w)
  | some i => (s.tenants[i]?).bind (fun t =>
      if s.resvRoom t then some ({ s with tenants := listDel s.tenants i }.comeBack c t w) else none)

/-- TRANSLATION_ROOT_WRITE (R109, R171, R211, R262): the region scheduler assigns a core to a tenant, whose regions are translated under
the same word. It changes the tenant only when nothing of the former one's work is left there. -/
def tryTranslationRootWrite (c : Nat) (v : Word) (s : State) : Option State :=
  let w := rootBits v
  let tag := (s.core c).tag
  if 4096 ≤ c then none
  else if tag = field w 0 7 then some ((s.writeRoot c w).tenantWord w)
  else if tag ≠ 0 ∧ s.emptied c = false then none
  else (((s.sendAway c).tenantWord w).receiveCore c w)

/-- REGISTER_WRITE (R6, R451): firmware or the host writes a word of device control space; the cell window and the translation root
words are the scheduler's (R109, R271). -/
def tryRegisterWrite (off : BitVec 48) (v : Word) (s : State) : Option State :=
  let o := off.toNat
  if o % 8 ≠ 0 then none
  else if o < 0x4000000 ∧ o % 0x4000 = 0 then tryTranslationRootWrite (o / 0x4000) v s
  else if o < 0x4000000 ∧ o % 0x4000 = 0x600 ∧ o / 0x4000 % 8 = 0 then some (s.writeCellWindow (o / 0x4000 / 8) v)
  else s.devWrite o v

/-- RING_DESCRIPTOR_WRITE (R143): it waits while an operation names the ring. -/
def tryRingDescriptorWrite (c r : Nat) (v : Word) (s : State) : Option State := if c < 4096 ∧ r < 32 then s.writeRing c r v else none

/-- LOG_DESCRIPTOR_WRITE (R147). -/
def tryLogDescriptorWrite (c : Nat) (v : Word) (s : State) : Option State := if c < 4096 then some (s.writeLogDesc c v) else none

/-- LOG_SPILL_DESCRIPTOR_WRITE (R148). -/
def tryLogSpillDescriptorWrite (c : Nat) (v : Word) (s : State) : Option State := if c < 4096 then some (s.writeLogSpill c v) else none

/-- ARRIVAL_SPILL_DESCRIPTOR_WRITE (R193): it waits while records lie in the ring. -/
def tryArrivalSpillDescriptorWrite (c : Nat) (v : Word) (s : State) : Option State := if c < 4096 then s.writeArrivalSpill c v else none

/-- MHB_WRITE (R464, R466): a `crw` of `mhb` on a service core. -/
def tryMhbWrite (svc ctx : Nat) (v : Word) (s : State) : Option State :=
  if svc < 8 ∧ ctx < 16 then some (s.beat (4096 + svc) ctx v) else none

/-- CHRONOGRAPH_REQUEST (R448). -/
def tryChronographRequest (c : Nat) (seq : Word) (s : State) : Option State :=
  if c < 4096 then some (s.chronRequest c seq) else none

/-- HOST_LAUNCH_POST (R453, R454): the host writes word 0 of a function's launch record. -/
def tryHostLaunchPost (fn : Nat) (w0 : Word) (s : State) : Option State :=
  if fn < 128 ∧ s.link.up then some (s.postLaunch fn w0) else none

/-! ### The PF's own commands (R456, R457, R462, R463, R467) -/

/-- Host memory at a host physical address (R111). -/
def hostPa (a : Nat) : Nat := 2 * 2 ^ 48 + a % 2 ^ 48

/-- Word j of a command. -/
def RgCmd.w (q : RgCmd) (j : Nat) : Word := q.words.getD j 0

/-- Words of a command that must be zero (R457). -/
def RgCmd.zero (q : RgCmd) (l : List Nat) : Bool := l.all (fun j => decide (q.w j = 0))

/-- ATTESTATION_QUOTE (R467): `OP` 7. The next leaf is written to module flash before the signature is released. -/
def tryAttestationQuote (s : State) : Option State :=
  match s.nextCmd true with
  | none => none
  | some (i, q) =>
    if q.op ≠ 7 then none
    else if bitsN (q.w 5) 52 12 ≠ 0 ∨ bitsN (q.w 5) 0 6 ≠ 0 then some (s.answer i q 3 0)
    else if 2 ^ 20 ≤ s.leaf then some (s.answer i q 5 0)
    else
      let n := s.leaf
      let nonce := ((List.range 4).map (fun j => toBytes 8 (q.w (j + 1)).toNat)).flatten
      let msg := toBytes 8 identityWord.toNat ++ toBytes 8 s.pkg.toNat ++ toBytes 32 s.meas.toNat ++ nonce ++ toBytes 8 n
      let sig := (List.range 2820).map (fun j => (Config.attestationSignature n msg).getD j 0)
      let s := ({ s with leaf := n + 1 } : State).wrBytes (hostPa (bitsN (q.w 5) 0 52)) (msg ++ sig)
      some (s.answer i q 0 0)

/-- HOST_EVENT_QUEUE_SETUP (R456): `OP` 9; later records go to the new ring from its head. -/
def tryHostEventQueueSetup (s : State) : Option State :=
  match s.nextCmd true with
  | none => none
  | some (i, q) =>
    if q.op ≠ 9 then none
    else
      let a := bitsN (q.w 1) 0 52
      let n := (q.w 2).toNat
      if bitsN (q.w 1) 52 12 ≠ 0 ∨ a % 32 ≠ 0 ∨ n < 4 ∨ 16 < n ∨ q.zero [3, 4, 5] = false then some (s.answer i q 3 0)
      else some (({ s with hostq := some { base := hostPa a, n := n, tail := (s.rd64 (hostPa a)).toNat } } : State).answer i q 0 0)

/-- STAGE_IMAGE_PART (R462): `OP` 10 copies a part into the staging area. -/
def tryStageImagePart (s : State) : Option State :=
  match s.nextCmd true with
  | none => none
  | some (i, q) =>
    if q.op ≠ 10 then none
    else
      let len := (q.w 2).toNat
      let off := (q.w 3).toNat
      if bitsN (q.w 1) 52 12 ≠ 0 ∨ 2 ^ 32 ≤ len ∨ 2 ^ 32 ≤ off ∨ len % 64 ≠ 0 ∨ off % 64 ≠ 0 ∨ 2 ^ 26 < off + len ∨ q.zero [4, 5] = false
      then some (s.answer i q 3 0)
      else
        let a := hostPa (bitsN (q.w 1) 0 52)
        let put (t : Tab Byte) (j : Nat) : Tab Byte := t.set (off + j) (Mem.read s.mem (a + j))
        some (({ s with staging := (List.range len).foldl put s.staging } : State).answer i q 0 0)

/-- Service cores of a body (R15). -/
def coresOfBody : Nat → List Nat
  | 0 => [4096]
  | 1 => [4097, 4098]
  | 2 => [4099, 4100, 4101, 4102, 4103]
  | _ => []

/-- The spare context of a service core: the highest that is off, else context 15 (DESIGN CHOICE, log 23). -/
def State.spareCtx (s : State) (c : Nat) : Nat := ((List.range 16).reverse.find? (fun t => (s.ctx c t).mode == .off)).getD 15

/-- A new image starts on a spare context of each service core of its body (R463). -/
def State.startImage (s : State) (b : Nat) (image : List Byte) : State :=
  (coresOfBody b).foldl (fun s c =>
    let t := s.spareCtx c
    (s.modCtx c t (fun k => { (Ctx.reset c t) with
      mode := .running, newImage := true, pc := Config.imageStart image, gen := k.gen + 1, regErr := k.regErr })).wantLine c t) s

/-- A running image is marked as the body's, or the new image's contexts are freed (R463, R464). -/
def State.endImages (s : State) (b : Nat) (commit : Bool) : State :=
  (coresOfBody b).foldl (fun s c => (List.range 16).foldl (fun s t =>
    s.modCtx c t (fun k =>
      if k.newImage = commit then { k with newImage := false }
      else { (Ctx.reset c t) with mode := .off, gen := k.gen + 1, regErr := k.regErr })) s) s

/-- HAND_OVER (R462, R463): `OP` 8 verifies the staged image; a refused one changes nothing, one that cannot import the state falls
back at once, and a verified one starts its probation. A body in probation takes no other image until it ends. -/
def tryHandOver (s : State) : Option State :=
  match s.nextCmd true with
  | none => none
  | some (i, q) =>
    if q.op ≠ 8 then none
    else
      let b := (q.w 1).toNat
      if 2 < b ∨ q.zero [2, 3, 4, 5] = false then some (s.answer i q 3 0)
      else if (s.body b).probation.isSome then none
      else
        let image := s.staging.map (fun (e : Nat × Byte) => e.2)
        let ok := Config.vendorSignatureOk image && decide (Config.imageBody image = b)
          && decide ((s.body b).minVersion.toNat ≤ (Config.imageVersion image).toNat)
        let s := s.answer i q 0 0
        if !ok then some (s.hostEvent 0x12 6 b 0)
        else if !Config.imageImports image then some (s.hostEvent 0x12 5 b 0)
        else
          let digest := BitVec.ofNat 256 (ofBytes (Shake.shake256 image 32))
          some ((s.startImage b image).modBody b (fun f => { f with
            probation := some (s.time, Config.imageVersion image, digest), failed := false
            beats := (coresOfBody b).foldl (fun t c => Tab.set t (c - 4096) s.time) f.beats }))

/-! ### Probation, fall-back, restart (R99, R463 to R465) -/

/-- Length of a heartbeat slot in nanoseconds (R464). -/
def beatSlot : Nat := 100000

/-- Some service core of a body has missed three consecutive slots (R464), counted from the power-on before its first beat. -/
def State.missed (s : State) (b : Nat) : Bool :=
  (coresOfBody b).any (fun c => decide ((s.body b).beats.getD (c - 4096) Config.timeStart / beatSlot + 4 ≤ s.time / beatSlot))

/-- Does a body boot: some service core of its image has not beaten yet (R464)? -/
def State.booting (s : State) (b : Nat) : Bool := (coresOfBody b).any (fun c => ((s.body b).beats.get? (c - 4096)).isNone)

/-- PROBATION_COMMIT (R463, R465): after 50 ms without a fall-back the new image is the body's; `meas` is extended, and the queues of
all tenants' root regions and of the host learn of it. -/
def tryProbationCommit (b : Nat) (s : State) : Option State :=
  match (s.body b).probation with
  | none => none
  | some (start, version, digest) =>
    if s.time < start + 50000000 ∨ s.missed b ∨ (s.body b).failed then none
    else
      let s := { s with meas := extendMeas s.meas digest }
      let s := (s.endImages b true).modBody b (fun f =>
        { f with slot := ~~~f.slot, otherVersion := f.version, version := version, probation := none })
      let roots := (s.regions.filter (fun (e : Nat × Region) => decide (e.2.parent = some 0) && !e.2.dead)).map (·.1)
      let s := roots.foldl (fun s r => s.postRecord 4096 r 7 0 b version.toNat (s.meas.setWidth 64) 0 0 0) s
      some (s.hostEvent 0x12 0 b 0)

/-- HEARTBEAT_FALLBACK (R464): three missed slots, or a fault of the new image, restore the old image; `meas` stays. -/
def tryHeartbeatFallback (b : Nat) (s : State) : Option State :=
  match (s.body b).probation with
  | none => none
  | some _ =>
    if s.missed b ∨ (s.body b).failed then
      some (((s.endImages b false).modBody b (fun f => { f with probation := none, failed := false })).hostEvent 0x12 5 b 0)
    else none

/-- BODY_RESTART (R99, R464): a body that has failed, or that boots, and has missed three slots is restarted from its other flash slot,
and the host learns of it. -/
def tryBodyRestart (b : Nat) (s : State) : Option State :=
  let f := s.body b
  if 2 < b ∨ (!f.failed ∧ !s.booting b) ∨ f.probation.isSome ∨ !s.missed b then none
  else
    let s := (coresOfBody b).foldl (fun s c => (List.range 16).foldl (fun s t =>
      (s.modCtx c t (fun k => { (Ctx.reset c t) with gen := k.gen + 1, regErr := k.regErr })).wantLine c t) s) s
    let s := s.modBody b (fun f => { f with
      slot := ~~~f.slot, version := f.otherVersion, otherVersion := f.version, failed := false
      beats := (coresOfBody b).foldl (fun t c => Tab.set t (c - 4096) s.time) f.beats })
    some (s.hostEvent 0x12 5 b 0)

/-! ### Operating bins (R444) -/

/-- Number of a bin in a Chronograph record (R447). -/
def Bin.num : Bin → Nat
  | .nominal => 0
  | .vPlus => 1
  | .cMinus => 2
  | .retired => 3

/-- The operating-bin history gets a record of 64 bytes for a move or a readmission of core c (R278; its words are a DESIGN CHOICE, log
102): core, time, old bin, new bin, 1 for a readmission. -/
def State.binRecord (s : State) (c : Nat) (old new : Bin) (back : Bool) : State :=
  let n (x : Nat) : Word := BitVec.ofNat 64 x
  { s with lifeBin := s.lifeBin ++ [#v[n c, n s.time, n old.num, n new.num, n back.toNat, 0, 0, 0]] }

/-- BIN_MOVE (R444): the tenant has left the core, which goes out of service in its new bin, or retires. -/
def tryBinMove (c : Nat) (s : State) : Option State :=
  let k := s.core c
  match k.binNext with
  | none => none
  | some b =>
    if 4096 ≤ c ∨ bit k.root 63 ∨ ((List.range 16).drop 1).any (fun t => (s.ctx c t).occupied) ∨ !k.mat.isEmpty ∨ !k.epi.isEmpty then none
    else
      let s := s.modCore c (fun k => { k with bin := b, binNext := none, oos := true })
      let s := s.binRecord c k.bin b false
      some (if b = .retired then s.chronicle 0x0C c 0 6 0 0 1 0
        else s.chronicle 0x0B c 0 6 0 0 (BitVec.ofNat 64 (k.bin.num + 16 * b.num)) 0)

/-- SELF_TEST_RESULT (R444): a core that passes is readmitted in its bin, and one that fails is retired. -/
def trySelfTestResult (c : Nat) (pass : Bool) (unit : Word) (s : State) : Option State :=
  let k := s.core c
  if 4096 ≤ c ∨ !k.oos ∨ k.bin = .retired then none
  else
    let b := if pass then k.bin else .retired
    let s := s.modCore c (fun k => { k with bin := b, oos := !pass })
    let s := s.binRecord c k.bin b pass
    some (s.chronicle 0x0C c 0 6 0 0 (if pass then 0 else 1) (if pass then 0 else unit))

/-- BIN_RECOVERY (R444): after 30 days without an event firmware moves the core back one bin. -/
def tryBinRecovery (c : Nat) (s : State) : Option State :=
  let k := s.core c
  match k.suspect with
  | none => none
  | some t =>
    let up : Option Bin := match k.bin with | .vPlus => some .nominal | .cMinus => some .vPlus | .nominal => none | .retired => none
    if s.time < t + days30 ∨ k.binNext.isSome ∨ k.oos ∨ up.isNone then none
    else some (s.modCore c (fun k => { k with binNext := up, suspect := some s.time }))

/-! ### Meanings -/

/-- POWER_ON (R468): also a package that has shut down starts again. -/
def execPowerOn (s : State) : Out := .next s.powerOn

/-- HOST_LINK_TRAIN (R449). -/
def execHostLinkTrain (gen : Nat) (width : Nat) (cxlVer : Nat) (cache : Bool) (s : State) : Out := runEvent (tryHostLinkTrain gen width cxlVer cache) s

/-- HOST_LINK_DOWN (R138). -/
def execHostLinkDown (s : State) : Out := runEvent (tryHostLinkDown) s

/-- GOMOND_PORT_TRAIN (R458). -/
def execGomondPortTrain (port : Nat) (gen : Nat) (s : State) : Out := runEvent (tryGomondPortTrain port gen) s

/-- GOMOND_PORT_DOWN (R458). -/
def execGomondPortDown (port : Nat) (s : State) : Out := runEvent (tryGomondPortDown port) s

/-- CHANNEL_ROUTE_LOSS (R459). -/
def execChannelRouteLoss (region : Nat) (ch : Nat) (s : State) : Out := runEvent (tryChannelRouteLoss region ch) s

/-- THERMAL_THROTTLE (R469). -/
def execThermalThrottle (cluster : Nat) (stop : Bool) (s : State) : Out := runEvent (tryThermalThrottle cluster stop) s

/-- THERMAL_SHUTDOWN (R469). -/
def execThermalShutdown (die : Nat) (s : State) : Out := runEvent (tryThermalShutdown die) s

/-- TEMPERATURE_SAMPLE (R278). -/
def execTemperatureSample (die : Nat) (celsius : Nat) (s : State) : Out := runEvent (tryTemperatureSample die celsius) s

/-- TIME_RATE_ADJUST (R275). -/
def execTimeRateAdjust (ppm : Int) (s : State) : Out := runEvent (tryTimeRateAdjust ppm) s

/-- REGISTER_WRITE (R6). -/
def execRegisterWrite (off : BitVec 48) (v : Word) (s : State) : Out := runEvent (tryRegisterWrite off v) s

/-- TRANSLATION_ROOT_WRITE (R109). -/
def execTranslationRootWrite (core : Nat) (v : Word) (s : State) : Out := runEvent (tryTranslationRootWrite core v) s

/-- RING_DESCRIPTOR_WRITE (R143). -/
def execRingDescriptorWrite (core : Nat) (ring : Nat) (v : Word) (s : State) : Out := runEvent (tryRingDescriptorWrite core ring v) s

/-- LOG_DESCRIPTOR_WRITE (R147). -/
def execLogDescriptorWrite (core : Nat) (v : Word) (s : State) : Out := runEvent (tryLogDescriptorWrite core v) s

/-- LOG_SPILL_DESCRIPTOR_WRITE (R148). -/
def execLogSpillDescriptorWrite (core : Nat) (v : Word) (s : State) : Out := runEvent (tryLogSpillDescriptorWrite core v) s

/-- ARRIVAL_SPILL_DESCRIPTOR_WRITE (R193). -/
def execArrivalSpillDescriptorWrite (core : Nat) (v : Word) (s : State) : Out := runEvent (tryArrivalSpillDescriptorWrite core v) s

/-- MHB_WRITE (R466). -/
def execMhbWrite (svc : Nat) (ctx : Nat) (v : Word) (s : State) : Out := runEvent (tryMhbWrite svc ctx v) s

/-- CHRONOGRAPH_REQUEST (R448). -/
def execChronographRequest (core : Nat) (seq : Word) (s : State) : Out := runEvent (tryChronographRequest core seq) s

/-- HOST_LAUNCH_POST (R454). -/
def execHostLaunchPost (fn : Nat) (w0 : Word) (s : State) : Out := runEvent (tryHostLaunchPost fn w0) s

/-- ATTESTATION_QUOTE (R467). -/
def execAttestationQuote (s : State) : Out := runEvent (tryAttestationQuote) s

/-- HAND_OVER (R463). -/
def execHandOver (s : State) : Out := runEvent (tryHandOver) s

/-- HOST_EVENT_QUEUE_SETUP (R456). -/
def execHostEventQueueSetup (s : State) : Out := runEvent (tryHostEventQueueSetup) s

/-- STAGE_IMAGE_PART (R462). -/
def execStageImagePart (s : State) : Out := runEvent (tryStageImagePart) s

/-- PROBATION_COMMIT (R463). -/
def execProbationCommit (body : Nat) (s : State) : Out := runEvent (tryProbationCommit body) s

/-- HEARTBEAT_FALLBACK (R464). -/
def execHeartbeatFallback (body : Nat) (s : State) : Out := runEvent (tryHeartbeatFallback body) s

/-- BODY_RESTART (R99). -/
def execBodyRestart (body : Nat) (s : State) : Out := runEvent (tryBodyRestart body) s

/-- BIN_MOVE (R444). -/
def execBinMove (core : Nat) (s : State) : Out := runEvent (tryBinMove core) s

/-- SELF_TEST_RESULT (R444). -/
def execSelfTestResult (core : Nat) (pass : Bool) (unit : Word) (s : State) : Out := runEvent (trySelfTestResult core pass unit) s

/-- BIN_RECOVERY (R444). -/
def execBinRecovery (core : Nat) (s : State) : Out := runEvent (tryBinRecovery core) s

end Sys2Proof.Machine
end

