-- ==== Sys2Proof/Machine/Scalar.lean ====
section
/-! DEFINITION. Scalar integer instructions (R30, R31, R302 to R310): arithmetic, logic, shifts, counts, bit fields, compares and
predicate logic. -/

namespace Sys2Proof.Machine

/-! ### Values -/

/-- Signed quotient, toward zero; all ones for a zero divisor; the minimum by −1 gives the minimum (R31). -/
def divS (a b : Word) : Word := if b = 0 then -1 else BitVec.ofInt 64 (Int.tdiv a.toInt b.toInt)
/-- Unsigned quotient; all ones for a zero divisor (R31). -/
def divU (a b : Word) : Word := if b = 0 then -1 else BitVec.ofNat 64 (a.toNat / b.toNat)
/-- Signed remainder: the dividend's sign; the dividend for a zero divisor (R31). -/
def remS (a b : Word) : Word := if b = 0 then a else BitVec.ofInt 64 (Int.tmod a.toInt b.toInt)
/-- Unsigned remainder (R31). -/
def remU (a b : Word) : Word := if b = 0 then a else BitVec.ofNat 64 (a.toNat % b.toNat)
/-- High half of the signed product (R304). -/
def mulHigh (a b : Word) : Word := BitVec.ofInt 64 ((a.toInt * b.toInt) / 2 ^ 64)
/-- High half of the unsigned product (R304). -/
def mulHighU (a b : Word) : Word := BitVec.ofNat 64 (a.toNat * b.toNat / 2 ^ 64)
/-- Left shift by an unreduced amount (R306). -/
def shl (a s : Word) : Word := if 64 ≤ s.toNat then 0 else a <<< s.toNat
/-- Logical right shift by an unreduced amount (R306). -/
def shr (a s : Word) : Word := if 64 ≤ s.toNat then 0 else a >>> s.toNat
/-- Arithmetic right shift by an unreduced amount (R306). -/
def sar (a s : Word) : Word := if 64 ≤ s.toNat then (if bit a 63 then -1 else 0) else a.sshiftRight s.toNat
/-- Leading zero bits (R307). -/
def leadZeros (a : Word) : Word := if a = 0 then 64 else BitVec.ofNat 64 (63 - Nat.log2 a.toNat)
/-- Trailing zero bits (R307). -/
def trailZeros (a : Word) : Word := BitVec.ofNat 64 (((List.range 64).find? (fun i => bit a i)).getD 64)
/-- One bits (R307). -/
def onesCount (a : Word) : Word := BitVec.ofNat 64 ((List.range 64).countP (fun i => bit a i))
/-- Position of a bit-field descriptor (R308). -/
def bfPos (b : Word) : Nat := bitsN b 0 6
/-- Width of a bit-field descriptor, cut at bit 63 (R308). -/
def bfLen (b : Word) : Nat := Nat.min (bitsN b 8 6 + 1) (64 - bfPos b)
/-- Unsigned field (R308). -/
def bfGetU (a b : Word) : Word := BitVec.ofNat 64 (bitsN a (bfPos b) (bfLen b))
/-- Signed field (R308). -/
def bfGetS (a b : Word) : Word := BitVec.ofInt 64 (sInt (bfLen b) (bitsN a (bfPos b) (bfLen b)))
/-- Inserted field (R308). -/
def bfPut (a b old : Word) : Word :=
  let mask : Word := BitVec.ofNat 64 ((2 ^ bfLen b - 1) * 2 ^ bfPos b)
  (old &&& ~~~mask) ||| ((a <<< bfPos b) &&& mask)

/-! ### Two operands (R304, R306) -/

/-- `add` (R304). -/
def slotAdd (o : OpDab) : SlotDef := sBin o (fun a b => a + b)
/-- `sub` (R304). -/
def slotSub (o : OpDab) : SlotDef := sBin o (fun a b => a - b)
/-- `and` (R304). -/
def slotAnd (o : OpDab) : SlotDef := sBin o (fun a b => a &&& b)
/-- `or` (R304). -/
def slotOr (o : OpDab) : SlotDef := sBin o (fun a b => a ||| b)
/-- `xor` (R304). -/
def slotXor (o : OpDab) : SlotDef := sBin o (fun a b => a ^^^ b)
/-- `andn` (R304). -/
def slotAndn (o : OpDab) : SlotDef := sBin o (fun a b => a &&& ~~~b)
/-- `sll` (R306). -/
def slotSll (o : OpDab) : SlotDef := sBin o shl
/-- `srl` (R306). -/
def slotSrl (o : OpDab) : SlotDef := sBin o shr
/-- `sra` (R306). -/
def slotSra (o : OpDab) : SlotDef := sBin o sar
/-- `mul` (R304). -/
def slotMul (o : OpDab) : SlotDef := sBin o (fun a b => a * b)
/-- `mulh` (R304). -/
def slotMulh (o : OpDab) : SlotDef := sBin o mulHigh
/-- `mulhu` (R304). -/
def slotMulhu (o : OpDab) : SlotDef := sBin o mulHighU
/-- `div` (R31, R304). -/
def slotDiv (o : OpDab) : SlotDef := sBin o divS
/-- `divu` (R31, R304). -/
def slotDivu (o : OpDab) : SlotDef := sBin o divU
/-- `rem` (R31, R304). -/
def slotRem (o : OpDab) : SlotDef := sBin o remS
/-- `remu` (R31, R304). -/
def slotRemu (o : OpDab) : SlotDef := sBin o remU
/-- `min` (R304). -/
def slotMin (o : OpDab) : SlotDef := sBin o (fun a b => if a.slt b then a else b)
/-- `max` (R304). -/
def slotMax (o : OpDab) : SlotDef := sBin o (fun a b => if a.slt b then b else a)
/-- `minu` (R304). -/
def slotMinu (o : OpDab) : SlotDef := sBin o (fun a b => if a.ult b then a else b)
/-- `maxu` (R304). -/
def slotMaxu (o : OpDab) : SlotDef := sBin o (fun a b => if a.ult b then b else a)

/-! ### One operand (R307) -/

/-- `clz` (R307). -/
def slotClz (o : OpDa) : SlotDef := sUn o leadZeros
/-- `ctz` (R307). -/
def slotCtz (o : OpDa) : SlotDef := sUn o trailZeros
/-- `popc` (R307). -/
def slotPopc (o : OpDa) : SlotDef := sUn o onesCount

/-! ### Bit fields (R308) -/

/-- `bext` (R308). -/
def slotBext (o : OpDab) : SlotDef := sBin o bfGetS
/-- `bextu` (R308). -/
def slotBextu (o : OpDab) : SlotDef := sBin o bfGetU
/-- `bins` (R308). -/
def slotBins (o : OpDab) : SlotDef := sTri o bfPut

/-! ### Compares and predicate logic (R309, R310) -/

/-- `cmpeq` (R309). -/
def slotCmpeq (o : OpDab) : SlotDef := sCmp o (fun a b => a == b)
/-- `cmpne` (R309). -/
def slotCmpne (o : OpDab) : SlotDef := sCmp o (fun a b => a != b)
/-- `cmplt` (R309). -/
def slotCmplt (o : OpDab) : SlotDef := sCmp o (fun a b => a.slt b)
/-- `cmpge` (R309). -/
def slotCmpge (o : OpDab) : SlotDef := sCmp o (fun a b => !(a.slt b))
/-- `cmpltu` (R309). -/
def slotCmpltu (o : OpDab) : SlotDef := sCmp o (fun a b => a.ult b)
/-- `cmpgeu` (R309). -/
def slotCmpgeu (o : OpDab) : SlotDef := sCmp o (fun a b => !(a.ult b))
/-- `pand` (R310). -/
def slotPand (o : OpDab) : SlotDef := sPred o (fun a b => a && b)
/-- `por` (R310). -/
def slotPor (o : OpDab) : SlotDef := sPred o (fun a b => a || b)
/-- `pxor` (R310). -/
def slotPxor (o : OpDab) : SlotDef := sPred o (fun a b => a != b)
/-- `pandn` (R310). -/
def slotPandn (o : OpDab) : SlotDef := sPred o (fun a b => a && !b)

/-! ### Immediate forms (R305, R306, R309) -/

/-- `addi` (R305). -/
def slotAddi (o : OpDai) : SlotDef := sImm o (fun a b => a + b)
/-- `andi` (R305). -/
def slotAndi (o : OpDai) : SlotDef := sImm o (fun a b => a &&& b)
/-- `ori` (R305). -/
def slotOri (o : OpDai) : SlotDef := sImm o (fun a b => a ||| b)
/-- `xori` (R305). -/
def slotXori (o : OpDai) : SlotDef := sImm o (fun a b => a ^^^ b)
/-- `slli` (R306). -/
def slotSlli (o : OpDai) : SlotDef := sImm o shl
/-- `srli` (R306). -/
def slotSrli (o : OpDai) : SlotDef := sImm o shr
/-- `srai` (R306). -/
def slotSrai (o : OpDai) : SlotDef := sImm o sar
/-- `cmpeqi` (R309). -/
def slotCmpeqi (o : OpDai) : SlotDef := sCmpI o (fun a b => a == b)
/-- `cmplti` (R309). -/
def slotCmplti (o : OpDai) : SlotDef := sCmpI o (fun a b => a.slt b)
/-- `cmpltui` (R309). -/
def slotCmpltui (o : OpDai) : SlotDef := sCmpI o (fun a b => a.ult b)

/-- `li` (R314): unguarded. -/
def slotLi (o : OpL) : SlotDef := { xd := some o.d, run := fun e w => .ok (w.outX e o.d (immL o.p o.i)) }
/-- `adr` (R314): unguarded. -/
def slotAdr (o : OpL) : SlotDef :=
  { xd := some o.d, run := fun e w => .ok (w.outX e o.d ((bundleOffset e.pc (immL o.p o.i)).setWidth 64)) }

/-! ### Meanings -/

/-- ADD (R304). -/
def execAdd (o : OpDab) (s : State) : Out := runSlot (encode (.add o)) (slotAdd o) s

/-- SUB (R304). -/
def execSub (o : OpDab) (s : State) : Out := runSlot (encode (.sub o)) (slotSub o) s

/-- AND (R304). -/
def execAnd (o : OpDab) (s : State) : Out := runSlot (encode (.and o)) (slotAnd o) s

/-- OR (R304). -/
def execOr (o : OpDab) (s : State) : Out := runSlot (encode (.or o)) (slotOr o) s

/-- XOR (R304). -/
def execXor (o : OpDab) (s : State) : Out := runSlot (encode (.xor o)) (slotXor o) s

/-- ANDN (R304). -/
def execAndn (o : OpDab) (s : State) : Out := runSlot (encode (.andn o)) (slotAndn o) s

/-- SLL (R306). -/
def execSll (o : OpDab) (s : State) : Out := runSlot (encode (.sll o)) (slotSll o) s

/-- SRL (R306). -/
def execSrl (o : OpDab) (s : State) : Out := runSlot (encode (.srl o)) (slotSrl o) s

/-- SRA (R306). -/
def execSra (o : OpDab) (s : State) : Out := runSlot (encode (.sra o)) (slotSra o) s

/-- MUL (R304). -/
def execMul (o : OpDab) (s : State) : Out := runSlot (encode (.mul o)) (slotMul o) s

/-- MULH (R304). -/
def execMulh (o : OpDab) (s : State) : Out := runSlot (encode (.mulh o)) (slotMulh o) s

/-- MULHU (R304). -/
def execMulhu (o : OpDab) (s : State) : Out := runSlot (encode (.mulhu o)) (slotMulhu o) s

/-- DIV (R304). -/
def execDiv (o : OpDab) (s : State) : Out := runSlot (encode (.div o)) (slotDiv o) s

/-- DIVU (R304). -/
def execDivu (o : OpDab) (s : State) : Out := runSlot (encode (.divu o)) (slotDivu o) s

/-- REM (R304). -/
def execRem (o : OpDab) (s : State) : Out := runSlot (encode (.rem o)) (slotRem o) s

/-- REMU (R304). -/
def execRemu (o : OpDab) (s : State) : Out := runSlot (encode (.remu o)) (slotRemu o) s

/-- MIN (R304). -/
def execMin (o : OpDab) (s : State) : Out := runSlot (encode (.min o)) (slotMin o) s

/-- MAX (R304). -/
def execMax (o : OpDab) (s : State) : Out := runSlot (encode (.max o)) (slotMax o) s

/-- MINU (R304). -/
def execMinu (o : OpDab) (s : State) : Out := runSlot (encode (.minu o)) (slotMinu o) s

/-- MAXU (R304). -/
def execMaxu (o : OpDab) (s : State) : Out := runSlot (encode (.maxu o)) (slotMaxu o) s

/-- CLZ (R307). -/
def execClz (o : OpDa) (s : State) : Out := runSlot (encode (.clz o)) (slotClz o) s

/-- CTZ (R307). -/
def execCtz (o : OpDa) (s : State) : Out := runSlot (encode (.ctz o)) (slotCtz o) s

/-- POPC (R307). -/
def execPopc (o : OpDa) (s : State) : Out := runSlot (encode (.popc o)) (slotPopc o) s

/-- BEXT (R308). -/
def execBext (o : OpDab) (s : State) : Out := runSlot (encode (.bext o)) (slotBext o) s

/-- BEXTU (R308). -/
def execBextu (o : OpDab) (s : State) : Out := runSlot (encode (.bextu o)) (slotBextu o) s

/-- BINS (R308). -/
def execBins (o : OpDab) (s : State) : Out := runSlot (encode (.bins o)) (slotBins o) s

/-- CMPEQ (R309). -/
def execCmpeq (o : OpDab) (s : State) : Out := runSlot (encode (.cmpeq o)) (slotCmpeq o) s

/-- CMPNE (R309). -/
def execCmpne (o : OpDab) (s : State) : Out := runSlot (encode (.cmpne o)) (slotCmpne o) s

/-- CMPLT (R309). -/
def execCmplt (o : OpDab) (s : State) : Out := runSlot (encode (.cmplt o)) (slotCmplt o) s

/-- CMPGE (R309). -/
def execCmpge (o : OpDab) (s : State) : Out := runSlot (encode (.cmpge o)) (slotCmpge o) s

/-- CMPLTU (R309). -/
def execCmpltu (o : OpDab) (s : State) : Out := runSlot (encode (.cmpltu o)) (slotCmpltu o) s

/-- CMPGEU (R309). -/
def execCmpgeu (o : OpDab) (s : State) : Out := runSlot (encode (.cmpgeu o)) (slotCmpgeu o) s

/-- PAND (R310). -/
def execPand (o : OpDab) (s : State) : Out := runSlot (encode (.pand o)) (slotPand o) s

/-- POR (R310). -/
def execPor (o : OpDab) (s : State) : Out := runSlot (encode (.por o)) (slotPor o) s

/-- PXOR (R310). -/
def execPxor (o : OpDab) (s : State) : Out := runSlot (encode (.pxor o)) (slotPxor o) s

/-- PANDN (R310). -/
def execPandn (o : OpDab) (s : State) : Out := runSlot (encode (.pandn o)) (slotPandn o) s

/-- ADDI (R305). -/
def execAddi (o : OpDai) (s : State) : Out := runSlot (encode (.addi o)) (slotAddi o) s

/-- ANDI (R305). -/
def execAndi (o : OpDai) (s : State) : Out := runSlot (encode (.andi o)) (slotAndi o) s

/-- ORI (R305). -/
def execOri (o : OpDai) (s : State) : Out := runSlot (encode (.ori o)) (slotOri o) s

/-- XORI (R305). -/
def execXori (o : OpDai) (s : State) : Out := runSlot (encode (.xori o)) (slotXori o) s

/-- SLLI (R306). -/
def execSlli (o : OpDai) (s : State) : Out := runSlot (encode (.slli o)) (slotSlli o) s

/-- SRLI (R306). -/
def execSrli (o : OpDai) (s : State) : Out := runSlot (encode (.srli o)) (slotSrli o) s

/-- SRAI (R306). -/
def execSrai (o : OpDai) (s : State) : Out := runSlot (encode (.srai o)) (slotSrai o) s

/-- CMPEQI (R309). -/
def execCmpeqi (o : OpDai) (s : State) : Out := runSlot (encode (.cmpeqi o)) (slotCmpeqi o) s

/-- CMPLTI (R309). -/
def execCmplti (o : OpDai) (s : State) : Out := runSlot (encode (.cmplti o)) (slotCmplti o) s

/-- CMPLTUI (R309). -/
def execCmpltui (o : OpDai) (s : State) : Out := runSlot (encode (.cmpltui o)) (slotCmpltui o) s

/-- LI (R314). -/
def execLi (o : OpL) (s : State) : Out := runSlot (encode (.li o)) (slotLi o) s

/-- ADR (R314). -/
def execAdr (o : OpL) (s : State) : Out := runSlot (encode (.adr o)) (slotAdr o) s

end Sys2Proof.Machine
end

