-- ==== Sys2Proof/Machine/ScalarFp.lean ====
section
/-! DEFINITION. Scalar floating point (R34 to R36, R50 to R55, R311 to R313). -/

namespace Sys2Proof.Machine

/-- `fadd.f32` (R311). -/
def slotFaddF32 (o : OpDab) : SlotDef := sfBin o (fun rm a b => Fmt.f32.add rm (lo32 a) (lo32 b))
/-- `fsub.f32` (R311). -/
def slotFsubF32 (o : OpDab) : SlotDef := sfBin o (fun rm a b => Fmt.f32.sub rm (lo32 a) (lo32 b))
/-- `fmul.f32` (R311). -/
def slotFmulF32 (o : OpDab) : SlotDef := sfBin o (fun rm a b => Fmt.f32.mul rm (lo32 a) (lo32 b))
/-- `fdiv.f32` (R311). -/
def slotFdivF32 (o : OpDab) : SlotDef := sfBin o (fun rm a b => Fmt.f32.quot rm (lo32 a) (lo32 b))
/-- `fmin.f32` (R36, R311). -/
def slotFminF32 (o : OpDab) : SlotDef := sfBin o (fun _ a b => Fmt.f32.minmax false (lo32 a) (lo32 b))
/-- `fmax.f32` (R36, R311). -/
def slotFmaxF32 (o : OpDab) : SlotDef := sfBin o (fun _ a b => Fmt.f32.minmax true (lo32 a) (lo32 b))
/-- `fsqrt.f32` (R311). -/
def slotFsqrtF32 (o : OpDa) : SlotDef := sfUn o (fun rm a => Fmt.f32.root rm (lo32 a))
/-- `fcmpeq.f32` (R312). -/
def slotFcmpeqF32 (o : OpDab) : SlotDef := sfCmp o FVal.eq nvQuiet
/-- `fcmplt.f32` (R312). -/
def slotFcmpltF32 (o : OpDab) : SlotDef := sfCmp o FVal.lt nvAny
/-- `fcmple.f32` (R312). -/
def slotFcmpleF32 (o : OpDab) : SlotDef := sfCmp o FVal.le nvAny
/-- `fcmpun.f32` (R312). -/
def slotFcmpunF32 (o : OpDab) : SlotDef := sfCmp o (fun x y => x.isNan || y.isNan) nvQuiet
/-- `fmadd.f32`: A × B + Old(d) (R311). -/
def slotFmaddF32 (o : OpDab) : SlotDef := sfTri o (fun rm a b c => Fmt.f32.fma rm false false (lo32 a) (lo32 b) (lo32 c))
/-- `fmsub.f32`: A × B − Old(d) (R311). -/
def slotFmsubF32 (o : OpDab) : SlotDef := sfTri o (fun rm a b c => Fmt.f32.fma rm false true (lo32 a) (lo32 b) (lo32 c))
/-- `fnmadd.f32`: −(A × B) − Old(d) (R311). -/
def slotFnmaddF32 (o : OpDab) : SlotDef := sfTri o (fun rm a b c => Fmt.f32.fma rm true true (lo32 a) (lo32 b) (lo32 c))
/-- `fnmsub.f32`: −(A × B) + Old(d) (R311). -/
def slotFnmsubF32 (o : OpDab) : SlotDef := sfTri o (fun rm a b c => Fmt.f32.fma rm true false (lo32 a) (lo32 b) (lo32 c))
/-- `fcvt.f32.i64` (R55, R313). -/
def slotFcvtF32I64 (o : OpDa) : SlotDef := sfUn o (fun rm a => Fmt.f32.round rm false (FVal.ofInt a.toInt))
/-- `fcvt.f32.u64` (R55, R313). -/
def slotFcvtF32U64 (o : OpDa) : SlotDef := sfUn o (fun rm a => Fmt.f32.round rm false (FVal.ofInt a.toNat))
/-- An integer result modulo 2^64, with its flags. -/
def wrap64 (r : Int × FFlags) : Nat × FFlags := (uWrap 64 r.1, r.2)
/-- `fcvt.i64.f32` (R54, R313). -/
def slotFcvtI64F32 (o : OpDa) : SlotDef :=
  sfUn o (fun rm a => wrap64 ((Fmt.f32.decode (lo32 a)).toInt rm (-(2 ^ 63)) (2 ^ 63 - 1)))
/-- `fcvt.u64.f32` (R54, R313). -/
def slotFcvtU64F32 (o : OpDa) : SlotDef := sfUn o (fun rm a => wrap64 ((Fmt.f32.decode (lo32 a)).toInt rm 0 (2 ^ 64 - 1)))
/-- `fcvt.bf16.f32` (R53, R313). -/
def slotFcvtBf16F32 (o : OpDa) : SlotDef := sfUn o (fun rm a => Fmt.f32.cvt .bf16 rm false (lo32 a))
/-- `fcvt.f32.bf16` (R53, R313): exact, NV for a signalling source. -/
def slotFcvtF32Bf16 (o : OpDa) : SlotDef := sfUn o (fun rm a => Fmt.bf16.cvt .f32 rm false (lo16 a))
/-- `fcvt.f16.f32` (R53, R313). -/
def slotFcvtF16F32 (o : OpDa) : SlotDef := sfUn o (fun rm a => Fmt.f32.cvt .f16 rm false (lo32 a))
/-- `fcvt.f32.f16` (R53, R313): exact, NV for a signalling source. -/
def slotFcvtF32F16 (o : OpDa) : SlotDef := sfUn o (fun rm a => Fmt.f16.cvt .f32 rm false (lo16 a))

/-! ### Meanings -/

/-- FADD_F32 (R311). -/
def execFaddF32 (o : OpDab) (s : State) : Out := runSlot (encode (.faddF32 o)) (slotFaddF32 o) s

/-- FSUB_F32 (R311). -/
def execFsubF32 (o : OpDab) (s : State) : Out := runSlot (encode (.fsubF32 o)) (slotFsubF32 o) s

/-- FMUL_F32 (R311). -/
def execFmulF32 (o : OpDab) (s : State) : Out := runSlot (encode (.fmulF32 o)) (slotFmulF32 o) s

/-- FDIV_F32 (R311). -/
def execFdivF32 (o : OpDab) (s : State) : Out := runSlot (encode (.fdivF32 o)) (slotFdivF32 o) s

/-- FMIN_F32 (R311). -/
def execFminF32 (o : OpDab) (s : State) : Out := runSlot (encode (.fminF32 o)) (slotFminF32 o) s

/-- FMAX_F32 (R311). -/
def execFmaxF32 (o : OpDab) (s : State) : Out := runSlot (encode (.fmaxF32 o)) (slotFmaxF32 o) s

/-- FSQRT_F32 (R311). -/
def execFsqrtF32 (o : OpDa) (s : State) : Out := runSlot (encode (.fsqrtF32 o)) (slotFsqrtF32 o) s

/-- FCMPEQ_F32 (R312). -/
def execFcmpeqF32 (o : OpDab) (s : State) : Out := runSlot (encode (.fcmpeqF32 o)) (slotFcmpeqF32 o) s

/-- FCMPLT_F32 (R312). -/
def execFcmpltF32 (o : OpDab) (s : State) : Out := runSlot (encode (.fcmpltF32 o)) (slotFcmpltF32 o) s

/-- FCMPLE_F32 (R312). -/
def execFcmpleF32 (o : OpDab) (s : State) : Out := runSlot (encode (.fcmpleF32 o)) (slotFcmpleF32 o) s

/-- FCMPUN_F32 (R312). -/
def execFcmpunF32 (o : OpDab) (s : State) : Out := runSlot (encode (.fcmpunF32 o)) (slotFcmpunF32 o) s

/-- FMADD_F32 (R311). -/
def execFmaddF32 (o : OpDab) (s : State) : Out := runSlot (encode (.fmaddF32 o)) (slotFmaddF32 o) s

/-- FMSUB_F32 (R311). -/
def execFmsubF32 (o : OpDab) (s : State) : Out := runSlot (encode (.fmsubF32 o)) (slotFmsubF32 o) s

/-- FNMADD_F32 (R311). -/
def execFnmaddF32 (o : OpDab) (s : State) : Out := runSlot (encode (.fnmaddF32 o)) (slotFnmaddF32 o) s

/-- FNMSUB_F32 (R311). -/
def execFnmsubF32 (o : OpDab) (s : State) : Out := runSlot (encode (.fnmsubF32 o)) (slotFnmsubF32 o) s

/-- FCVT_F32_I64 (R313). -/
def execFcvtF32I64 (o : OpDa) (s : State) : Out := runSlot (encode (.fcvtF32I64 o)) (slotFcvtF32I64 o) s

/-- FCVT_F32_U64 (R313). -/
def execFcvtF32U64 (o : OpDa) (s : State) : Out := runSlot (encode (.fcvtF32U64 o)) (slotFcvtF32U64 o) s

/-- FCVT_I64_F32 (R313). -/
def execFcvtI64F32 (o : OpDa) (s : State) : Out := runSlot (encode (.fcvtI64F32 o)) (slotFcvtI64F32 o) s

/-- FCVT_U64_F32 (R313). -/
def execFcvtU64F32 (o : OpDa) (s : State) : Out := runSlot (encode (.fcvtU64F32 o)) (slotFcvtU64F32 o) s

/-- FCVT_BF16_F32 (R313). -/
def execFcvtBf16F32 (o : OpDa) (s : State) : Out := runSlot (encode (.fcvtBf16F32 o)) (slotFcvtBf16F32 o) s

/-- FCVT_F32_BF16 (R313). -/
def execFcvtF32Bf16 (o : OpDa) (s : State) : Out := runSlot (encode (.fcvtF32Bf16 o)) (slotFcvtF32Bf16 o) s

/-- FCVT_F16_F32 (R313). -/
def execFcvtF16F32 (o : OpDa) (s : State) : Out := runSlot (encode (.fcvtF16F32 o)) (slotFcvtF16F32 o) s

/-- FCVT_F32_F16 (R313). -/
def execFcvtF32F16 (o : OpDa) (s : State) : Out := runSlot (encode (.fcvtF32F16 o)) (slotFcvtF32F16 o) s

end Sys2Proof.Machine
end

