-- ==== Sys2Proof/Machine/Vector.lean ====
section
/-! DEFINITION. Vector instructions: arithmetic, logic, shifts, compares, masks and moves (R321 to R332, R343). -/

namespace Sys2Proof.Machine

/-! ### Element operations -/

/-- Range of a signed integer of n bytes (R29). -/
def satS (n : Nat) (x : Int) : Nat :=
  uWrap (8 * n) (max (-(2 ^ (8 * n - 1) : Nat) : Int) (min x ((2 ^ (8 * n - 1) : Nat) - 1 : Int)))
/-- Range of an unsigned integer of n bytes (R29). -/
def satU (n : Nat) (x : Int) : Nat := (max 0 (min x ((2 ^ (8 * n) : Nat) - 1 : Int))).toNat
/-- An element as signed. -/
def eS (n x : Nat) : Int := sInt (8 * n) x
/-- Left shift of an element (R328). -/
def eShl (n a s : Nat) : Nat := if 8 * n ≤ s then 0 else a * 2 ^ s % 2 ^ (8 * n)
/-- Logical right shift of an element (R328). -/
def eShr (n a s : Nat) : Nat := if 8 * n ≤ s then 0 else a / 2 ^ s
/-- Arithmetic right shift of an element (R328). -/
def eSar (n a s : Nat) : Nat := uWrap (8 * n) (eS n a / (2 ^ (Nat.min s (8 * n)) : Nat))

/-- A two-operand form of set A: an integer operation on types 0 to 3, a floating-point one on types 4 to 7 (R293). -/
def vSetA (o : OpDabT3) (fi : Nat → Nat → Nat → Nat) (ff : Fmt → RMode → Nat → Nat → Nat × FFlags) : SlotDef :=
  let n := typeWidth o.t.toNat
  if o.t.toNat < 4 then vBin o.p o.d o.a o.b o.g n (fi n)
  else vfBin o.p o.d o.a o.b o.g n (o.t.toNat == 7) (ff (typeFmt o.t.toNat))

/-- A two-operand floating-point form on `.bf16`, `.f16`, `.f32`, `.f64`. -/
def vFour (o : OpDabT2) (f : Fmt → RMode → Nat → Nat → Nat × FFlags) : SlotDef :=
  vfBin o.p o.d o.a o.b o.g (typeWidth (o.t.toNat + 4)) (o.t.toNat == 3) (f (typeFmt (o.t.toNat + 4)))

/-- A two-operand integer form on four widths. -/
def vInt4 (o : OpDabT2) (f : Nat → Nat → Nat → Nat) : SlotDef :=
  vBin o.p o.d o.a o.b o.g (typeWidth o.t.toNat) (f (typeWidth o.t.toNat))

/-! ### Arithmetic (R325, R326) -/

/-- `vadd` (R325). -/
def slotVadd (o : OpDabT3) : SlotDef := vSetA o (fun n a b => (a + b) % 2 ^ (8 * n)) (fun f rm a b => f.add rm a b)
/-- `vsub` (R325). -/
def slotVsub (o : OpDabT3) : SlotDef := vSetA o (fun n a b => uWrap (8 * n) ((a : Int) - b)) (fun f rm a b => f.sub rm a b)
/-- `vmul` (R325). -/
def slotVmul (o : OpDabT3) : SlotDef := vSetA o (fun n a b => a * b % 2 ^ (8 * n)) (fun f rm a b => f.mul rm a b)
/-- `vmla` (R325). -/
def slotVmla (o : OpDabT2) : SlotDef :=
  let n := typeWidth o.t.toNat
  vTri o.p o.d o.a o.b o.g n (fun a b c => (c + a * b) % 2 ^ (8 * n))
/-- `vfma` (R325). -/
def slotVfma (o : OpDabT2) : SlotDef :=
  vfTri o.p o.d o.a o.b o.g (typeWidth (o.t.toNat + 4)) (o.t.toNat == 3)
    (fun rm a b c => (typeFmt (o.t.toNat + 4)).fma rm false false a b c)
/-- `vdiv` (R325). -/
def slotVdiv (o : OpDabT2) : SlotDef := vFour o (fun f rm a b => f.quot rm a b)
/-- `vsqrt` (R325). -/
def slotVsqrt (o : OpDaT2) : SlotDef :=
  vfUn o.p o.d o.a o.g (typeWidth (o.t.toNat + 4)) (o.t.toNat == 3) (fun rm a => (typeFmt (o.t.toNat + 4)).root rm a)
/-- `vmin` (R326). -/
def slotVmin (o : OpDabT3) : SlotDef :=
  vSetA o (fun n a b => if eS n a ≤ eS n b then a else b) (fun f _ a b => f.minmax false a b)
/-- `vmax` (R326). -/
def slotVmax (o : OpDabT3) : SlotDef :=
  vSetA o (fun n a b => if eS n a ≤ eS n b then b else a) (fun f _ a b => f.minmax true a b)
/-- `vminu` (R326). -/
def slotVminu (o : OpDabT2) : SlotDef := vInt4 o (fun _ a b => Nat.min a b)
/-- `vmaxu` (R326). -/
def slotVmaxu (o : OpDabT2) : SlotDef := vInt4 o (fun _ a b => Nat.max a b)
/-- A saturating form: signed on types 0 to 3, unsigned on types 4 to 7 (R326). -/
def vSat (o : OpDabT3) (f : Int → Int → Int) : SlotDef :=
  let n := typeWidth (o.t.toNat % 4)
  vBin o.p o.d o.a o.b o.g n (fun a b => if o.t.toNat < 4 then satS n (f (eS n a) (eS n b)) else satU n (f a b))
/-- `vadds` (R326). -/
def slotVadds (o : OpDabT3) : SlotDef := vSat o (fun a b => a + b)
/-- `vsubs` (R326). -/
def slotVsubs (o : OpDabT3) : SlotDef := vSat o (fun a b => a - b)

/-! ### Logic, selection and shifts (R327, R328) -/

/-- `vand` (R327). -/
def slotVand (o : OpDab) : SlotDef := vBin o.p o.d o.a o.b o.g 1 (fun a b => a &&& b)
/-- `vor` (R327). -/
def slotVor (o : OpDab) : SlotDef := vBin o.p o.d o.a o.b o.g 1 (fun a b => a ||| b)
/-- `vxor` (R327). -/
def slotVxor (o : OpDab) : SlotDef := vBin o.p o.d o.a o.b o.g 1 (fun a b => a ^^^ b)
/-- `vandn` (R327). -/
def slotVandn (o : OpDab) : SlotDef := vBin o.p o.d o.a o.b o.g 1 (fun a b => a &&& (255 - b))
/-- `vsel`: the mask selects, and all 16 bytes are written (R327). -/
def slotVsel (o : OpDab) : SlotDef :=
  { g := o.g.toNat, vs := [o.a, o.b], vd := some o.d, badMod := modCheck o.p false false true
    run := fun e w => w.outV e o.d (mergeLanes (e.mask o.p) (e.va o.a) (e.va o.b)) }
/-- `vsll` (R328). -/
def slotVsll (o : OpDabT2) : SlotDef := vInt4 o eShl
/-- `vsrl` (R328). -/
def slotVsrl (o : OpDabT2) : SlotDef := vInt4 o eShr
/-- `vsra` (R328). -/
def slotVsra (o : OpDabT2) : SlotDef := vInt4 o eSar

/-! ### Compares and mask logic (R329, R330) -/

/-- A compare of set A (R329). -/
def vCmpA (o : OpDabT3) (fi : Nat → Nat → Nat → Bool) (ff : FVal → FVal → Bool) (nv : FVal → FVal → FFlags) : SlotDef :=
  let n := typeWidth o.t.toNat
  if o.t.toNat < 4 then vCmp o.p o.d o.a o.b o.g n false (fun a b => (fi n a b, 0))
  else
    let f := typeFmt o.t.toNat
    vCmp o.p o.d o.a o.b o.g n (o.t.toNat == 7) (fun a b => (ff (f.decode a) (f.decode b), nv (f.decode a) (f.decode b)))
/-- `vcmpeq` (R329). -/
def slotVcmpeq (o : OpDabT3) : SlotDef := vCmpA o (fun _ a b => a == b) FVal.eq nvQuiet
/-- `vcmplt` (R329). -/
def slotVcmplt (o : OpDabT3) : SlotDef := vCmpA o (fun n a b => decide (eS n a < eS n b)) FVal.lt nvAny
/-- `vcmpltu` (R329). -/
def slotVcmpltu (o : OpDabT2) : SlotDef :=
  vCmp o.p o.d o.a o.b o.g (typeWidth o.t.toNat) false (fun a b => (decide (a < b), 0))
/-- `vcmple` (R329). -/
def slotVcmple (o : OpDabT2) : SlotDef :=
  let f := typeFmt (o.t.toNat + 4)
  vCmp o.p o.d o.a o.b o.g (typeWidth (o.t.toNat + 4)) (o.t.toNat == 3)
    (fun a b => ((f.decode a).le (f.decode b), nvAny (f.decode a) (f.decode b)))

/-- Mask logic: every field below 8 (R330). -/
def vMaskOp (o : OpDab) (f : BitVec 16 → BitVec 16 → BitVec 16) : SlotDef :=
  { g := o.g.toNat, bad := badMask o.d || badMask o.a || badMask o.b, badMod := modCheck o.p false false false
    run := fun e w => .ok (w.modCtx e (fun k => k.wm o.d.toNat (f (e.k.rm o.a.toNat) (e.k.rm o.b.toNat)))) }
/-- `mand` (R330). -/
def slotMand (o : OpDab) : SlotDef := vMaskOp o (fun a b => a &&& b)
/-- `mor` (R330). -/
def slotMor (o : OpDab) : SlotDef := vMaskOp o (fun a b => a ||| b)
/-- `mxor` (R330). -/
def slotMxor (o : OpDab) : SlotDef := vMaskOp o (fun a b => a ^^^ b)
/-- `mandn` (R330). -/
def slotMandn (o : OpDab) : SlotDef := vMaskOp o (fun a b => a &&& ~~~b)
/-- `mset` (R330). -/
def slotMset (o : OpDa) : SlotDef :=
  { g := o.g.toNat, xs := [o.a], bad := badMask o.d, badMod := modCheck o.p false false false
    run := fun e w => .ok (w.modCtx e (fun k => k.wm o.d.toNat (field (e.xa o.a) 0 16))) }

/-! ### Moves and permutes (R331, R332) -/

/-- A permute whose result elements of n bytes are given (R331). -/
def vPerm (o : OpDab) (n : Nat) (f : Vec → Vec → Nat → Nat) : SlotDef :=
  { g := o.g.toNat, vs := [o.a, o.b], vm := [dReg o.d], vd := some o.d, badMod := modCheck o.p false false true
    run := fun e w => w.outV e o.d (vMap n (e.mask o.p) (e.vMerge o.d) (f (e.va o.a) (e.va o.b))) }
/-- `vshuf` (R331). -/
def slotVshuf (o : OpDab) : SlotDef :=
  vPerm o 1 (fun a b j => if vElem b 1 j < 16 then vElem a 1 (vElem b 1 j) else 0)
/-- `vzipl` (R331). -/
def slotVzipl (o : OpDab) : SlotDef := vPerm o 4 (fun a b i => vElem (if i % 2 = 0 then a else b) 4 (i / 2))
/-- `vziph` (R331). -/
def slotVziph (o : OpDab) : SlotDef := vPerm o 4 (fun a b i => vElem (if i % 2 = 0 then a else b) 4 (i / 2 + 2))
/-- `vuzpe` (R331). -/
def slotVuzpe (o : OpDab) : SlotDef := vPerm o 4 (fun a b i => vElem (if i < 2 then a else b) 4 (i % 2 * 2))
/-- `vuzpo` (R331). -/
def slotVuzpo (o : OpDab) : SlotDef := vPerm o 4 (fun a b i => vElem (if i < 2 then a else b) 4 (i % 2 * 2 + 1))
/-- `vsplat` (R332). -/
def slotVsplat (o : OpDaT2) : SlotDef :=
  let n := typeWidth o.t.toNat
  { g := o.g.toNat, xs := [o.a], vm := [dReg o.d], vd := some o.d, badMod := modCheck o.p false false true
    run := fun e w => w.outV e o.d (vMap n (e.mask o.p) (e.vMerge o.d) (fun _ => bitsN (e.xa o.a) 0 (8 * n))) }
/-- An element selector that is neither 0 nor 1 (R332). -/
def badHalf (p : Option (BitVec 24)) (i : BitVec 9) : Bool := decide (1 < (immS p i).toNat)
/-- `vget` (R332). -/
def slotVget (o : OpDai) : SlotDef :=
  { g := o.g.toNat, vs := [o.a], xd := some o.d, bad := badHalf o.p o.i
    run := fun e w => .ok (w.outX e o.d (BitVec.ofNat 64 (vElem (e.va o.a) 8 (immS o.p o.i).toNat))) }
/-- `vput` (R332). -/
def slotVput (o : OpDai) : SlotDef :=
  { g := o.g.toNat, xs := [o.a], vo := [dReg o.d], vd := some o.d, bad := badHalf o.p o.i
    run := fun e w => w.outV e o.d
      (vPack 8 ((List.range 2).map (fun i => if i = (immS o.p o.i).toNat then (e.xa o.a).toNat else vElem (e.vOld o.d) 8 i))) }

/-! ### Signs (R343) -/

/-- An element-wise operation on bits, without flags (R343). -/
def vSign (o : OpDa) (n : Nat) (x64 : Bool) (f : Nat → Nat) : SlotDef := { vUn o.p o.d o.a o.g n f with fp64 := x64 }
/-- Sign bit cleared. -/
def clearSign (n x : Nat) : Nat := x % 2 ^ (8 * n - 1)
/-- Sign bit inverted. -/
def flipSign (n x : Nat) : Nat := (x + 2 ^ (8 * n - 1)) % 2 ^ (8 * n)
/-- `vabs.f32` (R343). -/
def slotVabsF32 (o : OpDa) : SlotDef := vSign o 4 false (clearSign 4)
/-- `vneg.f32` (R343). -/
def slotVnegF32 (o : OpDa) : SlotDef := vSign o 4 false (flipSign 4)
/-- `vabs.i32` (R343). -/
def slotVabsI32 (o : OpDa) : SlotDef := vSign o 4 false (fun a => uWrap 32 (eS 4 a).natAbs)
/-- `vneg.i32` (R343). -/
def slotVnegI32 (o : OpDa) : SlotDef := vSign o 4 false (fun a => uWrap 32 (-(eS 4 a)))
/-- `vabs.f16` (R343). -/
def slotVabsF16 (o : OpDa) : SlotDef := vSign o 2 false (clearSign 2)
/-- `vneg.f16` (R343). -/
def slotVnegF16 (o : OpDa) : SlotDef := vSign o 2 false (flipSign 2)
/-- `vabs.f64` (R343). -/
def slotVabsF64 (o : OpDa) : SlotDef := vSign o 8 true (clearSign 8)
/-- `vneg.f64` (R343). -/
def slotVnegF64 (o : OpDa) : SlotDef := vSign o 8 true (flipSign 8)

/-! ### Meanings -/

/-- VADD (R325). -/
def execVadd (o : OpDabT3) (s : State) : Out := runSlot (encode (.vadd o)) (slotVadd o) s

/-- VSUB (R325). -/
def execVsub (o : OpDabT3) (s : State) : Out := runSlot (encode (.vsub o)) (slotVsub o) s

/-- VMUL (R325). -/
def execVmul (o : OpDabT3) (s : State) : Out := runSlot (encode (.vmul o)) (slotVmul o) s

/-- VMLA (R325). -/
def execVmla (o : OpDabT2) (s : State) : Out := runSlot (encode (.vmla o)) (slotVmla o) s

/-- VFMA (R325). -/
def execVfma (o : OpDabT2) (s : State) : Out := runSlot (encode (.vfma o)) (slotVfma o) s

/-- VDIV (R325). -/
def execVdiv (o : OpDabT2) (s : State) : Out := runSlot (encode (.vdiv o)) (slotVdiv o) s

/-- VSQRT (R325). -/
def execVsqrt (o : OpDaT2) (s : State) : Out := runSlot (encode (.vsqrt o)) (slotVsqrt o) s

/-- VMIN (R326). -/
def execVmin (o : OpDabT3) (s : State) : Out := runSlot (encode (.vmin o)) (slotVmin o) s

/-- VMAX (R326). -/
def execVmax (o : OpDabT3) (s : State) : Out := runSlot (encode (.vmax o)) (slotVmax o) s

/-- VMINU (R326). -/
def execVminu (o : OpDabT2) (s : State) : Out := runSlot (encode (.vminu o)) (slotVminu o) s

/-- VMAXU (R326). -/
def execVmaxu (o : OpDabT2) (s : State) : Out := runSlot (encode (.vmaxu o)) (slotVmaxu o) s

/-- VADDS (R326). -/
def execVadds (o : OpDabT3) (s : State) : Out := runSlot (encode (.vadds o)) (slotVadds o) s

/-- VSUBS (R326). -/
def execVsubs (o : OpDabT3) (s : State) : Out := runSlot (encode (.vsubs o)) (slotVsubs o) s

/-- VAND (R327). -/
def execVand (o : OpDab) (s : State) : Out := runSlot (encode (.vand o)) (slotVand o) s

/-- VOR (R327). -/
def execVor (o : OpDab) (s : State) : Out := runSlot (encode (.vor o)) (slotVor o) s

/-- VXOR (R327). -/
def execVxor (o : OpDab) (s : State) : Out := runSlot (encode (.vxor o)) (slotVxor o) s

/-- VANDN (R327). -/
def execVandn (o : OpDab) (s : State) : Out := runSlot (encode (.vandn o)) (slotVandn o) s

/-- VSEL (R327). -/
def execVsel (o : OpDab) (s : State) : Out := runSlot (encode (.vsel o)) (slotVsel o) s

/-- VSLL (R328). -/
def execVsll (o : OpDabT2) (s : State) : Out := runSlot (encode (.vsll o)) (slotVsll o) s

/-- VSRL (R328). -/
def execVsrl (o : OpDabT2) (s : State) : Out := runSlot (encode (.vsrl o)) (slotVsrl o) s

/-- VSRA (R328). -/
def execVsra (o : OpDabT2) (s : State) : Out := runSlot (encode (.vsra o)) (slotVsra o) s

/-- VCMPEQ (R329). -/
def execVcmpeq (o : OpDabT3) (s : State) : Out := runSlot (encode (.vcmpeq o)) (slotVcmpeq o) s

/-- VCMPLT (R329). -/
def execVcmplt (o : OpDabT3) (s : State) : Out := runSlot (encode (.vcmplt o)) (slotVcmplt o) s

/-- VCMPLTU (R329). -/
def execVcmpltu (o : OpDabT2) (s : State) : Out := runSlot (encode (.vcmpltu o)) (slotVcmpltu o) s

/-- VCMPLE (R329). -/
def execVcmple (o : OpDabT2) (s : State) : Out := runSlot (encode (.vcmple o)) (slotVcmple o) s

/-- MAND (R330). -/
def execMand (o : OpDab) (s : State) : Out := runSlot (encode (.mand o)) (slotMand o) s

/-- MOR (R330). -/
def execMor (o : OpDab) (s : State) : Out := runSlot (encode (.mor o)) (slotMor o) s

/-- MXOR (R330). -/
def execMxor (o : OpDab) (s : State) : Out := runSlot (encode (.mxor o)) (slotMxor o) s

/-- MANDN (R330). -/
def execMandn (o : OpDab) (s : State) : Out := runSlot (encode (.mandn o)) (slotMandn o) s

/-- MSET (R330). -/
def execMset (o : OpDa) (s : State) : Out := runSlot (encode (.mset o)) (slotMset o) s

/-- VSHUF (R331). -/
def execVshuf (o : OpDab) (s : State) : Out := runSlot (encode (.vshuf o)) (slotVshuf o) s

/-- VZIPL (R331). -/
def execVzipl (o : OpDab) (s : State) : Out := runSlot (encode (.vzipl o)) (slotVzipl o) s

/-- VZIPH (R331). -/
def execVziph (o : OpDab) (s : State) : Out := runSlot (encode (.vziph o)) (slotVziph o) s

/-- VUZPE (R331). -/
def execVuzpe (o : OpDab) (s : State) : Out := runSlot (encode (.vuzpe o)) (slotVuzpe o) s

/-- VUZPO (R331). -/
def execVuzpo (o : OpDab) (s : State) : Out := runSlot (encode (.vuzpo o)) (slotVuzpo o) s

/-- VSPLAT (R332). -/
def execVsplat (o : OpDaT2) (s : State) : Out := runSlot (encode (.vsplat o)) (slotVsplat o) s

/-- VGET (R332). -/
def execVget (o : OpDai) (s : State) : Out := runSlot (encode (.vget o)) (slotVget o) s

/-- VPUT (R332). -/
def execVput (o : OpDai) (s : State) : Out := runSlot (encode (.vput o)) (slotVput o) s

/-- VABS_F32 (R343). -/
def execVabsF32 (o : OpDa) (s : State) : Out := runSlot (encode (.vabsF32 o)) (slotVabsF32 o) s

/-- VNEG_F32 (R343). -/
def execVnegF32 (o : OpDa) (s : State) : Out := runSlot (encode (.vnegF32 o)) (slotVnegF32 o) s

/-- VABS_I32 (R343). -/
def execVabsI32 (o : OpDa) (s : State) : Out := runSlot (encode (.vabsI32 o)) (slotVabsI32 o) s

/-- VNEG_I32 (R343). -/
def execVnegI32 (o : OpDa) (s : State) : Out := runSlot (encode (.vnegI32 o)) (slotVnegI32 o) s

/-- VABS_F16 (R343). -/
def execVabsF16 (o : OpDa) (s : State) : Out := runSlot (encode (.vabsF16 o)) (slotVabsF16 o) s

/-- VNEG_F16 (R343). -/
def execVnegF16 (o : OpDa) (s : State) : Out := runSlot (encode (.vnegF16 o)) (slotVnegF16 o) s

/-- VABS_F64 (R343). -/
def execVabsF64 (o : OpDa) (s : State) : Out := runSlot (encode (.vabsF64 o)) (slotVabsF64 o) s

/-- VNEG_F64 (R343). -/
def execVnegF64 (o : OpDa) (s : State) : Out := runSlot (encode (.vnegF64 o)) (slotVnegF64 o) s

end Sys2Proof.Machine
end

