-- ==== Sys2Proof/Machine/VectorData.lean ====
section
/-! DEFINITION. Vector instructions: conversions, decode tables and block scales, dot products, reductions, selection and curves
(R333 to R342). -/

namespace Sys2Proof.Machine

/-! ### Conversions (R333, R334) -/

/-- FP32 element i of A, then of B. -/
def pairElem (n : Nat) (a b : Vec) (i : Nat) : Nat := if i < 16 / n then vElem a n i else vElem b n (i - 16 / n)

/-- A narrowing of two vectors of m-byte elements to n-byte ones. -/
def vNarrow (o : OpDab) (m n : Nat) (x64 : Bool) (f : RMode → Nat → Nat × FFlags) : SlotDef :=
  { g := o.g.toNat, vs := [o.a, o.b], vm := [dReg o.d], vd := some o.d, fp64 := x64, badMod := modCheck o.p false false true
    run := fun e w => w.outVF e o.d n (e.mask o.p) (e.vMerge o.d) (fun i => f e.rm (pairElem m (e.va o.a) (e.va o.b) i)) }

/-- A widening of a group of elements that field b selects; `lim` is the largest selector. -/
def vWiden (o : OpDab) (lim n : Nat) (x64 : Bool) (f : Vec → Nat → Nat → Nat × FFlags) : SlotDef :=
  { g := o.g.toNat, vs := [o.a], vm := [dReg o.d], vd := some o.d, fp64 := x64, bad := decide (lim < o.b.toNat)
    badMod := modCheck o.p false false true
    run := fun e w => w.outVF e o.d n (e.mask o.p) (e.vMerge o.d) (fun i => f (e.va o.a) o.b.toNat i) }

/-- `vcvt.bf16.f32` (R333). -/
def slotVcvtBf16F32 (o : OpDab) : SlotDef := vNarrow o 4 2 false (fun rm x => Fmt.f32.cvt .bf16 rm false x)
/-- `vcvt.f32.bf16` (R333). -/
def slotVcvtF32Bf16 (o : OpDab) : SlotDef := vWiden o 1 4 false (fun a h i => Fmt.bf16.cvt .f32 .rne false (vElem a 2 (4 * h + i)))
/-- `vcvt.f16.f32` (R333). -/
def slotVcvtF16F32 (o : OpDab) : SlotDef := vNarrow o 4 2 false (fun rm x => Fmt.f32.cvt .f16 rm false x)
/-- `vcvt.f32.f16` (R333). -/
def slotVcvtF32F16 (o : OpDab) : SlotDef := vWiden o 1 4 false (fun a h i => Fmt.f16.cvt .f32 .rne false (vElem a 2 (4 * h + i)))
/-- `vcvt.i32.f32` (R333). -/
def slotVcvtI32F32 (o : OpDa) : SlotDef :=
  vfUn o.p o.d o.a o.g 4 false (fun rm x =>
    let r := (Fmt.f32.decode x).toInt rm (-(2 ^ 31)) (2 ^ 31 - 1); (uWrap 32 r.1, r.2))
/-- `vcvt.f32.i32` (R333). -/
def slotVcvtF32I32 (o : OpDa) : SlotDef := vfUn o.p o.d o.a o.g 4 false (fun rm x => Fmt.f32.round rm false (FVal.ofInt (eS 4 x)))
/-- `vcvt.f64.f32` (R333). -/
def slotVcvtF64F32 (o : OpDab) : SlotDef := vWiden o 1 8 true (fun a h i => Fmt.f32.cvt .f64 .rne false (vElem a 4 (2 * h + i)))
/-- `vcvt.f32.f64` (R333). -/
def slotVcvtF32F64 (o : OpDab) : SlotDef := vNarrow o 8 4 true (fun rm x => Fmt.f64.cvt .f32 rm false x)

/-- Eight FP32 values narrowed to bytes 0 to 7, zero above (R334). -/
def vNarrow8 (o : OpDab) (f : Fmt) (sat : Bool) : SlotDef :=
  { g := o.g.toNat, vs := [o.a, o.b], vm := [dReg o.d], vd := some o.d, badMod := modCheck o.p false false true
    run := fun e w => w.outVF e o.d 1 (e.mask o.p) (e.vMerge o.d) (fun j =>
      if j < 8 then Fmt.f32.cvt f e.rm sat (pairElem 4 (e.va o.a) (e.va o.b) j) else (0, 0)) }
/-- `vcvt.e4m3.f32` (R334). -/
def slotVcvtE4m3F32 (o : OpDab) : SlotDef := vNarrow8 o .e4m3 false
/-- `vcvts.e4m3.f32` (R334). -/
def slotVcvtsE4m3F32 (o : OpDab) : SlotDef := vNarrow8 o .e4m3 true
/-- `vcvt.e5m2.f32` (R334). -/
def slotVcvtE5m2F32 (o : OpDab) : SlotDef := vNarrow8 o .e5m2 false
/-- `vcvt.e2m1.f32`: two elements to a byte in bytes 0 to 3 (R334). -/
def slotVcvtE2m1F32 (o : OpDab) : SlotDef :=
  { g := o.g.toNat, vs := [o.a, o.b], vm := [dReg o.d], vd := some o.d, badMod := modCheck o.p false false true
    run := fun e w => w.outVF e o.d 1 (e.mask o.p) (e.vMerge o.d) (fun j =>
      if j < 4 then
        let lo := Fmt.f32.cvt .e2m1 e.rm false (pairElem 4 (e.va o.a) (e.va o.b) (2 * j))
        let hi := Fmt.f32.cvt .e2m1 e.rm false (pairElem 4 (e.va o.a) (e.va o.b) (2 * j + 1))
        (lo.1 + 16 * hi.1, lo.2 ||| hi.2)
      else (0, 0)) }
/-- `vcvt.f32.e4m3` (R334). -/
def slotVcvtF32E4m3 (o : OpDab) : SlotDef := vWiden o 3 4 false (fun a q i => Fmt.e4m3.cvt .f32 .rne false (vElem a 1 (4 * q + i)))
/-- `vcvt.f32.e5m2` (R334). -/
def slotVcvtF32E5m2 (o : OpDab) : SlotDef := vWiden o 3 4 false (fun a q i => Fmt.e5m2.cvt .f32 .rne false (vElem a 1 (4 * q + i)))
/-- `vcvt.f32.e2m1` (R334). -/
def slotVcvtF32E2m1 (o : OpDab) : SlotDef :=
  vWiden o 7 4 false (fun a q i => Fmt.e2m1.cvt .f32 .rne false (packedElem true a.toNat (4 * q + i)))

/-! ### Decode tables and block scales (R335, R336) -/

/-- `vdec` (R335): a selector beyond the table's range is illegal. -/
def slotVdec (o : OpDabT2) : SlotDef :=
  { g := o.g.toNat, vs := [o.a], vm := [dReg o.d], vd := some o.d, badMod := modCheck o.p false false true
    check := fun e =>
      if (if (e.tables.decTab o.t.toNat).nib then 7 else 3) < o.b.toNat then some (BitVec.ofNat 64 e.word.toNat) else none
    run := fun e w =>
      let d := e.tables.decTab o.t.toNat
      w.outV e o.d (vMap 4 (e.mask o.p) (e.vMerge o.d)
        (fun i => toF32 (d.decode (packedElem d.nib (e.va o.a).toNat (4 * o.b.toNat + i))).quiet)) }

/-- `vquant` (R335): illegal through a table with `ENC` = 0 (R247). -/
def slotVquant (o : OpDabT2) : SlotDef :=
  { g := o.g.toNat, vs := [o.a, o.b], vm := [dReg o.d], vd := some o.d, badMod := modCheck o.p false false true
    check := fun e =>
      if (e.tables.decTab o.t.toNat).enc then none else some (BitVec.ofNat 64 (4 * 2 ^ 32 + o.t.toNat))
    run := fun e w =>
      let d := e.tables.decTab o.t.toNat
      let code (i : Nat) : Nat := d.encode (Fmt.f32.decode (pairElem 4 (e.va o.a) (e.va o.b) i))
      w.outV e o.d (vMap 1 (e.mask o.p) (e.vMerge o.d) (fun j =>
        if d.nib then (if j < 4 then code (2 * j) + 16 * code (2 * j + 1) else 0)
        else if j < 8 then code j else 0)) }

/-- `vbsc` (R336). -/
def slotVbsc (o : OpDab) : SlotDef :=
  let f := modFw o.p
  { g := o.g.toNat, vs := [o.a, o.b], vm := [dReg o.d], vd := some o.d, badMod := modCheck o.p true false true
    check := fun _ => if fwReserved f then some (fwVal f) else none
    run := fun e w =>
      let k := e.tables
      let sw := (e.va o.b).toNat
      let nib := elfNibble k (fwElf f)
      let q := sw / 2 ^ 8 % (if nib then 8 else 4)
      let bs := blockScale (fwBsf f) (sw % 256)
      let ts := tensorScale (fwTsf f) (sw / 2 ^ 32)
      w.outVF e o.d 4 (e.mask o.p) (e.vMerge o.d) (fun j =>
        scaledElement (elfValue k (fwElf f) (packedElem nib (e.va o.a).toNat (4 * q + j))) bs ts) }

/-! ### Dot products (R337, R338) -/

/-- Products of the elements with the flags that they raise. -/
def products (l : List (FVal × FVal)) : List FVal × FFlags :=
  (l.map (fun p => (p.1.mul p.2).1), l.foldl (fun f p => f ||| (p.1.mul p.2).2) 0)

/-- A narrow dot product in floating point: `m` elements in each 32-bit lane (R337). -/
def vDotF (o : OpDab) (m : Nat) (val : Nat → FVal) : SlotDef :=
  { g := o.g.toNat, vs := [o.a, o.b], vo := [dReg o.d], vd := some o.d, badMod := modCheck o.p false false true
    run := fun e w => w.outVF e o.d 4 (e.mask o.p) (e.vOld o.d) (fun i =>
      let el (v : Vec) (j : Nat) : FVal := val (vElem v 4 i / 2 ^ (32 / m * j) % 2 ^ (32 / m))
      let ps := products ((List.range m).map (fun j => (el (e.va o.a) j, el (e.va o.b) j)))
      let g := groupSumF ps.1
      let r := Fmt.f32.add .rne (vElem (e.vOld o.d) 4 i) g.1
      (r.1, ps.2 ||| g.2 ||| r.2)) }
/-- `vdot.e2m1` (R337). -/
def slotVdotE2m1 (o : OpDab) : SlotDef := vDotF o 8 Fmt.e2m1.decode
/-- `vdot.e4m3` (R337). -/
def slotVdotE4m3 (o : OpDab) : SlotDef := vDotF o 4 Fmt.e4m3.decode
/-- `vdot.e5m2`: NaN elements count as quiet (R337). -/
def slotVdotE5m2 (o : OpDab) : SlotDef := vDotF o 4 (fun c => (Fmt.e5m2.decode c).quiet)
/-- `vdot.bf16` (R337). -/
def slotVdotBf16 (o : OpDab) : SlotDef := vDotF o 2 Fmt.bf16.decode
/-- `vdot.f16` (R337). -/
def slotVdotF16 (o : OpDab) : SlotDef := vDotF o 2 Fmt.f16.decode
/-- `vdot.i8` (R337). -/
def slotVdotI8 (o : OpDab) : SlotDef :=
  { g := o.g.toNat, vs := [o.a, o.b], vo := [dReg o.d], vd := some o.d, badMod := modCheck o.p false false true
    run := fun e w => w.outV e o.d (vMap 4 (e.mask o.p) (e.vOld o.d) (fun i =>
      uWrap 32 ((List.range 4).foldl (fun acc j => acc + eS 1 (vElem (e.va o.a) 1 (4 * i + j)) * eS 1 (vElem (e.va o.b) 1 (4 * i + j)))
        (eS 4 (vElem (e.vOld o.d) 4 i))))) }

/-- `vdotb` (R338). -/
def slotVdotb (o : OpDab) : SlotDef :=
  let f := modFw o.p
  { g := o.g.toNat, vs := [o.a, o.b], vo := [dReg o.d], vd := some o.d
    badMod := match modCheck o.p true false true with
      | some m => some m
      | none => if bitsN f 8 2 = 1 ∨ bitsN f 8 2 = 2 then o.p else none
    check := fun e =>
      let n := if elfNibble e.tables (fwElf f) then 32 else 16
      if fwReserved f ∨ n % fwBlock f ≠ 0 then some (fwVal f) else none
    run := fun e w =>
      let k := e.tables
      let nib := elfNibble k (fwElf f)
      let n := if nib then 32 else 16
      let bsz := fwBlock f
      let val (v : Vec) (i : Nat) : FVal := elfValue k (fwElf f) (packedElem nib v.toNat i)
      w.outVF e o.d 4 (e.mask o.p) (e.vOld o.d) (fun j =>
        if j < n / bsz then
          let idx := (List.range bsz).map (· + j * bsz)
          let a := idx.map (val (e.va o.a))
          let b := idx.map (val (e.va o.b))
          let ps := products (a.zip b)
          let g := groupSumF ps.1
          let p1 := applyScale g.1 (blockScale (fwBsf f) (vElem (e.vOld o.d) 1 j)) (a.any FVal.isZero)
          let p2 := applyScale p1.1 (blockScale (fwBsf f) (vElem (e.vOld o.d) 1 (4 + j))) (b.any FVal.isZero)
          (p2.1, ps.2 ||| g.2 ||| p1.2 ||| p2.2)
        else (0, 0)) }

/-! ### Reductions and selection (R58, R339 to R341) -/

/-- One level of the pairwise tree; empty inputs pass the other on (R58). -/
def treeLevel (f : Nat → Nat → Nat × FFlags) : List (Option Nat × FFlags) → List (Option Nat × FFlags)
  | (x, fx) :: (y, fy) :: l =>
    (match x, y with
      | some a, some b => let r := f a b; (some r.1, fx ||| fy ||| r.2)
      | some a, none => (some a, fx ||| fy)
      | none, some b => (some b, fx ||| fy)
      | none, none => (none, fx ||| fy)) :: treeLevel f l
  | l => l

/-- The whole tree over a power of two of lanes (R58). -/
def treeReduce (f : Nat → Nat → Nat × FFlags) (l : List (Option Nat × FFlags)) : Option Nat × FFlags :=
  ((treeLevel f (treeLevel f (treeLevel f l))).head?).getD (none, 0)

/-- A horizontal reduction of n-byte elements: the mask selects sources, and D is written whole (R339). -/
def vReduce (o : OpDa) (n : Nat) (x64 : Bool) (empty : Nat) (pre : Nat → Nat) (f : RMode → Nat → Nat → Nat × FFlags) : SlotDef :=
  { g := o.g.toNat, vs := [o.a], vd := some o.d, fp64 := x64, badMod := modCheck o.p false false true
    run := fun e w =>
      let r := treeReduce (f e.rm) ((List.range (16 / n)).map (fun i =>
        (if enabled (e.mask o.p) n i then some (pre (vElem (e.va o.a) n i)) else none, (0 : FFlags))))
      (w.raise r.2).outV e o.d (BitVec.ofNat 128 (r.1.getD empty)) }
/-- `vhsum.f32` (R339). -/
def slotVhsumF32 (o : OpDa) : SlotDef := vReduce o 4 false 0 id (fun rm a b => Fmt.f32.add rm a b)
/-- `vhmin.f32` (R339). -/
def slotVhminF32 (o : OpDa) : SlotDef := vReduce o 4 false Fmt.f32.nan id (fun _ a b => Fmt.f32.minmax false a b)
/-- `vhmax.f32` (R339). -/
def slotVhmaxF32 (o : OpDa) : SlotDef := vReduce o 4 false Fmt.f32.nan id (fun _ a b => Fmt.f32.minmax true a b)
/-- `vhamax.f32` (R339). -/
def slotVhamaxF32 (o : OpDa) : SlotDef := vReduce o 4 false Fmt.f32.nan (clearSign 4) (fun _ a b => Fmt.f32.minmax true a b)
/-- `vhsum.i32` (R339). -/
def slotVhsumI32 (o : OpDa) : SlotDef := vReduce o 4 false 0 id (fun _ a b => ((a + b) % 2 ^ 32, 0))
/-- `vhsum.f16` (R339). -/
def slotVhsumF16 (o : OpDa) : SlotDef := vReduce o 2 false 0 id (fun rm a b => Fmt.f16.add rm a b)
/-- `vhsum.bf16` (R339). -/
def slotVhsumBf16 (o : OpDa) : SlotDef := vReduce o 2 false 0 id (fun rm a b => Fmt.bf16.add rm a b)
/-- `vhsum.f64` (R339). -/
def slotVhsumF64 (o : OpDa) : SlotDef := vReduce o 8 true 0 id (fun rm a b => Fmt.f64.add rm a b)

/-- Does entry x rank above entry y (R340)? Scores of format f; every NaN ranks alike, below −∞. -/
def ranksAbove (f : Fmt) (half : Nat) (x y : Nat) : Bool :=
  let sx := f.decode (x / 2 ^ half)
  let sy := f.decode (y / 2 ^ half)
  let ix := x % 2 ^ half
  let iy := y % 2 ^ half
  if sx.isNan ∧ sy.isNan then decide (ix < iy)
  else if sx.isNan then false
  else if sy.isNan then true
  else if sy.tlt sx then true
  else if sx.tlt sy then false
  else decide (ix < iy)

/-- Inserts an entry after all those it does not rank above. -/
def rankInsert (f : Fmt) (half : Nat) (x : Nat) : List Nat → List Nat
  | [] => [x]
  | y :: l => if ranksAbove f half x y then x :: y :: l else y :: rankInsert f half x l

/-- `vtopk`: the n / 2 … highest entries of A and B, entries of n bytes (R340). -/
def vTopk (o : OpDab) (n : Nat) (f : Fmt) : SlotDef :=
  { g := o.g.toNat, vs := [o.a, o.b], vd := some o.d, badMod := modCheck o.p false false true
    run := fun e w =>
      let cnt := 16 / n
      let ents (v : Vec) : List Nat := ((List.range cnt).filter (enabled (e.mask o.p) n)).map (vElem v n)
      let sorted := (ents (e.va o.a) ++ ents (e.va o.b)).foldl (fun l x => rankInsert f (4 * n) x l) []
      let fill := f.nan * 2 ^ (4 * n) + (2 ^ (4 * n) - 1)
      w.outV e o.d (vPack n ((List.range cnt).map (fun i => sorted.getD i fill))) }
/-- `vtopk.f32` (R340). -/
def slotVtopkF32 (o : OpDab) : SlotDef := vTopk o 8 .f32
/-- `vtopk.bf16` (R340). -/
def slotVtopkBf16 (o : OpDab) : SlotDef := vTopk o 4 .bf16
/-- `vamax` (R341). -/
def vAmax (o : OpDab) (n : Nat) (f : Fmt) : SlotDef :=
  vfBin o.p o.d o.a o.b o.g n false (fun _ a b => f.minmax true b (clearSign n a))
/-- `vamax.f32` (R341). -/
def slotVamaxF32 (o : OpDab) : SlotDef := vAmax o 4 .f32
/-- `vamax.bf16` (R341). -/
def slotVamaxBf16 (o : OpDab) : SlotDef := vAmax o 2 .bf16
/-- `vamax.f16` (R341). -/
def slotVamaxF16 (o : OpDab) : SlotDef := vAmax o 2 .f16
/-- `vcurve` (R342). -/
def slotVcurve (o : OpDaT2) : SlotDef :=
  { g := o.g.toNat, vs := [o.a], vm := [dReg o.d], vd := some o.d, badMod := modCheck o.p false false true
    run := fun e w => w.outVF e o.d 4 (e.mask o.p) (e.vMerge o.d)
      (fun i => curveEval (e.tables.curve o.t.toNat) (vElem (e.va o.a) 4 i)) }

/-! ### Meanings -/

/-- VCVT_BF16_F32 (R333). -/
def execVcvtBf16F32 (o : OpDab) (s : State) : Out := runSlot (encode (.vcvtBf16F32 o)) (slotVcvtBf16F32 o) s

/-- VCVT_F32_BF16 (R333). -/
def execVcvtF32Bf16 (o : OpDab) (s : State) : Out := runSlot (encode (.vcvtF32Bf16 o)) (slotVcvtF32Bf16 o) s

/-- VCVT_F16_F32 (R333). -/
def execVcvtF16F32 (o : OpDab) (s : State) : Out := runSlot (encode (.vcvtF16F32 o)) (slotVcvtF16F32 o) s

/-- VCVT_F32_F16 (R333). -/
def execVcvtF32F16 (o : OpDab) (s : State) : Out := runSlot (encode (.vcvtF32F16 o)) (slotVcvtF32F16 o) s

/-- VCVT_I32_F32 (R333). -/
def execVcvtI32F32 (o : OpDa) (s : State) : Out := runSlot (encode (.vcvtI32F32 o)) (slotVcvtI32F32 o) s

/-- VCVT_F32_I32 (R333). -/
def execVcvtF32I32 (o : OpDa) (s : State) : Out := runSlot (encode (.vcvtF32I32 o)) (slotVcvtF32I32 o) s

/-- VCVT_F64_F32 (R333). -/
def execVcvtF64F32 (o : OpDab) (s : State) : Out := runSlot (encode (.vcvtF64F32 o)) (slotVcvtF64F32 o) s

/-- VCVT_F32_F64 (R333). -/
def execVcvtF32F64 (o : OpDab) (s : State) : Out := runSlot (encode (.vcvtF32F64 o)) (slotVcvtF32F64 o) s

/-- VCVT_E4M3_F32 (R334). -/
def execVcvtE4m3F32 (o : OpDab) (s : State) : Out := runSlot (encode (.vcvtE4m3F32 o)) (slotVcvtE4m3F32 o) s

/-- VCVTS_E4M3_F32 (R334). -/
def execVcvtsE4m3F32 (o : OpDab) (s : State) : Out := runSlot (encode (.vcvtsE4m3F32 o)) (slotVcvtsE4m3F32 o) s

/-- VCVT_E5M2_F32 (R334). -/
def execVcvtE5m2F32 (o : OpDab) (s : State) : Out := runSlot (encode (.vcvtE5m2F32 o)) (slotVcvtE5m2F32 o) s

/-- VCVT_E2M1_F32 (R334). -/
def execVcvtE2m1F32 (o : OpDab) (s : State) : Out := runSlot (encode (.vcvtE2m1F32 o)) (slotVcvtE2m1F32 o) s

/-- VCVT_F32_E4M3 (R334). -/
def execVcvtF32E4m3 (o : OpDab) (s : State) : Out := runSlot (encode (.vcvtF32E4m3 o)) (slotVcvtF32E4m3 o) s

/-- VCVT_F32_E5M2 (R334). -/
def execVcvtF32E5m2 (o : OpDab) (s : State) : Out := runSlot (encode (.vcvtF32E5m2 o)) (slotVcvtF32E5m2 o) s

/-- VCVT_F32_E2M1 (R334). -/
def execVcvtF32E2m1 (o : OpDab) (s : State) : Out := runSlot (encode (.vcvtF32E2m1 o)) (slotVcvtF32E2m1 o) s

/-- VDEC (R335). -/
def execVdec (o : OpDabT2) (s : State) : Out := runSlot (encode (.vdec o)) (slotVdec o) s

/-- VQUANT (R335). -/
def execVquant (o : OpDabT2) (s : State) : Out := runSlot (encode (.vquant o)) (slotVquant o) s

/-- VBSC (R336). -/
def execVbsc (o : OpDab) (s : State) : Out := runSlot (encode (.vbsc o)) (slotVbsc o) s

/-- VDOT_E2M1 (R337). -/
def execVdotE2m1 (o : OpDab) (s : State) : Out := runSlot (encode (.vdotE2m1 o)) (slotVdotE2m1 o) s

/-- VDOT_E4M3 (R337). -/
def execVdotE4m3 (o : OpDab) (s : State) : Out := runSlot (encode (.vdotE4m3 o)) (slotVdotE4m3 o) s

/-- VDOT_E5M2 (R337). -/
def execVdotE5m2 (o : OpDab) (s : State) : Out := runSlot (encode (.vdotE5m2 o)) (slotVdotE5m2 o) s

/-- VDOT_I8 (R337). -/
def execVdotI8 (o : OpDab) (s : State) : Out := runSlot (encode (.vdotI8 o)) (slotVdotI8 o) s

/-- VDOT_BF16 (R337). -/
def execVdotBf16 (o : OpDab) (s : State) : Out := runSlot (encode (.vdotBf16 o)) (slotVdotBf16 o) s

/-- VDOT_F16 (R337). -/
def execVdotF16 (o : OpDab) (s : State) : Out := runSlot (encode (.vdotF16 o)) (slotVdotF16 o) s

/-- VDOTB (R338). -/
def execVdotb (o : OpDab) (s : State) : Out := runSlot (encode (.vdotb o)) (slotVdotb o) s

/-- VHSUM_F32 (R339). -/
def execVhsumF32 (o : OpDa) (s : State) : Out := runSlot (encode (.vhsumF32 o)) (slotVhsumF32 o) s

/-- VHMIN_F32 (R339). -/
def execVhminF32 (o : OpDa) (s : State) : Out := runSlot (encode (.vhminF32 o)) (slotVhminF32 o) s

/-- VHMAX_F32 (R339). -/
def execVhmaxF32 (o : OpDa) (s : State) : Out := runSlot (encode (.vhmaxF32 o)) (slotVhmaxF32 o) s

/-- VHAMAX_F32 (R339). -/
def execVhamaxF32 (o : OpDa) (s : State) : Out := runSlot (encode (.vhamaxF32 o)) (slotVhamaxF32 o) s

/-- VHSUM_I32 (R339). -/
def execVhsumI32 (o : OpDa) (s : State) : Out := runSlot (encode (.vhsumI32 o)) (slotVhsumI32 o) s

/-- VHSUM_F16 (R339). -/
def execVhsumF16 (o : OpDa) (s : State) : Out := runSlot (encode (.vhsumF16 o)) (slotVhsumF16 o) s

/-- VHSUM_BF16 (R339). -/
def execVhsumBf16 (o : OpDa) (s : State) : Out := runSlot (encode (.vhsumBf16 o)) (slotVhsumBf16 o) s

/-- VHSUM_F64 (R339). -/
def execVhsumF64 (o : OpDa) (s : State) : Out := runSlot (encode (.vhsumF64 o)) (slotVhsumF64 o) s

/-- VTOPK_F32 (R340). -/
def execVtopkF32 (o : OpDab) (s : State) : Out := runSlot (encode (.vtopkF32 o)) (slotVtopkF32 o) s

/-- VTOPK_BF16 (R340). -/
def execVtopkBf16 (o : OpDab) (s : State) : Out := runSlot (encode (.vtopkBf16 o)) (slotVtopkBf16 o) s

/-- VAMAX_F32 (R341). -/
def execVamaxF32 (o : OpDab) (s : State) : Out := runSlot (encode (.vamaxF32 o)) (slotVamaxF32 o) s

/-- VAMAX_BF16 (R341). -/
def execVamaxBf16 (o : OpDab) (s : State) : Out := runSlot (encode (.vamaxBf16 o)) (slotVamaxBf16 o) s

/-- VAMAX_F16 (R341). -/
def execVamaxF16 (o : OpDab) (s : State) : Out := runSlot (encode (.vamaxF16 o)) (slotVamaxF16 o) s

/-- VCURVE (R342). -/
def execVcurve (o : OpDaT2) (s : State) : Out := runSlot (encode (.vcurve o)) (slotVcurve o) s

end Sys2Proof.Machine
end

