-- ==== Sys2Proof/Machine/Slots.lean ====
section
/-! DEFINITION. The description of the slot that each instruction of the opcode maps is; the X prefix and the events are no
slots of a bundle. -/

namespace Sys2Proof.Machine

/-- A word that is no instruction of its own: it is illegal when it executes (R292). -/
def noSlot : SlotDef := { bad := true, run := fun _ w => .ok w }

/-- The slot that an instruction is (R285). -/
def slotOf : Instr → SlotDef
  | .add o => slotAdd o
  | .sub o => slotSub o
  | .and o => slotAnd o
  | .or o => slotOr o
  | .xor o => slotXor o
  | .andn o => slotAndn o
  | .sll o => slotSll o
  | .srl o => slotSrl o
  | .sra o => slotSra o
  | .mul o => slotMul o
  | .mulh o => slotMulh o
  | .mulhu o => slotMulhu o
  | .div o => slotDiv o
  | .divu o => slotDivu o
  | .rem o => slotRem o
  | .remu o => slotRemu o
  | .min o => slotMin o
  | .max o => slotMax o
  | .minu o => slotMinu o
  | .maxu o => slotMaxu o
  | .clz o => slotClz o
  | .ctz o => slotCtz o
  | .popc o => slotPopc o
  | .bext o => slotBext o
  | .bextu o => slotBextu o
  | .bins o => slotBins o
  | .cmpeq o => slotCmpeq o
  | .cmpne o => slotCmpne o
  | .cmplt o => slotCmplt o
  | .cmpge o => slotCmpge o
  | .cmpltu o => slotCmpltu o
  | .cmpgeu o => slotCmpgeu o
  | .pand o => slotPand o
  | .por o => slotPor o
  | .pxor o => slotPxor o
  | .pandn o => slotPandn o
  | .faddF32 o => slotFaddF32 o
  | .fsubF32 o => slotFsubF32 o
  | .fmulF32 o => slotFmulF32 o
  | .fdivF32 o => slotFdivF32 o
  | .fminF32 o => slotFminF32 o
  | .fmaxF32 o => slotFmaxF32 o
  | .fsqrtF32 o => slotFsqrtF32 o
  | .fcmpeqF32 o => slotFcmpeqF32 o
  | .fcmpltF32 o => slotFcmpltF32 o
  | .fcmpleF32 o => slotFcmpleF32 o
  | .fcmpunF32 o => slotFcmpunF32 o
  | .fmaddF32 o => slotFmaddF32 o
  | .fmsubF32 o => slotFmsubF32 o
  | .fnmaddF32 o => slotFnmaddF32 o
  | .fnmsubF32 o => slotFnmsubF32 o
  | .fcvtF32I64 o => slotFcvtF32I64 o
  | .fcvtF32U64 o => slotFcvtF32U64 o
  | .fcvtI64F32 o => slotFcvtI64F32 o
  | .fcvtU64F32 o => slotFcvtU64F32 o
  | .fcvtBf16F32 o => slotFcvtBf16F32 o
  | .fcvtF32Bf16 o => slotFcvtF32Bf16 o
  | .fcvtF16F32 o => slotFcvtF16F32 o
  | .fcvtF32F16 o => slotFcvtF32F16 o
  | .addi o => slotAddi o
  | .andi o => slotAndi o
  | .ori o => slotOri o
  | .xori o => slotXori o
  | .slli o => slotSlli o
  | .srli o => slotSrli o
  | .srai o => slotSrai o
  | .cmpeqi o => slotCmpeqi o
  | .cmplti o => slotCmplti o
  | .cmpltui o => slotCmpltui o
  | .li o => slotLi o
  | .adr o => slotAdr o
  | .loop o => slotLoop o
  | .br o => slotBr o
  | .brn o => slotBrn o
  | .call o => slotCall o
  | .calln o => slotCalln o
  | .jr o => slotJr o
  | .callr o => slotCallr o
  | .crr o => slotCrr o
  | .crw o => slotCrw o
  | .yield o => slotYield o
  | .waitw o => slotWaitw o
  | .migr o => slotMigr o
  | .realign o => slotRealign o
  | .brk o => slotBrk o
  | .sys o => slotSys o
  | .tret o => slotTret o
  | .uiret o => slotUiret o
  | .start o => slotStart o
  | .reap o => slotReap o
  | .pairon o => slotPairon o
  | .pairoff o => slotPairoff o
  | .placept o => slotPlacept o
  | .ldtab o => slotLdtab o
  | .ldcurve o => slotLdcurve o
  | .iinv o => slotIinv o
  | .iinva o => slotIinva o
  | .chinst o => slotChinst o
  | .rgcmd o => slotRgcmd o
  | .xinvl o => slotXinvl o
  | .xinvc o => slotXinvc o
  | .xinva o => slotXinva o
  | .xinvt o => slotXinvt o
  | .xsync o => slotXsync o
  | .vadd o => slotVadd o
  | .vsub o => slotVsub o
  | .vmul o => slotVmul o
  | .vmla o => slotVmla o
  | .vfma o => slotVfma o
  | .vdiv o => slotVdiv o
  | .vsqrt o => slotVsqrt o
  | .vmin o => slotVmin o
  | .vmax o => slotVmax o
  | .vminu o => slotVminu o
  | .vmaxu o => slotVmaxu o
  | .vadds o => slotVadds o
  | .vsubs o => slotVsubs o
  | .vand o => slotVand o
  | .vor o => slotVor o
  | .vxor o => slotVxor o
  | .vandn o => slotVandn o
  | .vsel o => slotVsel o
  | .vsll o => slotVsll o
  | .vsrl o => slotVsrl o
  | .vsra o => slotVsra o
  | .vcmpeq o => slotVcmpeq o
  | .vcmplt o => slotVcmplt o
  | .vcmpltu o => slotVcmpltu o
  | .vcmple o => slotVcmple o
  | .mand o => slotMand o
  | .mor o => slotMor o
  | .mxor o => slotMxor o
  | .mandn o => slotMandn o
  | .mset o => slotMset o
  | .vshuf o => slotVshuf o
  | .vzipl o => slotVzipl o
  | .vziph o => slotVziph o
  | .vuzpe o => slotVuzpe o
  | .vuzpo o => slotVuzpo o
  | .vsplat o => slotVsplat o
  | .vget o => slotVget o
  | .vput o => slotVput o
  | .vcvtBf16F32 o => slotVcvtBf16F32 o
  | .vcvtF32Bf16 o => slotVcvtF32Bf16 o
  | .vcvtF16F32 o => slotVcvtF16F32 o
  | .vcvtF32F16 o => slotVcvtF32F16 o
  | .vcvtI32F32 o => slotVcvtI32F32 o
  | .vcvtF32I32 o => slotVcvtF32I32 o
  | .vcvtF64F32 o => slotVcvtF64F32 o
  | .vcvtF32F64 o => slotVcvtF32F64 o
  | .vcvtE4m3F32 o => slotVcvtE4m3F32 o
  | .vcvtsE4m3F32 o => slotVcvtsE4m3F32 o
  | .vcvtE5m2F32 o => slotVcvtE5m2F32 o
  | .vcvtE2m1F32 o => slotVcvtE2m1F32 o
  | .vcvtF32E4m3 o => slotVcvtF32E4m3 o
  | .vcvtF32E5m2 o => slotVcvtF32E5m2 o
  | .vcvtF32E2m1 o => slotVcvtF32E2m1 o
  | .vdec o => slotVdec o
  | .vquant o => slotVquant o
  | .vbsc o => slotVbsc o
  | .vdotE2m1 o => slotVdotE2m1 o
  | .vdotE4m3 o => slotVdotE4m3 o
  | .vdotE5m2 o => slotVdotE5m2 o
  | .vdotI8 o => slotVdotI8 o
  | .vdotBf16 o => slotVdotBf16 o
  | .vdotF16 o => slotVdotF16 o
  | .vdotb o => slotVdotb o
  | .vhsumF32 o => slotVhsumF32 o
  | .vhminF32 o => slotVhminF32 o
  | .vhmaxF32 o => slotVhmaxF32 o
  | .vhamaxF32 o => slotVhamaxF32 o
  | .vhsumI32 o => slotVhsumI32 o
  | .vhsumF16 o => slotVhsumF16 o
  | .vhsumBf16 o => slotVhsumBf16 o
  | .vhsumF64 o => slotVhsumF64 o
  | .vtopkF32 o => slotVtopkF32 o
  | .vtopkBf16 o => slotVtopkBf16 o
  | .vamaxF32 o => slotVamaxF32 o
  | .vamaxBf16 o => slotVamaxBf16 o
  | .vamaxF16 o => slotVamaxF16 o
  | .vcurve o => slotVcurve o
  | .vabsF32 o => slotVabsF32 o
  | .vnegF32 o => slotVnegF32 o
  | .vabsI32 o => slotVabsI32 o
  | .vnegI32 o => slotVnegI32 o
  | .vabsF16 o => slotVabsF16 o
  | .vnegF16 o => slotVnegF16 o
  | .vabsF64 o => slotVabsF64 o
  | .vnegF64 o => slotVnegF64 o
  | .ldU8R o => slotLdU8R o
  | .ldI8R o => slotLdI8R o
  | .ldU16R o => slotLdU16R o
  | .ldI16R o => slotLdI16R o
  | .ldU32R o => slotLdU32R o
  | .ldI32R o => slotLdI32R o
  | .ldU64R o => slotLdU64R o
  | .vldR o => slotVldR o
  | .stU8R o => slotStU8R o
  | .stU16R o => slotStU16R o
  | .stU32R o => slotStU32R o
  | .stU64R o => slotStU64R o
  | .vstR o => slotVstR o
  | .ldU8I o => slotLdU8I o
  | .ldI8I o => slotLdI8I o
  | .ldU16I o => slotLdU16I o
  | .ldI16I o => slotLdI16I o
  | .ldU32I o => slotLdU32I o
  | .ldI32I o => slotLdI32I o
  | .ldU64I o => slotLdU64I o
  | .vldI o => slotVldI o
  | .stU8I o => slotStU8I o
  | .stU16I o => slotStU16I o
  | .stU32I o => slotStU32I o
  | .stU64I o => slotStU64I o
  | .vstI o => slotVstI o
  | .rel o => slotRel o
  | .acq o => slotAcq o
  | .acqall o => slotAcqall o
  | .lmark o => slotLmark o
  | .ldrop o => slotLdrop o
  | .fence o => slotFence o
  | .drain o => slotDrain o
  | .pref o => slotPref o
  | .radd o => slotRadd o
  | .vradd o => slotVradd o
  | .ldpt o => slotLdpt o
  | .ldpn o => slotLdpn o
  | .pupd o => slotPupd o
  | .padam o => slotPadam o
  | .stq o => slotStq o
  | .scommit o => slotScommit o
  | .scalc o => slotScalc o
  | .rpush o => slotRpush o
  | .rpop o => slotRpop o
  | .sbind o => slotSbind o
  | .sfree o => slotSfree o
  | .scld o => slotScld o
  | .scst o => slotScst o
  | .scadd o => slotScadd o
  | .scswp o => slotScswp o
  | .sccas o => slotSccas o
  | .scmin o => slotScmin o
  | .scmax o => slotScmax o
  | .scminu o => slotScminu o
  | .scmaxu o => slotScmaxu o
  | .mmE2m1 o => slotMmE2m1 o
  | .mmE4m3 o => slotMmE4m3 o
  | .mmE5m2 o => slotMmE5m2 o
  | .mmBf16 o => slotMmBf16 o
  | .mmF16 o => slotMmF16 o
  | .mmd o => slotMmd o
  | .mmb o => slotMmb o
  | .mspE2m1 o => slotMspE2m1 o
  | .mspE4m3 o => slotMspE4m3 o
  | .mspE5m2 o => slotMspE5m2 o
  | .mspBf16 o => slotMspBf16 o
  | .mspF16 o => slotMspF16 o
  | .mspd o => slotMspd o
  | .mspb o => slotMspb o
  | .mmgE2m1 o => slotMmgE2m1 o
  | .mmgE4m3 o => slotMmgE4m3 o
  | .mmgE5m2 o => slotMmgE5m2 o
  | .mmgBf16 o => slotMmgBf16 o
  | .mmgF16 o => slotMmgF16 o
  | .mmgd o => slotMmgd o
  | .mmgb o => slotMmgb o
  | .mzero o => slotMzero o
  | .mtld o => slotMtld o
  | .mtst o => slotMtst o
  | .mepi o => slotMepi o
  | .copy o => slotCopy o
  | .copy2 o => slotCopy2 o
  | .copyr o => slotCopyr o
  | .ccan o => slotCcan o
  | .send o => slotSend o
  | .recv o => slotRecv o
  | .eos o => slotEos o
  | .bcast o => slotBcast o
  | .route o => slotRoute o
  | .rclose o => slotRclose o
  | .launch o => slotLaunch o
  | .spawn o => slotSpawn o
  | .spawnc o => slotSpawnc o
  | .cset o => slotCset o
  | .cadd o => slotCadd o
  | .crd o => slotCrd o
  | .carm o => slotCarm o
  | .cdisarm o => slotCdisarm o
  | .cstage o => slotCstage o
  | .waitc o => slotWaitc o
  | .waitct o => slotWaitct o
  | .mpost o => slotMpost o
  | .mtake o => slotMtake o
  | .xPrefix _ => noSlot
  | .powerOn => noSlot
  | .hostLinkTrain _ _ _ _ => noSlot
  | .hostLinkDown => noSlot
  | .gomondPortTrain _ _ => noSlot
  | .gomondPortDown _ => noSlot
  | .channelRouteLoss _ _ => noSlot
  | .thermalThrottle _ _ => noSlot
  | .thermalShutdown _ => noSlot
  | .temperatureSample _ _ => noSlot
  | .timeRateAdjust _ => noSlot
  | .registerWrite _ _ => noSlot
  | .translationRootWrite _ _ => noSlot
  | .ringDescriptorWrite _ _ _ => noSlot
  | .logDescriptorWrite _ _ => noSlot
  | .logDescriptorEffect _ => noSlot
  | .logSpillDescriptorWrite _ _ => noSlot
  | .arrivalSpillDescriptorWrite _ _ => noSlot
  | .mhbWrite _ _ _ => noSlot
  | .chronographRequest _ _ => noSlot
  | .hostLaunchPost _ _ => noSlot
  | .regionCreate => noSlot
  | .regionChange => noSlot
  | .regionDestroy => noSlot
  | .regionPreempt => noSlot
  | .regionResume => noSlot
  | .regionLaunch => noSlot
  | .attestationQuote => noSlot
  | .handOver => noSlot
  | .hostEventQueueSetup => noSlot
  | .stageImagePart => noSlot
  | .probationCommit _ => noSlot
  | .heartbeatFallback _ => noSlot
  | .bodyRestart _ => noSlot
  | .clusterTlbLookup _ _ => noSlot
  | .walkComplete _ _ => noSlot
  | .invalidationComplete _ => noSlot
  | .fetchPortServe _ => noSlot
  | .fetchLineDeliver _ => noSlot
  | .icacheFillComplete _ => noSlot
  | .pendingResultArrive _ => noSlot
  | .realignRelease _ _ => noSlot
  | .workerTrapStop _ _ => noSlot
  | .trapHandlerEntry _ => noSlot
  | .userInterruptEntry _ _ => noSlot
  | .matrixFaultStop _ => noSlot
  | .freezeEnd _ => noSlot
  | .hostLineWriteback _ => noSlot
  | .hostSnoop _ => noSlot
  | .hostCxlMemAccess _ _ _ => noSlot
  | .shipperSend _ => noSlot
  | .homeRecordArrive _ => noSlot
  | .batchApply _ _ _ => noSlot
  | .forcedCompaction _ => noSlot
  | .recordArrival _ => noSlot
  | .spillRefill _ => noSlot
  | .dispatch _ => noSlot
  | .loadComplete _ _ => noSlot
  | .dispenserPlace _ => noSlot
  | .extensionMigrate _ _ => noSlot
  | .frameRestoreDispatch _ => noSlot
  | .frameMoveRetry _ _ => noSlot
  | .deadlockDetect _ => noSlot
  | .preemptArrive _ => noSlot
  | .preemptSave _ => noSlot
  | .resumeRestore _ => noSlot
  | .regionFaultKill => noSlot
  | .placementApply _ _ => noSlot
  | .counterCycleUpdate _ _ => noSlot
  | .triggerActionResume _ => noSlot
  | .waitcTimeout _ _ => noSlot
  | .packetAcknowledge _ => noSlot
  | .copyPacketLand _ _ _ => noSlot
  | .copyEnd _ _ => noSlot
  | .copyCancelArrive _ _ _ => noSlot
  | .copyTimeout _ _ => noSlot
  | .sendEngineInject _ => noSlot
  | .channelElementLand _ => noSlot
  | .creditReturn _ => noSlot
  | .recvCopyComplete _ => noSlot
  | .treeNodeCombine _ _ _ => noSlot
  | .broadcastLand _ => noSlot
  | .mailboxArrive _ => noSlot
  | .completionRecordPost _ => noSlot
  | .scaleOpPerform _ => noSlot
  | .syncCellPerform _ => noSlot
  | .tableLoadEffect _ _ => noSlot
  | .patternReadahead _ _ _ => noSlot
  | .routeJobStart _ => noSlot
  | .permitRequestArrive _ => noSlot
  | .roundCloseArrive _ => noSlot
  | .permitAnswer _ => noSlot
  | .binRowLand _ => noSlot
  | .routeJobEnd _ => noSlot
  | .rcloseRun _ => noSlot
  | .closingCountArrive _ => noSlot
  | .matrixStepStart _ => noSlot
  | .matrixStepRetire _ => noSlot
  | .mmgGroupTake _ _ => noSlot
  | .mmgComplete _ _ => noSlot
  | .epilogueStart _ => noSlot
  | .epilogueRowEmit _ => noSlot
  | .epilogueComplete _ => noSlot
  | .mtldComplete _ => noSlot
  | .comparePoint _ _ => noSlot
  | .tieBreakResult _ _ => noSlot
  | .binMove _ => noSlot
  | .selfTestResult _ _ _ => noSlot
  | .binRecovery _ => noSlot
  | .directStorePerform _ => noSlot

/-- The slot of a word of major 0x6E (R292). -/
def slotOf6E (p : Option (BitVec 24)) (w : SlotWord) : SlotDef :=
  match (fMinor w).toNat with
  | 0 => slotScmaxu ⟨p, fD w, fA w, fB w, fG w⟩
  | _ => noSlot

/-- The slot of a word of major 0x70 (R292). -/
def slotOf70 (p : Option (BitVec 24)) (w : SlotWord) : SlotDef :=
  match (fMinor w).toNat with
  | 0 => if w &&& 0x00800000#32 = 0#32 then slotMmE2m1 ⟨p, fT w, fA w, fB w, fG w⟩ else noSlot
  | 1 => if w &&& 0x00800000#32 = 0#32 then slotMmE4m3 ⟨p, fT w, fA w, fB w, fG w⟩ else noSlot
  | 2 => if w &&& 0x00800000#32 = 0#32 then slotMmE5m2 ⟨p, fT w, fA w, fB w, fG w⟩ else noSlot
  | 3 => if w &&& 0x00800000#32 = 0#32 then slotMmBf16 ⟨p, fT w, fA w, fB w, fG w⟩ else noSlot
  | 4 => if w &&& 0x00800000#32 = 0#32 then slotMmF16 ⟨p, fT w, fA w, fB w, fG w⟩ else noSlot
  | 5 => if w &&& 0x00800000#32 = 0#32 then slotMmd ⟨p, fT w, fA w, fB w, fG w⟩ else noSlot
  | 6 => if w &&& 0x00800000#32 = 0#32 then slotMmb ⟨p, fT w, fA w, fB w, fG w⟩ else noSlot
  | _ => noSlot

/-- The slot of a word of major 0x71 (R292). -/
def slotOf71 (p : Option (BitVec 24)) (w : SlotWord) : SlotDef :=
  match (fMinor w).toNat with
  | 0 => if w &&& 0x00800000#32 = 0#32 then slotMspE2m1 ⟨p, fT w, fA w, fB w, fG w⟩ else noSlot
  | 1 => if w &&& 0x00800000#32 = 0#32 then slotMspE4m3 ⟨p, fT w, fA w, fB w, fG w⟩ else noSlot
  | 2 => if w &&& 0x00800000#32 = 0#32 then slotMspE5m2 ⟨p, fT w, fA w, fB w, fG w⟩ else noSlot
  | 3 => if w &&& 0x00800000#32 = 0#32 then slotMspBf16 ⟨p, fT w, fA w, fB w, fG w⟩ else noSlot
  | 4 => if w &&& 0x00800000#32 = 0#32 then slotMspF16 ⟨p, fT w, fA w, fB w, fG w⟩ else noSlot
  | 5 => if w &&& 0x00800000#32 = 0#32 then slotMspd ⟨p, fT w, fA w, fB w, fG w⟩ else noSlot
  | 6 => if w &&& 0x00800000#32 = 0#32 then slotMspb ⟨p, fT w, fA w, fB w, fG w⟩ else noSlot
  | _ => noSlot

/-- The slot of a word of major 0x72 (R292). -/
def slotOf72 (p : Option (BitVec 24)) (w : SlotWord) : SlotDef :=
  match (fMinor w).toNat with
  | 0 => if w &&& 0x00800000#32 = 0#32 then slotMmgE2m1 ⟨p, fT w, fA w, fB w, fG w⟩ else noSlot
  | 1 => if w &&& 0x00800000#32 = 0#32 then slotMmgE4m3 ⟨p, fT w, fA w, fB w, fG w⟩ else noSlot
  | 2 => if w &&& 0x00800000#32 = 0#32 then slotMmgE5m2 ⟨p, fT w, fA w, fB w, fG w⟩ else noSlot
  | 3 => if w &&& 0x00800000#32 = 0#32 then slotMmgBf16 ⟨p, fT w, fA w, fB w, fG w⟩ else noSlot
  | 4 => if w &&& 0x00800000#32 = 0#32 then slotMmgF16 ⟨p, fT w, fA w, fB w, fG w⟩ else noSlot
  | 5 => if w &&& 0x00800000#32 = 0#32 then slotMmgd ⟨p, fT w, fA w, fB w, fG w⟩ else noSlot
  | 6 => if w &&& 0x00800000#32 = 0#32 then slotMmgb ⟨p, fT w, fA w, fB w, fG w⟩ else noSlot
  | _ => noSlot

/-- The slot of a word of major 0x73 (R292). -/
def slotOf73 (p : Option (BitVec 24)) (w : SlotWord) : SlotDef :=
  match (fMinor w).toNat with
  | 0 => if w &&& 0x0083FFC0#32 = 0#32 then slotMzero ⟨p, fT w, fG w⟩ else noSlot
  | 1 => if w &&& 0x00800000#32 = 0#32 then slotMtld ⟨p, fT w, fA w, fB w, fG w⟩ else noSlot
  | 2 => if w &&& 0x00800000#32 = 0#32 then slotMtst ⟨p, fT w, fA w, fB w, fG w⟩ else noSlot
  | 3 => if w &&& 0x00800FC0#32 = 0#32 then slotMepi ⟨p, fT w, fA w, fG w⟩ else noSlot
  | _ => noSlot

/-- The slot of a word of major 0x74 (R292). -/
def slotOf74 (p : Option (BitVec 24)) (w : SlotWord) : SlotDef :=
  match (fMinor w).toNat with
  | 0 => slotCopy ⟨p, fD w, fA w, fB w, fG w⟩
  | 1 => slotCopy2 ⟨p, fD w, fA w, fB w, fG w⟩
  | 2 => slotCopyr ⟨p, fD w, fA w, fB w, fG w⟩
  | 3 => if w &&& 0x00FC0FC0#32 = 0#32 then slotCcan ⟨p, fA w, fG w⟩ else noSlot
  | _ => noSlot

/-- The slot of a word of major 0x75 (R292). -/
def slotOf75 (p : Option (BitVec 24)) (w : SlotWord) : SlotDef :=
  slotSend ⟨p, fD w, fA w, fI9 w, fG w⟩

/-- The slot of a word of major 0x76 (R292). -/
def slotOf76 (p : Option (BitVec 24)) (w : SlotWord) : SlotDef :=
  slotRecv ⟨p, fD w, fA w, fI9 w, fG w⟩

/-- The slot of a word of major 0x77 (R292). -/
def slotOf77 (p : Option (BitVec 24)) (w : SlotWord) : SlotDef :=
  if w &&& 0x00FFF000#32 = 0#32 then slotEos ⟨p, fI9 w, fG w⟩ else noSlot

/-- The slot of a word of major 0x78 (R292). -/
def slotOf78 (p : Option (BitVec 24)) (w : SlotWord) : SlotDef :=
  slotBcast ⟨p, fD w, fA w, fI9 w, fG w⟩

/-- The slot of a word of major 0x79 (R292). -/
def slotOf79 (p : Option (BitVec 24)) (w : SlotWord) : SlotDef :=
  match (fMinor w).toNat with
  | 0 => if w &&& 0x00FC0FC0#32 = 0#32 then slotRoute ⟨p, fA w, fG w⟩ else noSlot
  | 1 => if w &&& 0x00FC0FC0#32 = 0#32 then slotRclose ⟨p, fA w, fG w⟩ else noSlot
  | _ => noSlot

/-- The slot of a word of major 0x7A (R292). -/
def slotOf7A (p : Option (BitVec 24)) (w : SlotWord) : SlotDef :=
  match (fMinor w).toNat with
  | 0 => if w &&& 0x00FC0000#32 = 0#32 then slotLaunch ⟨p, fA w, fB w, fG w⟩ else noSlot
  | 1 => if w &&& 0x00FC0000#32 = 0#32 then slotSpawn ⟨p, fA w, fB w, fG w⟩ else noSlot
  | 2 => if w &&& 0x00FC0000#32 = 0#32 then slotSpawnc ⟨p, fA w, fB w, fG w⟩ else noSlot
  | _ => noSlot

/-- The slot of a word of major 0x7B (R292). -/
def slotOf7B (p : Option (BitVec 24)) (w : SlotWord) : SlotDef :=
  match (fMinor w).toNat with
  | 0 => if w &&& 0x00FC0000#32 = 0#32 then slotCset ⟨p, fA w, fB w, fG w⟩ else noSlot
  | 1 => if w &&& 0x00FC0000#32 = 0#32 then slotCadd ⟨p, fA w, fB w, fG w⟩ else noSlot
  | 2 => if w &&& 0x00000FC0#32 = 0#32 then slotCrd ⟨p, fD w, fA w, fG w⟩ else noSlot
  | 3 => if w &&& 0x00FC0000#32 = 0#32 then slotCarm ⟨p, fA w, fB w, fG w⟩ else noSlot
  | 4 => if w &&& 0x00FC0000#32 = 0#32 then slotCdisarm ⟨p, fA w, fB w, fG w⟩ else noSlot
  | 5 => if w &&& 0x00FC0000#32 = 0#32 then slotCstage ⟨p, fA w, fB w, fG w⟩ else noSlot
  | 6 => if w &&& 0x00FC0000#32 = 0#32 then slotWaitc ⟨p, fA w, fB w, fG w⟩ else noSlot
  | _ => slotWaitct ⟨p, fD w, fA w, fB w, fG w⟩

/-- The slot of a word of major 0x7C (R292). -/
def slotOf7C (p : Option (BitVec 24)) (w : SlotWord) : SlotDef :=
  match (fMinor w).toNat with
  | 0 => slotMpost ⟨p, fD w, fA w, fB w, fG w⟩
  | 1 => slotMtake ⟨p, fD w, fA w, fB w, fG w⟩
  | _ => noSlot

/-- The slot of a word, after the X prefix `p` if one precedes it; a word that is no instruction is illegal (R291, R292). -/
def slotOfWord (p : Option (BitVec 24)) (w : SlotWord) : SlotDef :=
  match (fMajor w).toNat with
  | 110 => slotOf6E p w
  | 112 => slotOf70 p w
  | 113 => slotOf71 p w
  | 114 => slotOf72 p w
  | 115 => slotOf73 p w
  | 116 => slotOf74 p w
  | 117 => slotOf75 p w
  | 118 => slotOf76 p w
  | 119 => slotOf77 p w
  | 120 => slotOf78 p w
  | 121 => slotOf79 p w
  | 122 => slotOf7A p w
  | 123 => slotOf7B p w
  | 124 => slotOf7C p w
  | 127 => noSlot
  | _ => match decodeLow p w with | .ok i => slotOf i | .error _ => noSlot

end Sys2Proof.Machine
end

