-- ==== Sys2Proof/Machine/Cycle.lean ====
section
/-! DEFINITION. One cycle of a core: what its next issue cycle does (R21, R97, R105, R130, R179 to R183, R279 to R284). -/

namespace Sys2Proof.Machine

/-- What a step does. -/
inductive Sel where
  /-- an entry of the agenda is carried out by its meaning -/
  | run (i : Instr) (s : State)
  /-- an event takes place -/
  | event (f : State → Option State) (s : State)
  /-- a core's cycle, or nothing, leaves this state -/
  | to (s : State)

/-! ### The bundle in the fetch buffer (R182, R279 to R284) -/

/-- The words from the PC to the end of its line, when the fetch buffer holds that line. -/
def Ctx.fetched (k : Ctx) : Option (List SlotWord) :=
  match k.fbuf with
  | .line va data => if va = k.pc.toNat / 64 * 64 then some (data.drop (k.pc.toNat % 64 / 4)) else none
  | .empty => none
  | .bad _ _ _ => none

/-- A slot of a framed bundle. -/
def itemOf (x : Nat × Option (BitVec 24) × SlotWord) : Item := { idx := x.1, word := x.2.2, d := slotOfWord x.2.1 x.2.2 }

/-- The slots of a framed bundle, in emitted order. -/
def itemsOf (ws : List SlotWord) : List Item := (bundleSlots 0 none ws).map itemOf

/-! ### Entries to handlers (R74, R97, R105) -/

/-- A boundary at which a handler may be entered: the latches are invalid, or the next bundle reads none (R74). -/
def Ctx.boundary (k : Ctx) : Bool :=
  decide (k.qv = 0) ||
  (match k.fetched with
   | none => false
   | some ws =>
     match frameBundle ws with
     | .error _ => true
     | .ok l => !((itemsOf l).any (fun i => (i.d.xs ++ i.d.vs).any (fun a => decide (32 ≤ a.toNat) && decide (a.toNat < 36)))))

/-- May a context use its issue cycle (R81, R95, R186, R208)? -/
def State.mayIssue (s : State) (c t : Nat) : Bool :=
  (s.ctx c t).mode == .running && (s.ctx c t).stop.isNone && (!s.ctxHalted c t || (s.ctx c t).susp.isSome)

/-- Context 0 of a compute core enters its handler for a notice in this issue cycle (R97). -/
def State.noticeDue (s : State) (c : Nat) : Bool :=
  decide (c < 4096) && decide ((s.core c).cycle % 16 = 0) && decide ((s.core c).freeze = 0) && s.mayIssue c 0
  && !(s.core c).notices.isEmpty && !bit (s.ctx c 0).status 3 && (s.ctx c 0).boundary

/-- A context enters its user-level handler (R105). -/
def State.userDue (s : State) (c t : Nat) : Bool :=
  s.mayIssue c t && (s.ctx c t).susp.isNone && bit (s.ctx c t).status 6 && bit (s.ctx c t).status 5 && !bit (s.ctx c t).status 4 && (s.ctx c t).boundary

/-- TRAP_HANDLER_ENTRY (R97): the entry uses the issue cycle. -/
def tryTrapHandlerEntry (c : Nat) (s : State) : Option State :=
  if s.noticeDue c then some ((s.takeNotice c).endCycle c) else none

/-- USER_INTERRUPT_ENTRY (R105). -/
def tryUserInterruptEntry (c t : Nat) (s : State) : Option State :=
  if s.userDue c t then some (s.enterUser c t) else none

/-! ### The issue cycle (R21, R179) -/

/-- A cause found before any slot is evaluated: a PC that is no bundle address, a fault of the fetch, an illegal bundle (R94,
R183, R282). A paired context meets its twin first (R435). -/
def State.frontTrap (s : State) (c t slot : Nat) (code : BitVec 8) (tval : Word) : State :=
  let k := s.ctx c t
  if (match k.pair with | some p => needsAgreement p [] true | none => false) then s.awaitTwin c t (some code)
  else if !k.appends then s.countForfeit c t 9
  else s.bundleTrap c t slot code tval

/-- The next bundle is not in the fetch buffer: its line is requested unless that has been done, and the cycle is forfeit (R182). -/
def State.awaitLine (s : State) (c t : Nat) : State :=
  ((if (s.ctx c t).freq.isNone then s.wantLine c t else s).countForfeit c t 0).endCycle c

/-- Issues the bundle that starts the words ws, or raises what is wrong with it (R279 to R285). -/
def State.issueWords (s : State) (c t : Nat) (ws : List SlotWord) : State :=
  match frameBundle ws with
  | .error r => (s.frontTrap c t 0 cIllegalBundle (bundleVal r)).endCycle c
  | .ok l => (State.issue (s.env c t l.length) (itemsOf l)).endCycle c

/-- The issue of context t of core c: the suspension that its bundle has left to do, or its PC, its line, its bundle. -/
def State.issueNext (s : State) (c t : Nat) : State :=
  let k := s.ctx c t
  match k.susp with
  | some x => (if s.mayLeave c t x then s.suspendOn c t x else s.countForfeit c t 9).endCycle c
  | none =>
  if bitsN k.pc 0 2 ≠ 0 then (s.frontTrap c t 0 cMisaligned (k.pc.setWidth 64)).endCycle c
  else match k.fetched with
    | some ws => s.issueWords c t ws
    | none =>
      match k.fbuf with
      | .bad va code tval =>
        if va = k.pc.toNat / 64 * 64
        then (s.frontTrap c t 0 code (if code = cPoison then tval else k.pc.setWidth 64)).endCycle c
        else s.awaitLine c t
      | .line _ _ => s.awaitLine c t
      | .empty => s.awaitLine c t

/-- One cycle of a core in a cluster whose clocks run: the core frozen, its context not able to issue, an entry to a handler, or the
issue of a bundle (R21, R87, R97, R105, R130, R179). -/
def State.runCycle (s : State) (c : Nat) : Sel :=
  let k := s.core c
  let t := k.cycle % 16
  if k.freeze ≠ 0 then
    (if k.freeze = 1 then .event (tryFreezeEnd c) s
     else .to (((if (s.ctx c t).mode = .running then s.countForfeit c t 12 else s).modCore c
       (fun k => { k with freeze := k.freeze - 1 })).endCycle c))
  else if !s.mayIssue c t then .to (s.endCycle c)
  else if t = 0 ∧ s.noticeDue c then .event (tryTrapHandlerEntry c) s
  else if s.userDue c t then .event (tryUserInterruptEntry c t) s
  else .to (s.issueNext c t)

/-- The cycle of core c: nothing happens in a package that has shut down, and only time passes for a cluster whose clocks are
stopped (R469). -/
def State.coreCycle (s : State) (c : Nat) : Sel :=
  if s.shut then .to { s with steps := s.steps + 1 }
  else if c < 4096 ∧ (s.cluster (clusterOf c)).stopped
  then .to { s with steps := s.steps + 1, time := s.time + Config.nsPerStep s.steps }
  else s.runCycle c

/-- An X prefix alone in its bundle is an illegal bundle, reason 6 (R282, R291). -/
def loneX (s : State) : State :=
  let c := s.turn
  let t := (s.core c).cycle % 16
  if (s.ctx c t).mode = .running ∧ (s.ctx c t).stop = none then (s.frontTrap c t 0 cIllegalBundle (bundleVal (6, 0))).endCycle c
  else s.endCycle c

/-- What a core has to do before its next cycle: stop a context for a matrix fault (R100), apply what has reached its counters
and end the waits whose time has passed (R266, R270), then the dispatcher's choice and the refill (R192, R195, R196, R201). -/
def State.coreDue (s : State) (c : Nat) : Option (State → Option State) :=
  let k := s.core c
  if s.shut then none
  else if k.mat.any (s.faultDue c) then some (tryMatrixFaultStop c)
  else if k.freeze ≠ 0 then none
  else match (List.range 64).find? k.ctrDue, s.timedOut c with
    | some n, _ => some (tryCounterCycleUpdate c n)
    | none, some i => some (tryWaitcTimeout c i)
    | none, none =>
      if s.dispatchDue c then some (if k.frames.any (s.frameFits c) then tryFrameRestoreDispatch c else tryDispatch c)
      else if k.refillDue then some (trySpillRefill c)
      else none

/-- X_PREFIX (R282, R291). -/
def execXPrefix (_imm : BitVec 24) (s : State) : Out := .next (loneX s)

/-! ### Meanings -/

/-- TRAP_HANDLER_ENTRY (R97). -/
def execTrapHandlerEntry (core : Nat) (s : State) : Out := runEvent (tryTrapHandlerEntry core) s

/-- USER_INTERRUPT_ENTRY (R105). -/
def execUserInterruptEntry (core : Nat) (ctx : Nat) (s : State) : Out := runEvent (tryUserInterruptEntry core ctx) s

end Sys2Proof.Machine
end

