-- ==== Sys2Proof/Machine/Agents.lean ====
section
/-! DEFINITION. Which agent moves next (log entry 1). The spec orders nothing between independent agents beyond what the rules of
each event ask for. The agenda of State names any order; where it names none, steps with an even number go to the cores in turn
and steps with an odd number to the first event, from a rotating start, that can take place. -/

namespace Sys2Proof.Machine

/-- What an event does. -/
abbrev Chance := State → Option State

/-- Events of what is in flight at position i (R18, R134). -/
def flightChances (i : Nat) : List Chance :=
  [tryPendingResultArrive i, tryHomeRecordArrive i,
   tryRecordArrival i, tryPacketAcknowledge i,
   tryChannelElementLand i, tryCreditReturn i,
   tryRecvCopyComplete i, tryBroadcastLand i, tryMailboxArrive i,
   tryCompletionRecordPost i, tryScaleOpPerform i,
   trySyncCellPerform i, tryPermitRequestArrive i,
   tryRoundCloseArrive i, tryPermitAnswer i, tryBinRowLand i,
   tryClosingCountArrive i, tryDirectStorePerform i]

/-- Events of context t of core c. -/
def ctxChances (c t : Nat) : List Chance :=
  [tryClusterTlbLookup c t, tryRealignRelease c t,
   tryWorkerTrapStop c t, tryLoadComplete c t,
   tryExtensionMigrate c t, tryFrameMoveRetry c t,
   tryTableLoadEffect c t, tryComparePoint c t,
   tryTieBreakResult c t]
  ++ ((List.range 8).map (fun j => (tryPatternReadahead c t (24 + j) : Chance)))

/-- Events of core c, whose contexts have batches at the homes hs (R159). -/
def coreChances (c : Nat) (k : Core) (hs : List Nat) : List Chance :=
  ([tryMatrixFaultStop c, tryShipperSend c, tryForcedCompaction c,
    tryLogDescriptorEffect c, trySpillRefill c, tryDispatch c,
    tryFrameRestoreDispatch c, tryPreemptArrive c, tryPreemptSave c,
    tryResumeRestore c, tryTriggerActionResume c,
    trySendEngineInject c, tryMatrixStepStart c,
    tryMatrixStepRetire c, tryEpilogueStart c,
    tryEpilogueRowEmit c, tryEpilogueComplete c, tryMtldComplete c,
    tryBinMove c, tryBinRecovery c] : List Chance)
  ++ ((List.range 16).map (ctxChances c)).flatten
  ++ ((List.range 16).map (fun t => hs.map (fun h => (tryBatchApply c t h : Chance)))).flatten
  ++ (List.range k.waits.length).map (fun i => (tryWaitcTimeout c i : Chance))
  ++ ((List.range k.mat.length).map (fun i =>
      ([tryMmgGroupTake c i, tryMmgComplete c i] : List Chance))).flatten
  ++ ((List.range k.copies.length).map (fun i =>
      ([tryCopyEnd c i, tryCopyTimeout c i, tryCopyCancelArrive c i []]
        : List Chance)
      ++ (match k.copies[i]? with
          | some x => (List.range x.total).map (fun p => (tryCopyPacketLand c i p : Chance))
          | none => []))).flatten

/-- Events of cluster k. -/
def clusterChances (k : Nat) (q : Cluster) : List Chance :=
  ([tryFetchPortServe k, tryFetchLineDeliver k,
    tryIcacheFillComplete k, tryDispenserPlace k, tryRouteJobStart k,
    tryRouteJobEnd k, tryRcloseRun k] : List Chance)
  ++ (List.range q.walks.length).map (fun i => (tryWalkComplete k i : Chance))

/-- Events of the package as a whole that wait for nothing from outside. -/
def packageChances (s : State) : List Chance :=
  ([tryRegionCreate, tryRegionChange, tryRegionDestroy,
    tryRegionPreempt, tryRegionResume, tryRegionLaunch,
    tryAttestationQuote, tryHandOver, tryHostEventQueueSetup,
    tryStageImagePart, tryRegionFaultKill] : List Chance)
  ++ ((List.range 3).map (fun b =>
      ([tryProbationCommit b, tryHeartbeatFallback b, tryBodyRestart b]
        : List Chance))).flatten
  ++ (List.range s.invs.length).map (fun i => (tryInvalidationComplete i : Chance))
  ++ (s.regions.map (fun (e : Nat × Region) =>
      ([tryDeadlockDetect e.1, tryPlacementApply e.1 []] : List Chance))).flatten
  ++ (s.chans.map (fun (e : Nat × Chan) => (List.range (s.treeOf e.2).length).map (fun n =>
      (tryTreeNodeCombine (e.1 / 4096) (e.1 % 4096) n : Chance)))).flatten
  ++ s.hostBuf.map (fun h => (tryHostLineWriteback h.1 : Chance))

/-- Clusters in which something may happen: those with state of their own and those of the listed cores. -/
def State.liveClusters (s : State) : List Nat := uniq (s.clusters.map (·.1) ++ s.cores.map (fun e => clusterOf e.1))

/-- Every event that the machine may carry out by itself. -/
def State.chances (s : State) : List Chance :=
  let homes := (s.cores.filter (fun (e : Nat × Core) => !e.2.home.isEmpty)).map (·.1)
  ((List.range (s.flight.length + s.permits.length)).map flightChances).flatten
  ++ (s.cores.map (fun (e : Nat × Core) => coreChances e.1 e.2 homes)).flatten
  ++ (s.liveClusters.map (fun k => clusterChances k (s.cluster k))).flatten
  ++ packageChances s

/-- The first event, counted from a place that rotates with the steps, that can take place. -/
def State.autoEvent (s : State) : Option Chance :=
  let l := s.chances
  let n := s.steps % (l.length + 1)
  (l.drop n ++ l.take n).find? (fun f => (f s).isSome)

/-- The next cycle of core c, after what the core has to do first. -/
def State.coreMove (s : State) (c : Nat) : Sel :=
  let s := { s with turn := c }
  match s.coreDue c with
  | some f => .event f s
  | none => s.coreCycle c

/-- The cycle that an agenda names leaves the agenda once the core has nothing to do before it. -/
def State.agendaCycle (s : State) (c : Nat) (rest : List Move) : Sel :=
  match s.coreDue c with
  | some f => .event f s
  | none => ({ s with agenda := rest, turn := c } : State).coreCycle c

/-- The next move: the agenda's first; else, by the parity of the steps, the cycle of the core whose turn it is, or an event. An
agenda entry that is no event, or names parts that the package does not have, is dropped. -/
def State.move (s : State) : Sel :=
  match s.agenda with
  | .cycle c :: rest =>
    if c < 4104 then s.agendaCycle c rest else .to { s with agenda := rest, steps := s.steps + 1 }
  | .event i :: rest =>
    if i.wellFormed && (encode i).isEmpty then .run i { s with agenda := rest }
    else .to { s with agenda := rest, steps := s.steps + 1 }
  | [] =>
    if s.steps % 2 = 0 then s.coreMove s.turn
    else
      let s := { s with turn := (s.steps / 2 + 1) % 4104 }
      if s.shut then .to { s with steps := s.steps + 1 }
      else match s.autoEvent with
        | some f => .event f s
        | none => s.coreMove s.turn

/-! ### How a program's instruction is placed (logs 4 and 5) -/

/-- The words of a one-slot bundle from the table's bits: the last word is the bundle's last (R279). -/
def tableWords (nbits w : Nat) : List SlotWord := [BitVec.ofNat 32 (w % 2 ^ nbits) ||| 0x80000000#32]

/-- A counter with nothing left to apply. -/
def Counter.settled (c : Counter) : Counter := { c with inc := 0, arms := [] }

/-- A context that may issue, its next bundle in its fetch buffer. -/
def Ctx.readied (k : Ctx) (ws : List SlotWord) : Ctx :=
  let pc : BitVec 60 := k.pc &&& ~~~3#60
  { k with
    mode := .running, stop := none, pair := none, pc := pc, status := k.status &&& ~~~64#64, freq := none
    fbuf := .line (pc.toNat / 64 * 64) (List.replicate (pc.toNat % 64 / 4) 0 ++ ws) }

/-- Core 0 with nothing before the issue of its context 0. -/
def Core.readied (k : Core) (ws : List SlotWord) : Core :=
  { k with
    cycle := k.cycle / 16 * 16, freeze := 0, halted := [], notices := [], waits := []
    dispAt := some (k.cycle / 16 * 16), refAt := some (k.cycle / 16 * 16)
    mat := k.mat.filter (fun o => o.fault.isNone), ctrs := k.ctrs.map (fun e => (e.1, e.2.settled))
    ctxs := k.ctxs.set 0 (k.ctxs[0].readied ws) }

/-- The machine about to issue the bundle of one slot in context 0 of core 0. -/
def State.readied (s : State) (ws : List SlotWord) : State :=
  let s := { s with shut := false, agenda := [], turn := 0, steps := s.steps + s.steps % 2 }
  let s := if (s.cluster 0).stopped then s.modCluster 0 (fun q => { q with stopped := false }) else s
  s.setCore 0 ((s.core 0).readied ws)

end Sys2Proof.Machine
end

