-- ==== Sys2Proof/Machine/Dispatch.lean ====
section
/-! DEFINITION. The meaning of every instruction: one arm per constructor. -/

namespace Sys2Proof.Machine

def exec (i : Instr) (s : State) : Host.Outcome State Fault Refusal :=
  match i with
  | .add o => Sys2Proof.Machine.execAdd o s
  | .sub o => Sys2Proof.Machine.execSub o s
  | .and o => Sys2Proof.Machine.execAnd o s
  | .or o => Sys2Proof.Machine.execOr o s
  | .xor o => Sys2Proof.Machine.execXor o s
  | .andn o => Sys2Proof.Machine.execAndn o s
  | .sll o => Sys2Proof.Machine.execSll o s
  | .srl o => Sys2Proof.Machine.execSrl o s
  | .sra o => Sys2Proof.Machine.execSra o s
  | .mul o => Sys2Proof.Machine.execMul o s
  | .mulh o => Sys2Proof.Machine.execMulh o s
  | .mulhu o => Sys2Proof.Machine.execMulhu o s
  | .div o => Sys2Proof.Machine.execDiv o s
  | .divu o => Sys2Proof.Machine.execDivu o s
  | .rem o => Sys2Proof.Machine.execRem o s
  | .remu o => Sys2Proof.Machine.execRemu o s
  | .min o => Sys2Proof.Machine.execMin o s
  | .max o => Sys2Proof.Machine.execMax o s
  | .minu o => Sys2Proof.Machine.execMinu o s
  | .maxu o => Sys2Proof.Machine.execMaxu o s
  | .clz o => Sys2Proof.Machine.execClz o s
  | .ctz o => Sys2Proof.Machine.execCtz o s
  | .popc o => Sys2Proof.Machine.execPopc o s
  | .bext o => Sys2Proof.Machine.execBext o s
  | .bextu o => Sys2Proof.Machine.execBextu o s
  | .bins o => Sys2Proof.Machine.execBins o s
  | .cmpeq o => Sys2Proof.Machine.execCmpeq o s
  | .cmpne o => Sys2Proof.Machine.execCmpne o s
  | .cmplt o => Sys2Proof.Machine.execCmplt o s
  | .cmpge o => Sys2Proof.Machine.execCmpge o s
  | .cmpltu o => Sys2Proof.Machine.execCmpltu o s
  | .cmpgeu o => Sys2Proof.Machine.execCmpgeu o s
  | .pand o => Sys2Proof.Machine.execPand o s
  | .por o => Sys2Proof.Machine.execPor o s
  | .pxor o => Sys2Proof.Machine.execPxor o s
  | .pandn o => Sys2Proof.Machine.execPandn o s
  | .faddF32 o => Sys2Proof.Machine.execFaddF32 o s
  | .fsubF32 o => Sys2Proof.Machine.execFsubF32 o s
  | .fmulF32 o => Sys2Proof.Machine.execFmulF32 o s
  | .fdivF32 o => Sys2Proof.Machine.execFdivF32 o s
  | .fminF32 o => Sys2Proof.Machine.execFminF32 o s
  | .fmaxF32 o => Sys2Proof.Machine.execFmaxF32 o s
  | .fsqrtF32 o => Sys2Proof.Machine.execFsqrtF32 o s
  | .fcmpeqF32 o => Sys2Proof.Machine.execFcmpeqF32 o s
  | .fcmpltF32 o => Sys2Proof.Machine.execFcmpltF32 o s
  | .fcmpleF32 o => Sys2Proof.Machine.execFcmpleF32 o s
  | .fcmpunF32 o => Sys2Proof.Machine.execFcmpunF32 o s
  | .fmaddF32 o => Sys2Proof.Machine.execFmaddF32 o s
  | .fmsubF32 o => Sys2Proof.Machine.execFmsubF32 o s
  | .fnmaddF32 o => Sys2Proof.Machine.execFnmaddF32 o s
  | .fnmsubF32 o => Sys2Proof.Machine.execFnmsubF32 o s
  | .fcvtF32I64 o => Sys2Proof.Machine.execFcvtF32I64 o s
  | .fcvtF32U64 o => Sys2Proof.Machine.execFcvtF32U64 o s
  | .fcvtI64F32 o => Sys2Proof.Machine.execFcvtI64F32 o s
  | .fcvtU64F32 o => Sys2Proof.Machine.execFcvtU64F32 o s
  | .fcvtBf16F32 o => Sys2Proof.Machine.execFcvtBf16F32 o s
  | .fcvtF32Bf16 o => Sys2Proof.Machine.execFcvtF32Bf16 o s
  | .fcvtF16F32 o => Sys2Proof.Machine.execFcvtF16F32 o s
  | .fcvtF32F16 o => Sys2Proof.Machine.execFcvtF32F16 o s
  | .addi o => Sys2Proof.Machine.execAddi o s
  | .andi o => Sys2Proof.Machine.execAndi o s
  | .ori o => Sys2Proof.Machine.execOri o s
  | .xori o => Sys2Proof.Machine.execXori o s
  | .slli o => Sys2Proof.Machine.execSlli o s
  | .srli o => Sys2Proof.Machine.execSrli o s
  | .srai o => Sys2Proof.Machine.execSrai o s
  | .cmpeqi o => Sys2Proof.Machine.execCmpeqi o s
  | .cmplti o => Sys2Proof.Machine.execCmplti o s
  | .cmpltui o => Sys2Proof.Machine.execCmpltui o s
  | .li o => Sys2Proof.Machine.execLi o s
  | .adr o => Sys2Proof.Machine.execAdr o s
  | .loop o => Sys2Proof.Machine.execLoop o s
  | .br o => Sys2Proof.Machine.execBr o s
  | .brn o => Sys2Proof.Machine.execBrn o s
  | .call o => Sys2Proof.Machine.execCall o s
  | .calln o => Sys2Proof.Machine.execCalln o s
  | .jr o => Sys2Proof.Machine.execJr o s
  | .callr o => Sys2Proof.Machine.execCallr o s
  | .crr o => Sys2Proof.Machine.execCrr o s
  | .crw o => Sys2Proof.Machine.execCrw o s
  | .yield o => Sys2Proof.Machine.execYield o s
  | .waitw o => Sys2Proof.Machine.execWaitw o s
  | .migr o => Sys2Proof.Machine.execMigr o s
  | .realign o => Sys2Proof.Machine.execRealign o s
  | .brk o => Sys2Proof.Machine.execBrk o s
  | .sys o => Sys2Proof.Machine.execSys o s
  | .tret o => Sys2Proof.Machine.execTret o s
  | .uiret o => Sys2Proof.Machine.execUiret o s
  | .start o => Sys2Proof.Machine.execStart o s
  | .reap o => Sys2Proof.Machine.execReap o s
  | .pairon o => Sys2Proof.Machine.execPairon o s
  | .pairoff o => Sys2Proof.Machine.execPairoff o s
  | .placept o => Sys2Proof.Machine.execPlacept o s
  | .ldtab o => Sys2Proof.Machine.execLdtab o s
  | .ldcurve o => Sys2Proof.Machine.execLdcurve o s
  | .iinv o => Sys2Proof.Machine.execIinv o s
  | .iinva o => Sys2Proof.Machine.execIinva o s
  | .chinst o => Sys2Proof.Machine.execChinst o s
  | .rgcmd o => Sys2Proof.Machine.execRgcmd o s
  | .xinvl o => Sys2Proof.Machine.execXinvl o s
  | .xinvc o => Sys2Proof.Machine.execXinvc o s
  | .xinva o => Sys2Proof.Machine.execXinva o s
  | .xinvt o => Sys2Proof.Machine.execXinvt o s
  | .xsync o => Sys2Proof.Machine.execXsync o s
  | .vadd o => Sys2Proof.Machine.execVadd o s
  | .vsub o => Sys2Proof.Machine.execVsub o s
  | .vmul o => Sys2Proof.Machine.execVmul o s
  | .vmla o => Sys2Proof.Machine.execVmla o s
  | .vfma o => Sys2Proof.Machine.execVfma o s
  | .vdiv o => Sys2Proof.Machine.execVdiv o s
  | .vsqrt o => Sys2Proof.Machine.execVsqrt o s
  | .vmin o => Sys2Proof.Machine.execVmin o s
  | .vmax o => Sys2Proof.Machine.execVmax o s
  | .vminu o => Sys2Proof.Machine.execVminu o s
  | .vmaxu o => Sys2Proof.Machine.execVmaxu o s
  | .vadds o => Sys2Proof.Machine.execVadds o s
  | .vsubs o => Sys2Proof.Machine.execVsubs o s
  | .vand o => Sys2Proof.Machine.execVand o s
  | .vor o => Sys2Proof.Machine.execVor o s
  | .vxor o => Sys2Proof.Machine.execVxor o s
  | .vandn o => Sys2Proof.Machine.execVandn o s
  | .vsel o => Sys2Proof.Machine.execVsel o s
  | .vsll o => Sys2Proof.Machine.execVsll o s
  | .vsrl o => Sys2Proof.Machine.execVsrl o s
  | .vsra o => Sys2Proof.Machine.execVsra o s
  | .vcmpeq o => Sys2Proof.Machine.execVcmpeq o s
  | .vcmplt o => Sys2Proof.Machine.execVcmplt o s
  | .vcmpltu o => Sys2Proof.Machine.execVcmpltu o s
  | .vcmple o => Sys2Proof.Machine.execVcmple o s
  | .mand o => Sys2Proof.Machine.execMand o s
  | .mor o => Sys2Proof.Machine.execMor o s
  | .mxor o => Sys2Proof.Machine.execMxor o s
  | .mandn o => Sys2Proof.Machine.execMandn o s
  | .mset o => Sys2Proof.Machine.execMset o s
  | .vshuf o => Sys2Proof.Machine.execVshuf o s
  | .vzipl o => Sys2Proof.Machine.execVzipl o s
  | .vziph o => Sys2Proof.Machine.execVziph o s
  | .vuzpe o => Sys2Proof.Machine.execVuzpe o s
  | .vuzpo o => Sys2Proof.Machine.execVuzpo o s
  | .vsplat o => Sys2Proof.Machine.execVsplat o s
  | .vget o => Sys2Proof.Machine.execVget o s
  | .vput o => Sys2Proof.Machine.execVput o s
  | .vcvtBf16F32 o => Sys2Proof.Machine.execVcvtBf16F32 o s
  | .vcvtF32Bf16 o => Sys2Proof.Machine.execVcvtF32Bf16 o s
  | .vcvtF16F32 o => Sys2Proof.Machine.execVcvtF16F32 o s
  | .vcvtF32F16 o => Sys2Proof.Machine.execVcvtF32F16 o s
  | .vcvtI32F32 o => Sys2Proof.Machine.execVcvtI32F32 o s
  | .vcvtF32I32 o => Sys2Proof.Machine.execVcvtF32I32 o s
  | .vcvtF64F32 o => Sys2Proof.Machine.execVcvtF64F32 o s
  | .vcvtF32F64 o => Sys2Proof.Machine.execVcvtF32F64 o s
  | .vcvtE4m3F32 o => Sys2Proof.Machine.execVcvtE4m3F32 o s
  | .vcvtsE4m3F32 o => Sys2Proof.Machine.execVcvtsE4m3F32 o s
  | .vcvtE5m2F32 o => Sys2Proof.Machine.execVcvtE5m2F32 o s
  | .vcvtE2m1F32 o => Sys2Proof.Machine.execVcvtE2m1F32 o s
  | .vcvtF32E4m3 o => Sys2Proof.Machine.execVcvtF32E4m3 o s
  | .vcvtF32E5m2 o => Sys2Proof.Machine.execVcvtF32E5m2 o s
  | .vcvtF32E2m1 o => Sys2Proof.Machine.execVcvtF32E2m1 o s
  | .vdec o => Sys2Proof.Machine.execVdec o s
  | .vquant o => Sys2Proof.Machine.execVquant o s
  | .vbsc o => Sys2Proof.Machine.execVbsc o s
  | .vdotE2m1 o => Sys2Proof.Machine.execVdotE2m1 o s
  | .vdotE4m3 o => Sys2Proof.Machine.execVdotE4m3 o s
  | .vdotE5m2 o => Sys2Proof.Machine.execVdotE5m2 o s
  | .vdotI8 o => Sys2Proof.Machine.execVdotI8 o s
  | .vdotBf16 o => Sys2Proof.Machine.execVdotBf16 o s
  | .vdotF16 o => Sys2Proof.Machine.execVdotF16 o s
  | .vdotb o => Sys2Proof.Machine.execVdotb o s
  | .vhsumF32 o => Sys2Proof.Machine.execVhsumF32 o s
  | .vhminF32 o => Sys2Proof.Machine.execVhminF32 o s
  | .vhmaxF32 o => Sys2Proof.Machine.execVhmaxF32 o s
  | .vhamaxF32 o => Sys2Proof.Machine.execVhamaxF32 o s
  | .vhsumI32 o => Sys2Proof.Machine.execVhsumI32 o s
  | .vhsumF16 o => Sys2Proof.Machine.execVhsumF16 o s
  | .vhsumBf16 o => Sys2Proof.Machine.execVhsumBf16 o s
  | .vhsumF64 o => Sys2Proof.Machine.execVhsumF64 o s
  | .vtopkF32 o => Sys2Proof.Machine.execVtopkF32 o s
  | .vtopkBf16 o => Sys2Proof.Machine.execVtopkBf16 o s
  | .vamaxF32 o => Sys2Proof.Machine.execVamaxF32 o s
  | .vamaxBf16 o => Sys2Proof.Machine.execVamaxBf16 o s
  | .vamaxF16 o => Sys2Proof.Machine.execVamaxF16 o s
  | .vcurve o => Sys2Proof.Machine.execVcurve o s
  | .vabsF32 o => Sys2Proof.Machine.execVabsF32 o s
  | .vnegF32 o => Sys2Proof.Machine.execVnegF32 o s
  | .vabsI32 o => Sys2Proof.Machine.execVabsI32 o s
  | .vnegI32 o => Sys2Proof.Machine.execVnegI32 o s
  | .vabsF16 o => Sys2Proof.Machine.execVabsF16 o s
  | .vnegF16 o => Sys2Proof.Machine.execVnegF16 o s
  | .vabsF64 o => Sys2Proof.Machine.execVabsF64 o s
  | .vnegF64 o => Sys2Proof.Machine.execVnegF64 o s
  | .ldU8R o => Sys2Proof.Machine.execLdU8R o s
  | .ldI8R o => Sys2Proof.Machine.execLdI8R o s
  | .ldU16R o => Sys2Proof.Machine.execLdU16R o s
  | .ldI16R o => Sys2Proof.Machine.execLdI16R o s
  | .ldU32R o => Sys2Proof.Machine.execLdU32R o s
  | .ldI32R o => Sys2Proof.Machine.execLdI32R o s
  | .ldU64R o => Sys2Proof.Machine.execLdU64R o s
  | .vldR o => Sys2Proof.Machine.execVldR o s
  | .stU8R o => Sys2Proof.Machine.execStU8R o s
  | .stU16R o => Sys2Proof.Machine.execStU16R o s
  | .stU32R o => Sys2Proof.Machine.execStU32R o s
  | .stU64R o => Sys2Proof.Machine.execStU64R o s
  | .vstR o => Sys2Proof.Machine.execVstR o s
  | .ldU8I o => Sys2Proof.Machine.execLdU8I o s
  | .ldI8I o => Sys2Proof.Machine.execLdI8I o s
  | .ldU16I o => Sys2Proof.Machine.execLdU16I o s
  | .ldI16I o => Sys2Proof.Machine.execLdI16I o s
  | .ldU32I o => Sys2Proof.Machine.execLdU32I o s
  | .ldI32I o => Sys2Proof.Machine.execLdI32I o s
  | .ldU64I o => Sys2Proof.Machine.execLdU64I o s
  | .vldI o => Sys2Proof.Machine.execVldI o s
  | .stU8I o => Sys2Proof.Machine.execStU8I o s
  | .stU16I o => Sys2Proof.Machine.execStU16I o s
  | .stU32I o => Sys2Proof.Machine.execStU32I o s
  | .stU64I o => Sys2Proof.Machine.execStU64I o s
  | .vstI o => Sys2Proof.Machine.execVstI o s
  | .rel o => Sys2Proof.Machine.execRel o s
  | .acq o => Sys2Proof.Machine.execAcq o s
  | .acqall o => Sys2Proof.Machine.execAcqall o s
  | .lmark o => Sys2Proof.Machine.execLmark o s
  | .ldrop o => Sys2Proof.Machine.execLdrop o s
  | .fence o => Sys2Proof.Machine.execFence o s
  | .drain o => Sys2Proof.Machine.execDrain o s
  | .pref o => Sys2Proof.Machine.execPref o s
  | .radd o => Sys2Proof.Machine.execRadd o s
  | .vradd o => Sys2Proof.Machine.execVradd o s
  | .ldpt o => Sys2Proof.Machine.execLdpt o s
  | .ldpn o => Sys2Proof.Machine.execLdpn o s
  | .pupd o => Sys2Proof.Machine.execPupd o s
  | .padam o => Sys2Proof.Machine.execPadam o s
  | .stq o => Sys2Proof.Machine.execStq o s
  | .scommit o => Sys2Proof.Machine.execScommit o s
  | .scalc o => Sys2Proof.Machine.execScalc o s
  | .rpush o => Sys2Proof.Machine.execRpush o s
  | .rpop o => Sys2Proof.Machine.execRpop o s
  | .sbind o => Sys2Proof.Machine.execSbind o s
  | .sfree o => Sys2Proof.Machine.execSfree o s
  | .scld o => Sys2Proof.Machine.execScld o s
  | .scst o => Sys2Proof.Machine.execScst o s
  | .scadd o => Sys2Proof.Machine.execScadd o s
  | .scswp o => Sys2Proof.Machine.execScswp o s
  | .sccas o => Sys2Proof.Machine.execSccas o s
  | .scmin o => Sys2Proof.Machine.execScmin o s
  | .scmax o => Sys2Proof.Machine.execScmax o s
  | .scminu o => Sys2Proof.Machine.execScminu o s
  | .scmaxu o => Sys2Proof.Machine.execScmaxu o s
  | .mmE2m1 o => Sys2Proof.Machine.execMmE2m1 o s
  | .mmE4m3 o => Sys2Proof.Machine.execMmE4m3 o s
  | .mmE5m2 o => Sys2Proof.Machine.execMmE5m2 o s
  | .mmBf16 o => Sys2Proof.Machine.execMmBf16 o s
  | .mmF16 o => Sys2Proof.Machine.execMmF16 o s
  | .mmd o => Sys2Proof.Machine.execMmd o s
  | .mmb o => Sys2Proof.Machine.execMmb o s
  | .mspE2m1 o => Sys2Proof.Machine.execMspE2m1 o s
  | .mspE4m3 o => Sys2Proof.Machine.execMspE4m3 o s
  | .mspE5m2 o => Sys2Proof.Machine.execMspE5m2 o s
  | .mspBf16 o => Sys2Proof.Machine.execMspBf16 o s
  | .mspF16 o => Sys2Proof.Machine.execMspF16 o s
  | .mspd o => Sys2Proof.Machine.execMspd o s
  | .mspb o => Sys2Proof.Machine.execMspb o s
  | .mmgE2m1 o => Sys2Proof.Machine.execMmgE2m1 o s
  | .mmgE4m3 o => Sys2Proof.Machine.execMmgE4m3 o s
  | .mmgE5m2 o => Sys2Proof.Machine.execMmgE5m2 o s
  | .mmgBf16 o => Sys2Proof.Machine.execMmgBf16 o s
  | .mmgF16 o => Sys2Proof.Machine.execMmgF16 o s
  | .mmgd o => Sys2Proof.Machine.execMmgd o s
  | .mmgb o => Sys2Proof.Machine.execMmgb o s
  | .mzero o => Sys2Proof.Machine.execMzero o s
  | .mtld o => Sys2Proof.Machine.execMtld o s
  | .mtst o => Sys2Proof.Machine.execMtst o s
  | .mepi o => Sys2Proof.Machine.execMepi o s
  | .copy o => Sys2Proof.Machine.execCopy o s
  | .copy2 o => Sys2Proof.Machine.execCopy2 o s
  | .copyr o => Sys2Proof.Machine.execCopyr o s
  | .ccan o => Sys2Proof.Machine.execCcan o s
  | .send o => Sys2Proof.Machine.execSend o s
  | .recv o => Sys2Proof.Machine.execRecv o s
  | .eos o => Sys2Proof.Machine.execEos o s
  | .bcast o => Sys2Proof.Machine.execBcast o s
  | .route o => Sys2Proof.Machine.execRoute o s
  | .rclose o => Sys2Proof.Machine.execRclose o s
  | .launch o => Sys2Proof.Machine.execLaunch o s
  | .spawn o => Sys2Proof.Machine.execSpawn o s
  | .spawnc o => Sys2Proof.Machine.execSpawnc o s
  | .cset o => Sys2Proof.Machine.execCset o s
  | .cadd o => Sys2Proof.Machine.execCadd o s
  | .crd o => Sys2Proof.Machine.execCrd o s
  | .carm o => Sys2Proof.Machine.execCarm o s
  | .cdisarm o => Sys2Proof.Machine.execCdisarm o s
  | .cstage o => Sys2Proof.Machine.execCstage o s
  | .waitc o => Sys2Proof.Machine.execWaitc o s
  | .waitct o => Sys2Proof.Machine.execWaitct o s
  | .mpost o => Sys2Proof.Machine.execMpost o s
  | .mtake o => Sys2Proof.Machine.execMtake o s
  | .xPrefix o => Sys2Proof.Machine.execXPrefix o s
  | .powerOn => Sys2Proof.Machine.execPowerOn s
  | .hostLinkTrain gen width cxlVer cache => Sys2Proof.Machine.execHostLinkTrain gen width cxlVer cache s
  | .hostLinkDown => Sys2Proof.Machine.execHostLinkDown s
  | .gomondPortTrain port gen => Sys2Proof.Machine.execGomondPortTrain port gen s
  | .gomondPortDown port => Sys2Proof.Machine.execGomondPortDown port s
  | .channelRouteLoss region ch => Sys2Proof.Machine.execChannelRouteLoss region ch s
  | .thermalThrottle cluster stop => Sys2Proof.Machine.execThermalThrottle cluster stop s
  | .thermalShutdown die => Sys2Proof.Machine.execThermalShutdown die s
  | .temperatureSample die celsius => Sys2Proof.Machine.execTemperatureSample die celsius s
  | .timeRateAdjust ppm => Sys2Proof.Machine.execTimeRateAdjust ppm s
  | .registerWrite off v => Sys2Proof.Machine.execRegisterWrite off v s
  | .translationRootWrite core v => Sys2Proof.Machine.execTranslationRootWrite core v s
  | .ringDescriptorWrite core ring v => Sys2Proof.Machine.execRingDescriptorWrite core ring v s
  | .logDescriptorWrite core v => Sys2Proof.Machine.execLogDescriptorWrite core v s
  | .logDescriptorEffect core => Sys2Proof.Machine.execLogDescriptorEffect core s
  | .logSpillDescriptorWrite core v => Sys2Proof.Machine.execLogSpillDescriptorWrite core v s
  | .arrivalSpillDescriptorWrite core v => Sys2Proof.Machine.execArrivalSpillDescriptorWrite core v s
  | .mhbWrite svc ctx v => Sys2Proof.Machine.execMhbWrite svc ctx v s
  | .chronographRequest core seq => Sys2Proof.Machine.execChronographRequest core seq s
  | .hostLaunchPost fn w0 => Sys2Proof.Machine.execHostLaunchPost fn w0 s
  | .regionCreate => Sys2Proof.Machine.execRegionCreate s
  | .regionChange => Sys2Proof.Machine.execRegionChange s
  | .regionDestroy => Sys2Proof.Machine.execRegionDestroy s
  | .regionPreempt => Sys2Proof.Machine.execRegionPreempt s
  | .regionResume => Sys2Proof.Machine.execRegionResume s
  | .regionLaunch => Sys2Proof.Machine.execRegionLaunch s
  | .attestationQuote => Sys2Proof.Machine.execAttestationQuote s
  | .handOver => Sys2Proof.Machine.execHandOver s
  | .hostEventQueueSetup => Sys2Proof.Machine.execHostEventQueueSetup s
  | .stageImagePart => Sys2Proof.Machine.execStageImagePart s
  | .probationCommit body => Sys2Proof.Machine.execProbationCommit body s
  | .heartbeatFallback body => Sys2Proof.Machine.execHeartbeatFallback body s
  | .bodyRestart body => Sys2Proof.Machine.execBodyRestart body s
  | .clusterTlbLookup core ctx => Sys2Proof.Machine.execClusterTlbLookup core ctx s
  | .walkComplete cluster idx => Sys2Proof.Machine.execWalkComplete cluster idx s
  | .invalidationComplete idx => Sys2Proof.Machine.execInvalidationComplete idx s
  | .fetchPortServe cluster => Sys2Proof.Machine.execFetchPortServe cluster s
  | .fetchLineDeliver cluster => Sys2Proof.Machine.execFetchLineDeliver cluster s
  | .icacheFillComplete cluster => Sys2Proof.Machine.execIcacheFillComplete cluster s
  | .pendingResultArrive idx => Sys2Proof.Machine.execPendingResultArrive idx s
  | .realignRelease core ctx => Sys2Proof.Machine.execRealignRelease core ctx s
  | .workerTrapStop core ctx => Sys2Proof.Machine.execWorkerTrapStop core ctx s
  | .trapHandlerEntry core => Sys2Proof.Machine.execTrapHandlerEntry core s
  | .userInterruptEntry core ctx => Sys2Proof.Machine.execUserInterruptEntry core ctx s
  | .matrixFaultStop core => Sys2Proof.Machine.execMatrixFaultStop core s
  | .freezeEnd core => Sys2Proof.Machine.execFreezeEnd core s
  | .hostLineWriteback line => Sys2Proof.Machine.execHostLineWriteback line s
  | .hostSnoop line => Sys2Proof.Machine.execHostSnoop line s
  | .hostCxlMemAccess line write data => Sys2Proof.Machine.execHostCxlMemAccess line write data s
  | .shipperSend core => Sys2Proof.Machine.execShipperSend core s
  | .homeRecordArrive idx => Sys2Proof.Machine.execHomeRecordArrive idx s
  | .batchApply core ctx home => Sys2Proof.Machine.execBatchApply core ctx home s
  | .forcedCompaction core => Sys2Proof.Machine.execForcedCompaction core s
  | .recordArrival idx => Sys2Proof.Machine.execRecordArrival idx s
  | .spillRefill core => Sys2Proof.Machine.execSpillRefill core s
  | .dispatch core => Sys2Proof.Machine.execDispatch core s
  | .loadComplete core ctx => Sys2Proof.Machine.execLoadComplete core ctx s
  | .dispenserPlace cluster => Sys2Proof.Machine.execDispenserPlace cluster s
  | .extensionMigrate core ctx => Sys2Proof.Machine.execExtensionMigrate core ctx s
  | .frameRestoreDispatch core => Sys2Proof.Machine.execFrameRestoreDispatch core s
  | .frameMoveRetry core ctx => Sys2Proof.Machine.execFrameMoveRetry core ctx s
  | .deadlockDetect region => Sys2Proof.Machine.execDeadlockDetect region s
  | .preemptArrive core => Sys2Proof.Machine.execPreemptArrive core s
  | .preemptSave core => Sys2Proof.Machine.execPreemptSave core s
  | .resumeRestore core => Sys2Proof.Machine.execResumeRestore core s
  | .regionFaultKill => Sys2Proof.Machine.execRegionFaultKill s
  | .placementApply region chg => Sys2Proof.Machine.execPlacementApply region chg s
  | .counterCycleUpdate core ctr => Sys2Proof.Machine.execCounterCycleUpdate core ctr s
  | .triggerActionResume core => Sys2Proof.Machine.execTriggerActionResume core s
  | .waitcTimeout core idx => Sys2Proof.Machine.execWaitcTimeout core idx s
  | .packetAcknowledge idx => Sys2Proof.Machine.execPacketAcknowledge idx s
  | .copyPacketLand core idx pkt => Sys2Proof.Machine.execCopyPacketLand core idx pkt s
  | .copyEnd core idx => Sys2Proof.Machine.execCopyEnd core idx s
  | .copyCancelArrive core idx pkts => Sys2Proof.Machine.execCopyCancelArrive core idx pkts s
  | .copyTimeout core idx => Sys2Proof.Machine.execCopyTimeout core idx s
  | .sendEngineInject core => Sys2Proof.Machine.execSendEngineInject core s
  | .channelElementLand idx => Sys2Proof.Machine.execChannelElementLand idx s
  | .creditReturn idx => Sys2Proof.Machine.execCreditReturn idx s
  | .recvCopyComplete idx => Sys2Proof.Machine.execRecvCopyComplete idx s
  | .treeNodeCombine region ch node => Sys2Proof.Machine.execTreeNodeCombine region ch node s
  | .broadcastLand idx => Sys2Proof.Machine.execBroadcastLand idx s
  | .mailboxArrive idx => Sys2Proof.Machine.execMailboxArrive idx s
  | .completionRecordPost idx => Sys2Proof.Machine.execCompletionRecordPost idx s
  | .scaleOpPerform idx => Sys2Proof.Machine.execScaleOpPerform idx s
  | .syncCellPerform idx => Sys2Proof.Machine.execSyncCellPerform idx s
  | .tableLoadEffect core ctx => Sys2Proof.Machine.execTableLoadEffect core ctx s
  | .patternReadahead core ctx reg => Sys2Proof.Machine.execPatternReadahead core ctx reg s
  | .routeJobStart cluster => Sys2Proof.Machine.execRouteJobStart cluster s
  | .permitRequestArrive idx => Sys2Proof.Machine.execPermitRequestArrive idx s
  | .roundCloseArrive idx => Sys2Proof.Machine.execRoundCloseArrive idx s
  | .permitAnswer idx => Sys2Proof.Machine.execPermitAnswer idx s
  | .binRowLand idx => Sys2Proof.Machine.execBinRowLand idx s
  | .routeJobEnd cluster => Sys2Proof.Machine.execRouteJobEnd cluster s
  | .rcloseRun cluster => Sys2Proof.Machine.execRcloseRun cluster s
  | .closingCountArrive idx => Sys2Proof.Machine.execClosingCountArrive idx s
  | .matrixStepStart core => Sys2Proof.Machine.execMatrixStepStart core s
  | .matrixStepRetire core => Sys2Proof.Machine.execMatrixStepRetire core s
  | .mmgGroupTake core idx => Sys2Proof.Machine.execMmgGroupTake core idx s
  | .mmgComplete core idx => Sys2Proof.Machine.execMmgComplete core idx s
  | .epilogueStart core => Sys2Proof.Machine.execEpilogueStart core s
  | .epilogueRowEmit core => Sys2Proof.Machine.execEpilogueRowEmit core s
  | .epilogueComplete core => Sys2Proof.Machine.execEpilogueComplete core s
  | .mtldComplete core => Sys2Proof.Machine.execMtldComplete core s
  | .comparePoint core ctx => Sys2Proof.Machine.execComparePoint core ctx s
  | .tieBreakResult core ctx => Sys2Proof.Machine.execTieBreakResult core ctx s
  | .binMove core => Sys2Proof.Machine.execBinMove core s
  | .selfTestResult core pass unit => Sys2Proof.Machine.execSelfTestResult core pass unit s
  | .binRecovery core => Sys2Proof.Machine.execBinRecovery core s
  | .directStorePerform idx => Sys2Proof.Machine.execDirectStorePerform idx s

end Sys2Proof.Machine
end

