-- ==== Sys2Proof/Machine/Step.lean ====
section
/-! DEFINITION. One step of the package, and the state in which a given instruction is the next to run. -/

namespace Sys2Proof.Machine

/-- What follows every step: each region's activity is noted (R206, R207). -/
def noted (o : Host.Outcome State Fault Refusal) : Host.Outcome State Fault Refusal :=
  match o with
  | .next s => .next s.observe
  | .fault f => .fault f
  | .refused r => .refused r

/-- One step: an entry of the agenda, an event, or the next cycle of a core (R18, R21). -/
def step (s : State) : Host.Outcome State Fault Refusal :=
  match s.move with
  | .run i s' => noted (exec i s')
  | .event f s' => noted (runEvent f s')
  | .to s' => noted (.next s')

/-- The state s with the instruction of bits w alone in the next bundle of context 0 of core 0, whose cycle is next; the line that
holds the bundle has been fetched (logs 4 and 5). -/
def State.withFetchWord (s : State) (nbits w : Nat) : State := s.readied (tableWords nbits w)

end Sys2Proof.Machine
end

