-- ==== Sys2Proof/Safety.lean ====
section
/-! DEFINITION. What counts as a safe run, what it means that a package that has shut down is at rest (R469), and the terms in
which claims are made: when a context is ready to issue, which operands can be read, and what a completed bundle leaves. -/

namespace Sys2Proof

open Sys2Proof.Machine

/-! ### Runs -/

/-- The step of a state answers a next state. -/
def SafeStep (s : State) : Prop := ∃ t, step s = .next t

/-- n steps from a state all answer next states, the last of which is t. -/
def SafeRun : Nat → State → State → Prop
  | 0, s, t => s = t
  | n + 1, s, t => ∃ u, step s = .next u ∧ SafeRun n u t

/-- The package has shut down, and nothing on the agenda powers it on again. -/
def AtRest (s : State) : Prop := s.shut = true ∧ Move.event .powerOn ∉ s.agenda

/-- What a package at rest keeps: its cores, its memory with the poison of its lines, and all that was in flight. -/
def SameParts (s t : State) : Prop :=
  t.cores = s.cores ∧ t.clusters = s.clusters ∧ t.mem = s.mem ∧ t.poison = s.poison ∧ t.flight = s.flight ∧ t.chrono = s.chrono

/-! ### The context that issues -/

/-- The context whose issue cycle is next on the core whose cycle is next (R21). -/
abbrev nowCtx (s : State) : Nat := (s.core s.turn).cycle % 16

/-- That context. -/
abbrev now (s : State) : Ctx := s.ctx s.turn (nowCtx s)

/-- It runs a thread of its own, with no stop requested, no result pending and no register error. -/
structure Ready (s : State) : Prop where
  running : (now s).mode = .running
  going : (now s).stop = none
  alone : (now s).pair = none
  pendX : (now s).pendX = 0
  pendY : (now s).pendY = 0
  pendV : (now s).pendV = 0
  pendQ : (now s).pendQ = 0
  sound : (now s).regErr = []

/-- No v register of the context is bound to a stream (R68). -/
def Unbound (s : State) : Prop := ∀ r, (now s).bindKind r = 0

/-- The guard of the slot is true (R289). -/
def Guard (s : State) (g : BitVec 3) : Prop := (now s).rp g.toNat = true

/-- The field codes name a register, or a latch whose content is valid (R73, R287). -/
def Readable (s : State) (l : List (BitVec 6)) : Prop :=
  ∀ c ∈ l, c.toNat < 32 ∨ (c.toNat < 36 ∧ bit (now s).qv (c.toNat - 32) = true)

/-- The value of an x-file operand: a register, or the low half of a latch (R287). -/
def X (s : State) (c : BitVec 6) : Word :=
  if c.toNat < 32 then (now s).rx c.toNat else ((now s).rq (c.toNat - 32)).setWidth 64

/-- The value of a v-file operand: a register, or a latch (R287). -/
def V (s : State) (c : BitVec 6) : Vec := if c.toNat < 32 then (now s).rv c.toNat else (now s).rq (c.toNat - 32)

/-! ### What a completed bundle leaves -/

/-- The result that the slot of a bundle leaves in latch q0 (R71). -/
inductive Res where
  /-- the slot is not result-producing, or its guard is false -/
  | none
  | val (v : Vec)
  /-- the result has not arrived yet (R64) -/
  | await

/-- The latches after a bundle of one slot with this result (R71). -/
def latched (k : Ctx) : Res → Ctx
  | .none => { k with qv := 0, pendQ := 0 }
  | .val v => { k with q := k.q.set 0 v, qv := 1, pendQ := 0 }
  | .await => { k with qv := 1, pendQ := 1 }

/-- Where a bundle that does not transfer goes on: after the bundle at `le` the loop count decides (R93). -/
def goOn (k : Ctx) (next : BitVec 60) : Ctx :=
  if k.pc ≠ k.le then { k with pc := next }
  else if 1 < k.lc.toNat then { k with pc := k.ls, lc := k.lc - 1 }
  else { k with pc := next, lc := 0 }

/-- The address of the bundle behind one whose only instruction is i. -/
def nextPc (s : State) (i : Instr) : BitVec 60 := (now s).pc + BitVec.ofNat 60 (4 * (encode i).length)

/-- t is s' after the rest of the issue cycle that began in s: one more cycle of the core, one more step, time that passes, the
performance counts, the fetch of the next line, and the end of what the bundle had waited for. All else is as in s'. -/
structure After (s s' t : State) : Prop where
  rest : t = { s' with cores := t.cores, steps := s.steps + 1, time := s.time + Config.nsPerStep s.steps }
  memory : ∀ a, Mem.read t.mem a = Mem.read s'.mem a
  cores : ∀ d, d ≠ s.turn → t.core d = s'.core d
  core : t.core s.turn = { (s'.core s.turn).arrayCycle with
    ctxs := (t.core s.turn).ctxs, cycle := (s.core s.turn).cycle + 1, perf := (t.core s.turn).perf }
  ctxs : ∀ u, u < 16 → u ≠ nowCtx s → t.ctx s.turn u = s'.ctx s.turn u
  ctx : t.ctx s.turn (nowCtx s) = { (s'.ctx s.turn (nowCtx s)) with
    fbuf := (t.ctx s.turn (nowCtx s)).fbuf, freq := (t.ctx s.turn (nowCtx s)).freq, latSeq := (now s).latSeq + 1
    tlb := .none, acq := none, ownLine := none, wake := .none, realigned := false, loaded := [], inv := none, dues := [] }

/-- The instruction completes: exec answers a next state, which is s' after the rest of the issue cycle. -/
def Gives (i : Instr) (s s' : State) : Prop := ∃ t, exec i s = .next t ∧ After s s' t

/-- The instruction completes, changes nothing but its context, which becomes k with this result in the latches, and goes on to
the next bundle. -/
def GivesCtx (i : Instr) (s : State) (r : Res) (k : Ctx) : Prop :=
  Gives i s (s.setCtx s.turn (nowCtx s) (goOn (latched k r) (nextPc s i)))

/-- The word of the slot of an instruction. -/
def slotWord (i : Instr) : SlotWord := (encode i).getLastD 0

/-- The emitted index of that slot: 1 behind an X prefix (R94). -/
def slotNo (i : Instr) : Nat := (encode i).length - 1

/-- The instruction completes with the value v for x register d: written unless `N` is set, and kept in latch q0 (R62, R71). -/
def GivesX (i : Instr) (s : State) (d : BitVec 6) (v : Word) : Prop :=
  GivesCtx i s (.val (v.setWidth 128)) (if dN d then now s else (now s).wx (dReg d) v)

/-- The same for v register d. -/
def GivesV (i : Instr) (s : State) (d : BitVec 6) (v : Vec) : Prop :=
  GivesCtx i s (.val v) (if dN d then now s else (now s).wv (dReg d) v)

/-- The context after floating-point flags have been raised (R90). -/
def raised (k : Ctx) (f : FFlags) : Ctx := { k with fflags := k.fflags ||| f }

/-- No flag of f is enabled to trap (R90). -/
def Quiet (s : State) (f : FFlags) : Prop := f &&& field (now s).status 8 5 = 0

/-- The instruction completes with r for a predicate pair: the predicate that d names and the next one, its complement; a write of
p0 is discarded (R69, R309). -/
def GivesPair (i : Instr) (s : State) (d : BitVec 6) (r : Bool) (f : FFlags) : Prop :=
  GivesCtx i s .none (raised (((now s).wp d.toNat r).wp (d.toNat + 1) (!r)) f)

/-- The instruction completes with a floating-point result for x register d and raises flags (R71, R90). -/
def GivesXF (i : Instr) (s : State) (d : BitVec 6) (r : Nat × FFlags) : Prop :=
  GivesCtx i s (.val ((BitVec.ofNat 64 r.1).setWidth 128))
    (raised (if dN d then now s else (now s).wx (dReg d) (BitVec.ofNat 64 r.1)) r.2)

/-- The instruction completes and control goes to a: the latches become invalid, and a call leaves the address of the next bundle in
x31 (R72, R315, R316). -/
def GivesJump (i : Instr) (s : State) (call : Bool) (a : BitVec 60) : Prop :=
  Gives i s (s.setCtx s.turn (nowCtx s)
    { (latched (if call then (now s).wx 31 ((nextPc s i).setWidth 64) else now s) .none) with pc := a })

/-- The trap of a bundle: the bundle counts as issued, and taking the trap is its only effect (R94, R277). -/
def trapped (s : State) (code : BitVec 8) (slot : Nat) (tval : Word) : State :=
  ((s.countIssue s.turn (nowCtx s)).takeTrap s.turn (nowCtx s) code (BitVec.ofNat 3 slot) tval).endCycle s.turn

/-- The instruction traps with this cause and `tval`, reported for its slot (R94). -/
def Traps (i : Instr) (s : State) (code : BitVec 8) (tval : Word) : Prop := exec i s = .next (trapped s code (slotNo i) tval)

/-- The instruction traps with cause illegal-opcode, its slot word and this source in `tval` (R102). -/
def TrapsIllegal (i : Instr) (s : State) (src : Nat) : Prop :=
  Traps i s cIllegal (BitVec.ofNat 64 (src * 2 ^ 32 + (slotWord i).toNat))

/-- The bundle forfeits its issue cycle, which counts towards row `why` of R179; u is s with what it remembers of its wait. -/
def Waits (i : Instr) (s : State) (why : Nat) (u : State) : Prop :=
  exec i s = .next ((u.countForfeit s.turn (nowCtx s) why).endCycle s.turn)

/-- The issue cycle leaves u, before the rest of the cycle. -/
def Leaves (i : Instr) (s u : State) : Prop := exec i s = .next (u.endCycle s.turn)

/-- Tile n of the window of the issuing context lies inside it, and is not busy (R75, R76). -/
def TileFree (s : State) (n : Nat) : Prop :=
  n < winCount (now s).tiles ∧ bit (s.core s.turn).busy (physTile (now s).tiles n) = false

/-- No modifier word precedes the slot, or one whose every field is zero (R291). -/
def Unmodified (p : Option (BitVec 24)) : Prop := p = none ∨ p = some 0

/-! ### Vector results -/

/-- No modifier word precedes the slot, or one that holds a mask number only (R291, R322). -/
def MaskOnly (p : Option (BitVec 24)) : Prop := p = none ∨ ∃ m : BitVec 24, p = some m ∧ m.toNat < 8

/-- The mask that the slot names: m0, all ones, without a prefix (R70, R322). -/
def maskOf (s : State) (p : Option (BitVec 24)) : BitVec 16 := (now s).rm (modMsk p)

/-- R holds, in each enabled element of n bytes, what f gives at the element's width, and in every other element that of `old`
(R322). -/
def Lanes (n : Nat) (m : BitVec 16) (old R : Vec) (f : Nat → Nat) : Prop :=
  ∀ i, i < 16 / n → vElem R n i = if bit m (n * i) then f i % 2 ^ (8 * n) else vElem old n i

/-- The instruction completes with a vector of n-byte elements merged under the mask, and raises no flag. -/
def GivesLanes (i : Instr) (s : State) (p : Option (BitVec 24)) (d : BitVec 6) (n : Nat) (f : Nat → Nat) : Prop :=
  ∃ R, Lanes n (maskOf s p) ((now s).rv (dReg d)) R f ∧ GivesV i s d R

/-- The instruction completes with the vector R and raises the flags F, or traps with cause fp where one of them is enabled (R91). -/
def GivesVF (i : Instr) (s : State) (d : BitVec 6) (R : Vec) (F : FFlags) : Prop :=
  (Quiet s F → GivesCtx i s (.val R) (raised (if dN d then now s else (now s).wv (dReg d) R) F))
  ∧ (¬ Quiet s F → Traps i s cFp (F.setWidth 64))

/-- The same for elements merged under the mask: the flags of the enabled elements count (R322, R324). -/
def GivesLanesF (i : Instr) (s : State) (p : Option (BitVec 24)) (d : BitVec 6) (n : Nat) (f : Nat → Nat × FFlags) : Prop :=
  ∃ R, Lanes n (maskOf s p) ((now s).rv (dReg d)) R (fun j => (f j).1)
    ∧ GivesVF i s d R (flagsOf (((List.range (16 / n)).filter (fun j => bit (maskOf s p) (n * j))).map f))

/-- The FP64 forms issue on a core that has the extension (R292, R344). -/
def Fp64 (s : State) (x64 : Bool) : Prop := x64 = true → hasFp64 s.turn = true

/-! ### Effects on the machine -/

/-- The instruction completes: it leaves u, beside its result in the latches and the move to the next bundle. -/
def GivesTo (i : Instr) (s : State) (r : Res) (u : State) : Prop :=
  Gives i s (u.setCtx s.turn (nowCtx s) (goOn (latched (u.ctx s.turn (nowCtx s)) r) (nextPc s i)))

/-- The environment of the slot of an instruction alone in its bundle. -/
def envOf (i : Instr) (s : State) : Env :=
  { (s.env s.turn (nowCtx s) (encode i).length) with word := slotWord i, idx := BitVec.ofNat 3 (slotNo i) }

/-- u after slot n of the issuing bundle of s has sent something on its way: it carries the bundle's address and number and the
thread's generation; an access to planes touches further order units (R18, R74, R100, R101, R134). -/
def sent (s u : State) (n dst : Nat) (b : Body) (also : List Nat := []) : State :=
  { u with flight := u.flight ++
      [{ src := s.turn, dst := dst, body := b, pc := (now s).pc, gen := (now s).gen, uh := bit (now s).status 4
         bun := (now s).latSeq + 1, slot := BitVec.ofNat 3 n, also := also }] }

/-- Changes the issuing context of s in u. -/
def inNow (s u : State) (f : Ctx → Ctx) : State := u.modCtx s.turn (nowCtx s) f

/-- Changes the issuing core of s in u. -/
def inCore (s u : State) (f : Core → Core) : State := u.modCore s.turn f

/-- A context that awaits a result for x register d, or for v register d (R64); in a user-level handler x1 to x4 are y0 to y3 (R74). -/
def awaiting (isV : Bool) (d : BitVec 6) (k : Ctx) : Ctx :=
  if dN d ∨ (isV = false ∧ dReg d = 0) then k
  else if isV then { k with pendV := k.pendV ||| (1#32 <<< dReg d) } else k.markX (dReg d)

/-- The name under which the answer to the bundle's first result comes back to latch q0 (R71). -/
def latchNo (s : State) : Option Nat := some (((now s).latSeq + 1) * 4)

/-- The address of an access of the issuing thread (R117, R120). -/
def Reaches (s : State) (acc : Acc) (ea : Word) (x : Xl) : Prop := translate s s.turn (nowCtx s) acc ea = .ok x

/-- No record of the core's own log stands between a read and these lines (R166). -/
def Clear (s : State) (x : Xl) (lines : List Nat) : Prop := s.ownHit s.turn (leafL x.leaf) lines = none

/-- u, with what the bundle has sent carrying its number and its thread's generation, its loads before its stores (R74, R100, R174,
R285, R348). -/
def stamped (s u : State) : State := u.loadsFirst s.flight.length (now s).gen ((now s).latSeq + 1) (bit (now s).status 4)

/-- A record for 2^size bytes of the issuing context, as it enters the log of its core (R151, R153). -/
def logRec (s : State) (x : Xl) (kind size : Nat) (fmt : BitVec 8) (off data : Nat) : LogRec :=
  { kind := BitVec.ofNat 4 kind, size := BitVec.ofNat 4 size, fmt := fmt, pa := BitVec.ofNat 52 (x.pa + off), rm := bit (now s).status 31
    ctx := BitVec.ofNat 4 (nowCtx s), seq := 0, data := BitVec.ofNat 128 data, home := homeOf x.leaf x.pa }

/-- u after a record has been appended to the log of the issuing core, whose logged-read buffer no longer holds its lines (R153,
R167). -/
def logged (s u : State) (r : LogRec) : State :=
  inCore s (u.append s.turn r) (fun k => { k with rbuf := k.rbuf.filter (fun l => !r.lines.contains l.1) })

/-- u after slot n of the issuing bundle of s has sent something on its way. -/
def flown (s u : State) (n dst : Nat) (b : Body) (also : List Nat := []) : State :=
  u.fly s.turn dst b none (now s).pc (BitVec.ofNat 3 n) also

/-- What a store of the enabled bytes of slot n leaves, at the address that x gives, with a format an add (R132, R134, R151 to R153,
R352, R356): on a logged page one record of the core's log for each run of R352, while the log has room; on a direct page the runs' bytes in
place in a slice, in the device's words, or all of them on their way to bulk memory or to the host. An add reads what it adds to, and
with it the errors there (R130). -/
def Stored (s : State) (n : Nat) (x : Xl) (bytes : List Byte) (en : Nat → Bool) (add : Option (BitVec 8)) (u : State) : Prop :=
  let runs := maskRuns (fun j => decide (j < bytes.length) && en j) 16 0
  let piece (r : Nat × Nat) : List Byte := (bytes.drop r.1).take (2 ^ r.2)
  let read (v : State) (r : Nat × Nat) : State := if add.isSome then v.eccRange (x.pa + r.1) (piece r).length else v
  let sum (v : State) (r : Nat × Nat) : List Byte := (read v r).summed s.turn add (x.pa + r.1) (piece r)
  if leafL x.leaf then (s.core s.turn).log.room runs.length = true
    ∧ u = runs.foldl (fun v r => logged s v (logRec s x (if add.isSome then 1 else 0) r.2 (add.getD 0) r.1 (ofBytes (piece r)))) s
  else if kindOf x.pa = 0 then
    u = runs.foldl (fun v r => (read v r).wrBytes (x.pa + r.1) (sum v r)) s
  else if kindOf x.pa = 1 ∨ kindOf x.pa = 2 then
    if runs = [] then u = s
    else ∃ m : BitVec 16, (∀ j, j < 16 → bit m j = (decide (j < bytes.length) && en j))
      ∧ u = flown s s n (orderUnit x.pa) (.store (nowCtx s) x.pa bytes m add)
  else runs.foldlM (fun v r => (read v r).devStore ((x.pa + r.1) % 2 ^ 48) (sum v r)) s = some u

/-- u once an engine operation, or a new continuation, of the issuing bundle of s has its place behind the thread's accesses that have
not performed (R174, R178): nothing is added where all of them have. -/
def gated (s u : State) : State :=
  if u.fenced s.turn (nowCtx s) then u
  else inCore s u (fun k => { k with gates := k.gates.filter (fun g => !u.gateOpen s.turn g)
    ++ [{ ctx := nowCtx s, bun := (now s).latSeq + 1, lines := [], tail := k.log.tail }] })

/-- u with the bundle of s counted as issued (R277). -/
def counted (s u : State) : State := u.countIssue s.turn (nowCtx s)

/-! ### Bundles in a step -/

/-- The next step is the issue of the context whose cycle is next (R21, R97, R105, R179): the agenda names nothing, and the core has
nothing to do before it. -/
structure Issues (s : State) : Prop where
  first : s.agenda = [] ∧ s.steps % 2 = 0
  on : s.shut = false ∧ (s.turn < 4096 → (s.cluster (clusterOf s.turn)).stopped = false)
  due : s.coreDue s.turn = none
  warm : (s.core s.turn).freeze = 0
  may : s.mayIssue s.turn (nowCtx s) = true
  whole : (now s).susp = none
  entry : s.noticeDue s.turn = false ∧ s.userDue s.turn (nowCtx s) = false
  aligned : bitsN (now s).pc 0 2 = 0

/-- The step takes a trap of the bundle at the PC: its only effect (R94). -/
def StepTraps (s : State) (code : BitVec 8) (slot : Nat) (tval : Nat) : Prop :=
  step s = noted (.next (trapped s code slot (BitVec.ofNat 64 tval)))

/-- Words as those of one bundle: `E` set in the last word and in no other (R279). -/
def framed : List SlotWord → List SlotWord
  | [] => []
  | [w] => [w ||| 0x80000000#32]
  | w :: ws => (w &&& 0x7FFFFFFF#32) :: framed ws

/-- The reasons of R282 that hold at slot j of the words of a bundle; slots are what is no X word, and an X slot takes the class of the
slot that follows it (R281). -/
def Reason (l : List SlotWord) (j r : Nat) : Prop :=
  let w := l.getD j 0
  let pre (i : Nat) : Option (BitVec 24) := if i = 0 then none else (let x := l.getD (i - 1) 0; if isX x then some (fI24 x) else none)
  let slot (i : Nat) : Prop := isX (l.getD i 0) = false
  let cls (i : Nat) : Option Nat := headClass (l.drop i)
  (r = 1 ∧ slot j ∧ ∃ i, i < j ∧ slot i ∧ ∃ x ∈ writeSet (pre j) w, x ∈ writeSet (pre i) (l.getD i 0))
  ∨ (r = 2 ∧ ∃ i c d, i < j ∧ slot i ∧ cls i = some c ∧ cls j = some d ∧ d < c)
  ∨ (r = 3 ∧ slot j ∧ classLimit (classOf w) ≤ ((List.range j).filter (fun i => !isX (l.getD i 0) && classOf (l.getD i 0) == classOf w)).length)
  ∨ (r = 5 ∧ isControl w = true ∧ ∃ i, i < j ∧ isControl (l.getD i 0) = true)
  ∨ (r = 6 ∧ isX w = true ∧ (j + 1 = l.length ∨ isX (l.getD (j + 1) 0) = true))

/-! ### Events -/

/-- The event takes place, or finds nothing to do: exec answers u, one step on. -/
def Happens (i : Instr) (s u : State) : Prop := exec i s = .next { u with steps := s.steps + 1 }

end Sys2Proof
end

