-- ==== Sys2Proof/Certificates/Slice0/Obligations.lean ====
section
/-! DEFINITION. The statements about the model, for the provers. Each docstring names the rules of the spec that it formalises. -/

open Sys2Proof Sys2Proof.Machine

/-! ### Scalar, predicate and branch instructions -/

/-- R304, R305 with R31: the integer instructions of two operands complete with the value that the tables give, in the destination
register and in latch q0; nothing else changes. -/
def Obligations.IntegerArithmeticResults : Prop :=
  (∀ (s : State) (o : OpDab), Ready s → Guard s o.g → Unmodified o.p → Readable s [o.a, o.b] →
    let A := X s o.a
    let B := X s o.b
    GivesX (.add o) s o.d (A + B) ∧ GivesX (.sub o) s o.d (A - B)
    ∧ GivesX (.and o) s o.d (A &&& B) ∧ GivesX (.or o) s o.d (A ||| B)
    ∧ GivesX (.xor o) s o.d (A ^^^ B) ∧ GivesX (.andn o) s o.d (A &&& ~~~B)
    ∧ GivesX (.mul o) s o.d (A * B)
    ∧ GivesX (.mulh o) s o.d (BitVec.ofInt 64 (A.toInt * B.toInt / 2 ^ 64))
    ∧ GivesX (.mulhu o) s o.d (BitVec.ofNat 64 (A.toNat * B.toNat / 2 ^ 64))
    ∧ GivesX (.div o) s o.d (if B = 0 then -1 else BitVec.ofInt 64 (Int.tdiv A.toInt B.toInt))
    ∧ GivesX (.divu o) s o.d (if B = 0 then -1 else BitVec.ofNat 64 (A.toNat / B.toNat))
    ∧ GivesX (.rem o) s o.d (if B = 0 then A else BitVec.ofInt 64 (Int.tmod A.toInt B.toInt))
    ∧ GivesX (.remu o) s o.d (if B = 0 then A else BitVec.ofNat 64 (A.toNat % B.toNat))
    ∧ GivesX (.min o) s o.d (if A.toInt < B.toInt then A else B) ∧ GivesX (.max o) s o.d (if A.toInt < B.toInt then B else A)
    ∧ GivesX (.minu o) s o.d (if A.toNat < B.toNat then A else B)
    ∧ GivesX (.maxu o) s o.d (if A.toNat < B.toNat then B else A))
  ∧ (∀ (s : State) (o : OpDai), Ready s → Guard s o.g → Readable s [o.a] →
    let A := X s o.a
    let B := immS o.p o.i
    GivesX (.addi o) s o.d (A + B) ∧ GivesX (.andi o) s o.d (A &&& B)
    ∧ GivesX (.ori o) s o.d (A ||| B) ∧ GivesX (.xori o) s o.d (A ^^^ B))

/-- R306, R307, R308, R314: shifts by an amount that is never reduced, bit counts, bit fields, constants and addresses. -/
def Obligations.ShiftCountFieldResults : Prop :=
  let left (a n : Word) : Word := if 64 ≤ n.toNat then 0 else BitVec.ofNat 64 (a.toNat * 2 ^ n.toNat)
  let right (a n : Word) : Word := if 64 ≤ n.toNat then 0 else BitVec.ofNat 64 (a.toNat / 2 ^ n.toNat)
  let rightS (a n : Word) : Word :=
    if 64 ≤ n.toNat then (if bit a 63 then -1 else 0) else BitVec.ofInt 64 (a.toInt / 2 ^ n.toNat)
  (∀ (s : State) (o : OpDab), Ready s → Guard s o.g → Unmodified o.p → Readable s [o.a, o.b] →
    let A := X s o.a
    let B := X s o.b
    let p := bitsN B 0 6
    let w := if 64 < p + (bitsN B 8 6 + 1) then 64 - p else bitsN B 8 6 + 1
    GivesX (.sll o) s o.d (left A B) ∧ GivesX (.srl o) s o.d (right A B) ∧ GivesX (.sra o) s o.d (rightS A B)
    ∧ GivesX (.bext o) s o.d (BitVec.ofInt 64 (sInt w (bitsN A p w)))
    ∧ GivesX (.bextu o) s o.d (BitVec.ofNat 64 (bitsN A p w))
    ∧ ∃ D : Word, GivesX (.bins o) s o.d D
      ∧ ∀ i, i < 64 → bit D i = if p ≤ i ∧ i < p + w then bit A (i - p) else bit ((now s).rx (dReg o.d)) i)
  ∧ (∀ (s : State) (o : OpDai), Ready s → Guard s o.g → Readable s [o.a] →
    GivesX (.slli o) s o.d (left (X s o.a) (immS o.p o.i)) ∧ GivesX (.srli o) s o.d (right (X s o.a) (immS o.p o.i))
    ∧ GivesX (.srai o) s o.d (rightS (X s o.a) (immS o.p o.i)))
  ∧ (∀ (s : State) (o : OpDa), Ready s → Guard s o.g → Unmodified o.p → Readable s [o.a] →
    let A := X s o.a
    (∃ n, n ≤ 64 ∧ GivesX (.clz o) s o.d (BitVec.ofNat 64 n)
      ∧ (∀ i, 64 - n ≤ i → i < 64 → bit A i = false) ∧ (n < 64 → bit A (63 - n) = true))
    ∧ (∃ n, n ≤ 64 ∧ GivesX (.ctz o) s o.d (BitVec.ofNat 64 n)
      ∧ (∀ i, i < n → bit A i = false) ∧ (n < 64 → bit A n = true))
    ∧ GivesX (.popc o) s o.d (BitVec.ofNat 64 ((List.range 64).filter (bit A)).length))
  ∧ (∀ (s : State) (o : OpL), Ready s →
    GivesX (.li o) s o.d (immL o.p o.i)
    ∧ GivesX (.adr o) s o.d (BitVec.ofNat 64 (((now s).pc.toNat + (immL o.p o.i).toNat * 4) % 2 ^ 60)))

/-- R69, R309, R310: compares write a predicate pair, predicate logic one predicate; every destination or operand outside the
permitted ones traps with cause illegal-opcode, the slot word in `tval`. -/
def Obligations.ComparePredicateResults : Prop :=
  let pair (i : Instr) (s : State) (d : BitVec 6) (r : Bool) : Prop :=
    if d.toNat < 8 ∧ d.toNat % 2 = 0 then GivesPair i s d r 0 else TrapsIllegal i s 0
  (∀ (s : State) (o : OpDab), Ready s → Guard s o.g → Unmodified o.p → Readable s [o.a, o.b] →
    let A := X s o.a
    let B := X s o.b
    pair (.cmpeq o) s o.d (decide (A = B)) ∧ pair (.cmpne o) s o.d (decide (A ≠ B))
    ∧ pair (.cmplt o) s o.d (decide (A.toInt < B.toInt)) ∧ pair (.cmpge o) s o.d (decide (B.toInt ≤ A.toInt))
    ∧ pair (.cmpltu o) s o.d (decide (A.toNat < B.toNat)) ∧ pair (.cmpgeu o) s o.d (decide (B.toNat ≤ A.toNat)))
  ∧ (∀ (s : State) (o : OpDai), Ready s → Guard s o.g → Readable s [o.a] →
    let A := X s o.a
    let B := immS o.p o.i
    pair (.cmpeqi o) s o.d (decide (A = B)) ∧ pair (.cmplti o) s o.d (decide (A.toInt < B.toInt))
    ∧ pair (.cmpltui o) s o.d (decide (A.toNat < B.toNat)))
  ∧ (∀ (s : State) (o : OpDab), Ready s → Guard s o.g → Unmodified o.p →
    let ok := o.d.toNat < 8 ∧ o.a.toNat < 8 ∧ o.b.toNat < 8
    let gives (i : Instr) (r : Bool) : Prop :=
      (ok → GivesCtx i s .none ((now s).wp o.d.toNat r)) ∧ (¬ ok → TrapsIllegal i s 0)
    let a := (now s).rp o.a.toNat
    let b := (now s).rp o.b.toNat
    gives (.pand o) (a && b) ∧ gives (.por o) (a || b) ∧ gives (.pxor o) (a ^^ b) ∧ gives (.pandn o) (a && !b))

/-- R311, R312, R313: scalar floating point reads the low bits of its operands, leaves a result of the destination's width with zeros
above it and raises its flags, unless a raised flag is enabled to trap: then the bundle traps with cause fp, every flag in `tval`
(R91). -/
def Obligations.ScalarFloatResults : Prop :=
  let gives (i : Instr) (s : State) (d : BitVec 6) (r : Nat × FFlags) : Prop :=
    (Quiet s r.2 → GivesXF i s d r) ∧ (¬ Quiet s r.2 → Traps i s cFp (r.2.setWidth 64))
  let compares (i : Instr) (s : State) (d : BitVec 6) (r : Bool) (f : FFlags) : Prop :=
    if d.toNat < 8 ∧ d.toNat % 2 = 0
    then (Quiet s f → GivesPair i s d r f) ∧ (¬ Quiet s f → Traps i s cFp (f.setWidth 64))
    else TrapsIllegal i s 0
  let mode (s : State) : RMode := RMode.of (now s).frm
  (∀ (s : State) (o : OpDab), Ready s → Guard s o.g → Unmodified o.p → Readable s [o.a, o.b] →
    let a := (X s o.a).toNat % 2 ^ 32
    let b := (X s o.b).toNat % 2 ^ 32
    let c := ((now s).rx (dReg o.d)).toNat % 2 ^ 32
    let x := Fmt.f32.decode a
    let y := Fmt.f32.decode b
    gives (.faddF32 o) s o.d (Fmt.f32.add (mode s) a b) ∧ gives (.fsubF32 o) s o.d (Fmt.f32.sub (mode s) a b)
    ∧ gives (.fmulF32 o) s o.d (Fmt.f32.mul (mode s) a b) ∧ gives (.fdivF32 o) s o.d (Fmt.f32.quot (mode s) a b)
    ∧ gives (.fminF32 o) s o.d (Fmt.f32.minmax false a b) ∧ gives (.fmaxF32 o) s o.d (Fmt.f32.minmax true a b)
    ∧ gives (.fmaddF32 o) s o.d (Fmt.f32.fma (mode s) false false a b c)
    ∧ gives (.fmsubF32 o) s o.d (Fmt.f32.fma (mode s) false true a b c)
    ∧ gives (.fnmaddF32 o) s o.d (Fmt.f32.fma (mode s) true true a b c)
    ∧ gives (.fnmsubF32 o) s o.d (Fmt.f32.fma (mode s) true false a b c)
    ∧ compares (.fcmpeqF32 o) s o.d (FVal.eq x y) (nvQuiet x y) ∧ compares (.fcmpltF32 o) s o.d (FVal.lt x y) (nvAny x y)
    ∧ compares (.fcmpleF32 o) s o.d (FVal.le x y) (nvAny x y)
    ∧ compares (.fcmpunF32 o) s o.d (x.isNan || y.isNan) (nvQuiet x y))
  ∧ (∀ (s : State) (o : OpDa), Ready s → Guard s o.g → Unmodified o.p → Readable s [o.a] →
    let A := X s o.a
    let a := A.toNat % 2 ^ 32
    let h := A.toNat % 2 ^ 16
    let int (r : Int × FFlags) : Nat × FFlags := ((r.1 % 2 ^ 64).toNat, r.2)
    gives (.fsqrtF32 o) s o.d (Fmt.f32.root (mode s) a)
    ∧ gives (.fcvtF32I64 o) s o.d (Fmt.f32.round (mode s) false (FVal.ofInt A.toInt))
    ∧ gives (.fcvtF32U64 o) s o.d (Fmt.f32.round (mode s) false (FVal.ofInt A.toNat))
    ∧ gives (.fcvtI64F32 o) s o.d (int ((Fmt.f32.decode a).toInt (mode s) (-(2 ^ 63)) (2 ^ 63 - 1)))
    ∧ gives (.fcvtU64F32 o) s o.d (int ((Fmt.f32.decode a).toInt (mode s) 0 (2 ^ 64 - 1)))
    ∧ gives (.fcvtBf16F32 o) s o.d (Fmt.f32.cvt .bf16 (mode s) false a) ∧ gives (.fcvtF32Bf16 o) s o.d (Fmt.bf16.cvt .f32 (mode s) false h)
    ∧ gives (.fcvtF16F32 o) s o.d (Fmt.f32.cvt .f16 (mode s) false a) ∧ gives (.fcvtF32F16 o) s o.d (Fmt.f16.cvt .f32 (mode s) false h))

/-- R315, R316: branches and calls transfer to the bundle address plus four times the offset when their predicate says so, jumps to
the operand, whose low and high bits must be zero; a call leaves the next bundle's address in x31; a transfer invalidates the
latches; a slot that does not transfer goes on. -/
def Obligations.BranchCallJumpResults : Prop :=
  (∀ (s : State) (o : OpB), Ready s →
    let T := BitVec.ofNat 60 ((now s).pc.toNat + (immB o.p o.o).toNat * 4)
    let taken := (now s).rp o.c.toNat
    let gives (i : Instr) (t call : Bool) : Prop := if t then GivesJump i s call T else GivesCtx i s .none (now s)
    gives (.br o) taken false ∧ gives (.brn o) (!taken) false ∧ gives (.call o) taken true ∧ gives (.calln o) (!taken) true)
  ∧ (∀ (s : State) (o : OpA), Ready s → Guard s o.g → Unmodified o.p → Readable s [o.a] →
    let A := X s o.a
    let gives (i : Instr) (call : Bool) : Prop :=
      if A.toNat % 4 ≠ 0 then Traps i s cMisaligned A
      else if 2 ^ 60 ≤ A.toNat then Traps i s cTranslation A
      else GivesJump i s call (A.setWidth 60)
    gives (.jr o) false ∧ gives (.callr o) true)

/-- R85, R86, R318, R319: `loop` sets the loop state; `crr` reads and `crw` writes each control register as its field map says; a
number that names no register traps with illegal-opcode, a level too low with privilege, whatever the operand. -/
def Obligations.LoopControlRegisterResults : Prop :=
  (∀ (s : State) (o : OpL), Ready s →
    let n := (now s).rx (dReg o.d)
    (dN o.d = false → GivesCtx (.loop o) s .none { (now s) with
      lc := if n = 0 then 1 else n, ls := nextPc s (.loop o)
      le := BitVec.ofNat 60 ((now s).pc.toNat + (immL o.p o.i).toNat * 4) })
    ∧ (dN o.d = true → TrapsIllegal (.loop o) s 0))
  ∧ (∀ (s : State) (o : OpDi), Ready s → Guard s o.g →
    let n := (immU o.p o.i).toNat
    let k := now s
    let c := s.turn
    let svc := c - 4096
    let compute : List (Nat × Nat × Word) :=
      [(0x000, 0, BitVec.ofNat 64 (nowCtx s)), (0x001, 0, BitVec.ofNat 64 (c % 4096)), (0x002, 0, BitVec.ofNat 64 (clusterOf c)),
       (0x003, 0, BitVec.ofNat 64 (dieOf c)), (0x004, 0, s.pkg.setWidth 64), (0x005, 0, k.region.setWidth 64), (0x010, 0, k.status),
       (0x011, 0, k.fflags.setWidth 64), (0x012, 0, k.frm.setWidth 64), (0x013, 0, k.tiles), (0x018, 0, k.lc),
       (0x019, 0, k.ls.setWidth 64), (0x01A, 0, k.le.setWidth 64), (0x020, 0, k.ulvec.setWidth 64), (0x021, 0, k.uepc.setWidth 64),
       (0x022, 0, k.uval), (0x040, 0, BitVec.ofNat 64 (s.core c).cycle), (0x041, 0, BitVec.ofNat 64 s.time), (0x080, 1, k.cause),
       (0x081, 1, k.epc.setWidth 64), (0x082, 1, k.tval), (0x083, 1, k.tframe.setWidth 64), (0x084, 1, k.tvec.setWidth 64),
       (0x085, 1, k.npc.setWidth 64)]
    let machine : List (Nat × Nat × Word) :=
      [(0x101, 3, (s.body (bodyOf svc)).slot.setWidth 64), (0x102, 3, k.mhb), (0x108, 3, s.meas.extractLsb' 0 64),
       (0x109, 3, s.meas.extractLsb' 64 64), (0x10A, 3, s.meas.extractLsb' 128 64), (0x10B, 3, s.meas.extractLsb' 192 64),
       (0x100, 3, BitVec.ofNat 64 (bodyOf svc + (if k.newImage then 8 else 0)
          + (if (s.body (bodyOf svc)).probation.isSome then 16 else 0)))]
    let table := compute ++ (if 4096 ≤ c then machine else [])
    (∀ e ∈ table, n = e.1 → if k.prv < e.2.1 then Traps (.crr o) s cPrivilege ((slotWord (.crr o)).setWidth 64)
      else GivesX (.crr o) s o.d e.2.2)
    ∧ ((∀ e ∈ table, n ≠ e.1) → Traps (.crr o) s cIllegal (BitVec.ofNat 64 (2 * 2 ^ 32 + n % 2 ^ 32))))
  ∧ (∀ (s : State) (o : OpAi), Ready s → Guard s o.g → Readable s [o.a] →
    let n := (immU o.p o.i).toNat
    let A := X s o.a
    let k := now s
    let address : BitVec 60 := A.setWidth 60 &&& ~~~(3#60)
    let written : List (Nat × Nat × Ctx) :=
      [(0x010, 0, { k with status := (k.status &&& ~~~(0x1F20#64)) ||| (A &&& 0x1F20#64) }),
       (0x011, 0, { k with fflags := A.setWidth 5 }), (0x012, 0, { k with frm := A.setWidth 2 }), (0x018, 0, { k with lc := A }),
       (0x019, 0, { k with ls := address }), (0x01A, 0, { k with le := address }), (0x020, 0, { k with ulvec := address }),
       (0x080, 1, { k with cause := A &&& 0xFFFF#64 }), (0x081, 1, { k with epc := A.setWidth 60 }), (0x082, 1, { k with tval := A }),
       (0x083, 1, { k with tframe := A.setWidth 60 }), (0x084, 1, { k with tvec := address }), (0x085, 1, { k with npc := A.setWidth 60 })]
    let readOnly : List Nat := [0x000, 0x001, 0x002, 0x003, 0x004, 0x005, 0x021, 0x022, 0x040, 0x041]
    (∀ e ∈ written, n = e.1 → if k.prv < e.2.1 then Traps (.crw o) s cPrivilege ((slotWord (.crw o)).setWidth 64)
      else GivesCtx (.crw o) s .none e.2.2)
    ∧ (n ∈ readOnly → GivesCtx (.crw o) s .none k)
    ∧ (n = 0x013 → if s.tilesOk s.turn (nowCtx s) (A &&& 0x3F1F#64) then GivesCtx (.crw o) s .none { k with tiles := A &&& 0x3F1F#64 }
      else Traps (.crw o) s cTileWindow A)
    ∧ (n = 0x102 ∧ 4096 ≤ s.turn ∧ k.prv = 3 → Gives (.crw o) s
      ((s.modBody (bodyOf (s.turn - 4096)) (fun b => { b with beats := b.beats.set (s.turn - 4096) s.time })).setCtx s.turn (nowCtx s)
        (goOn (latched { k with mhb := A } .none) (nextPc s (.crw o)))))
    ∧ (n ∈ [0x100, 0x101, 0x108, 0x109, 0x10A, 0x10B] ∧ 4096 ≤ s.turn ∧ k.prv = 3 → GivesCtx (.crw o) s .none k)
    ∧ (0x086 ≤ n ∧ (s.turn < 4096 ∨ n < 0x100 ∨ 0x10B < n) →
      Traps (.crw o) s cIllegal (BitVec.ofNat 64 (2 * 2 ^ 32 + n % 2 ^ 32))))

/-! ### Vector instructions -/

/-- R325, R326: vector arithmetic, element by element in every type, integer and floating point; elements that the mask excludes keep
the destination's old content. -/
def Obligations.VectorArithmeticResults : Prop :=
  (∀ (s : State) (o : OpDabT3), Ready s → Unbound s → Guard s o.g → MaskOnly o.p → Readable s [o.a, o.b] →
    let t := o.t.toNat
    let n := typeWidth t
    let a := vElem (V s o.a) n
    let b := vElem (V s o.b) n
    let mode := RMode.of (now s).frm
    let F := typeFmt t
    let gives (i : Instr) (int : Nat → Nat) (fp : Nat → Nat × FFlags) : Prop :=
      (t < 4 → GivesLanes i s o.p o.d n int) ∧ (4 ≤ t → Fp64 s (t == 7) → GivesLanesF i s o.p o.d n fp)
    let sat (i : Instr) (f : Int → Int → Int) : Prop :=
      let w := typeWidth (t % 4)
      let x := vElem (V s o.a) w
      let y := vElem (V s o.b) w
      GivesLanes i s o.p o.d w (fun j =>
        if t < 4 then
          let r := f (sInt (8 * w) (x j)) (sInt (8 * w) (y j))
          uWrap (8 * w) (if r < -(2 ^ (8 * w - 1) : Nat) then -(2 ^ (8 * w - 1) : Nat) else if (2 ^ (8 * w - 1) : Nat) ≤ r
            then (2 ^ (8 * w - 1) : Nat) - 1 else r)
        else
          let r := f (x j) (y j)
          if r < 0 then 0 else if (2 ^ (8 * w) : Nat) ≤ r then 2 ^ (8 * w) - 1 else r.toNat)
    gives (.vadd o) (fun j => a j + b j) (fun j => F.add mode (a j) (b j))
    ∧ gives (.vsub o) (fun j => uWrap (8 * n) (a j - b j)) (fun j => F.sub mode (a j) (b j))
    ∧ gives (.vmul o) (fun j => a j * b j) (fun j => F.mul mode (a j) (b j))
    ∧ gives (.vmin o) (fun j => if sInt (8 * n) (a j) ≤ sInt (8 * n) (b j) then a j else b j) (fun j => F.minmax false (a j) (b j))
    ∧ gives (.vmax o) (fun j => if sInt (8 * n) (a j) ≤ sInt (8 * n) (b j) then b j else a j) (fun j => F.minmax true (a j) (b j))
    ∧ sat (.vadds o) (fun x y => x + y) ∧ sat (.vsubs o) (fun x y => x - y))
  ∧ (∀ (s : State) (o : OpDabT2), Ready s → Unbound s → Guard s o.g → MaskOnly o.p → Readable s [o.a, o.b] →
    let t := o.t.toNat
    let n := typeWidth t
    let a := vElem (V s o.a) n
    let b := vElem (V s o.b) n
    let c := vElem ((now s).rv (dReg o.d)) n
    let w := typeWidth (t + 4)
    let F := typeFmt (t + 4)
    let x := vElem (V s o.a) w
    let y := vElem (V s o.b) w
    let z := vElem ((now s).rv (dReg o.d)) w
    let mode := RMode.of (now s).frm
    GivesLanes (.vmla o) s o.p o.d n (fun j => c j + a j * b j)
    ∧ GivesLanes (.vminu o) s o.p o.d n (fun j => if a j ≤ b j then a j else b j)
    ∧ GivesLanes (.vmaxu o) s o.p o.d n (fun j => if a j ≤ b j then b j else a j)
    ∧ (Fp64 s (t == 3) → GivesLanesF (.vfma o) s o.p o.d w (fun j => F.fma mode false false (x j) (y j) (z j))
      ∧ GivesLanesF (.vdiv o) s o.p o.d w (fun j => F.quot mode (x j) (y j))))
  ∧ (∀ (s : State) (o : OpDaT2), Ready s → Unbound s → Guard s o.g → MaskOnly o.p → Readable s [o.a] → Fp64 s (o.t.toNat == 3) →
    let w := typeWidth (o.t.toNat + 4)
    GivesLanesF (.vsqrt o) s o.p o.d w (fun j => (typeFmt (o.t.toNat + 4)).root (RMode.of (now s).frm) (vElem (V s o.a) w j)))

/-- R327, R328, R331, R332, R343: logic, selection, shifts, permutes, moves and sign operations. -/
def Obligations.VectorMoveLogicResults : Prop :=
  (∀ (s : State) (o : OpDab), Ready s → Unbound s → Guard s o.g → MaskOnly o.p → Readable s [o.a, o.b] →
    let a := vElem (V s o.a)
    let b := vElem (V s o.b)
    GivesLanes (.vand o) s o.p o.d 1 (fun j => a 1 j &&& b 1 j) ∧ GivesLanes (.vor o) s o.p o.d 1 (fun j => a 1 j ||| b 1 j)
    ∧ GivesLanes (.vxor o) s o.p o.d 1 (fun j => a 1 j ^^^ b 1 j) ∧ GivesLanes (.vandn o) s o.p o.d 1 (fun j => a 1 j &&& (255 - b 1 j))
    ∧ (∃ R, GivesV (.vsel o) s o.d R ∧ ∀ j, j < 16 → vElem R 1 j = if bit (maskOf s o.p) j then a 1 j else b 1 j)
    ∧ GivesLanes (.vshuf o) s o.p o.d 1 (fun j => if b 1 j < 16 then a 1 (b 1 j) else 0)
    ∧ GivesLanes (.vzipl o) s o.p o.d 4 (fun j => [a 4 0, b 4 0, a 4 1, b 4 1].getD j 0)
    ∧ GivesLanes (.vziph o) s o.p o.d 4 (fun j => [a 4 2, b 4 2, a 4 3, b 4 3].getD j 0)
    ∧ GivesLanes (.vuzpe o) s o.p o.d 4 (fun j => [a 4 0, a 4 2, b 4 0, b 4 2].getD j 0)
    ∧ GivesLanes (.vuzpo o) s o.p o.d 4 (fun j => [a 4 1, a 4 3, b 4 1, b 4 3].getD j 0))
  ∧ (∀ (s : State) (o : OpDabT2), Ready s → Unbound s → Guard s o.g → MaskOnly o.p → Readable s [o.a, o.b] →
    let n := typeWidth o.t.toNat
    let a := vElem (V s o.a) n
    let b := vElem (V s o.b) n
    GivesLanes (.vsll o) s o.p o.d n (fun j => if 8 * n ≤ b j then 0 else a j * 2 ^ b j)
    ∧ GivesLanes (.vsrl o) s o.p o.d n (fun j => if 8 * n ≤ b j then 0 else a j / 2 ^ b j)
    ∧ GivesLanes (.vsra o) s o.p o.d n (fun j =>
      uWrap (8 * n) (sInt (8 * n) (a j) / (2 ^ (if 8 * n ≤ b j then 8 * n else b j) : Nat))))
  ∧ (∀ (s : State) (o : OpDaT2), Ready s → Unbound s → Guard s o.g → MaskOnly o.p → Readable s [o.a] →
    GivesLanes (.vsplat o) s o.p o.d (typeWidth o.t.toNat) (fun _ => (X s o.a).toNat))
  ∧ (∀ (s : State) (o : OpDai), Ready s → Unbound s → Guard s o.g → Readable s [o.a] →
    let k := (immS o.p o.i).toNat
    let old := (now s).rv (dReg o.d)
    (k < 2 → GivesX (.vget o) s o.d (BitVec.ofNat 64 (vElem (V s o.a) 8 k))
      ∧ ∃ R, GivesV (.vput o) s o.d R ∧ ∀ j, j < 2 → vElem R 8 j = if j = k then (X s o.a).toNat else vElem old 8 j)
    ∧ (2 ≤ k → TrapsIllegal (.vget o) s 0 ∧ TrapsIllegal (.vput o) s 0))
  ∧ (∀ (s : State) (o : OpDa), Ready s → Unbound s → Guard s o.g → MaskOnly o.p → Readable s [o.a] →
    let a := vElem (V s o.a)
    GivesLanes (.vabsF32 o) s o.p o.d 4 (fun j => a 4 j % 2 ^ 31) ∧ GivesLanes (.vnegF32 o) s o.p o.d 4 (fun j => a 4 j + 2 ^ 31)
    ∧ GivesLanes (.vabsI32 o) s o.p o.d 4 (fun j => (sInt 32 (a 4 j)).natAbs)
    ∧ GivesLanes (.vnegI32 o) s o.p o.d 4 (fun j => 2 ^ 32 - a 4 j)
    ∧ GivesLanes (.vabsF16 o) s o.p o.d 2 (fun j => a 2 j % 2 ^ 15) ∧ GivesLanes (.vnegF16 o) s o.p o.d 2 (fun j => a 2 j + 2 ^ 15)
    ∧ (Fp64 s true → GivesLanes (.vabsF64 o) s o.p o.d 8 (fun j => a 8 j % 2 ^ 63)
      ∧ GivesLanes (.vnegF64 o) s o.p o.d 8 (fun j => a 8 j + 2 ^ 63)))

/-- R329, R330: vector compares write the mask bits of their enabled elements and keep the others, mask logic a whole mask; a
destination or operand above 7 traps with cause illegal-opcode. -/
def Obligations.VectorCompareMaskResults : Prop :=
  let compare (i : Instr) (s : State) (p : Option (BitVec 24)) (d : BitVec 6) (n : Nat) (f : Nat → Bool × FFlags) : Prop :=
    let F := flagsOf (((List.range (16 / n)).filter (fun j => bit (maskOf s p) (n * j))).map (fun j => (0, (f j).2)))
    if d.toNat < 8 then
      ∃ M : BitVec 16, (∀ j, j < 16 → bit M j = if bit (maskOf s p) (n * (j / n)) then (f (j / n)).1 else bit ((now s).rm d.toNat) j)
        ∧ (Quiet s F → GivesCtx i s .none (raised ((now s).wm d.toNat M) F)) ∧ (¬ Quiet s F → Traps i s cFp (F.setWidth 64))
    else TrapsIllegal i s 0
  (∀ (s : State) (o : OpDabT3), Ready s → Unbound s → Guard s o.g → MaskOnly o.p → Readable s [o.a, o.b] →
    let t := o.t.toNat
    let n := typeWidth t
    let a := vElem (V s o.a) n
    let b := vElem (V s o.b) n
    let x j := (typeFmt t).decode (a j)
    let y j := (typeFmt t).decode (b j)
    let gives (i : Instr) (int : Nat → Bool) (fp : Nat → Bool × FFlags) : Prop :=
      (t < 4 → compare i s o.p o.d n (fun j => (int j, 0))) ∧ (4 ≤ t → Fp64 s (t == 7) → compare i s o.p o.d n fp)
    gives (.vcmpeq o) (fun j => decide (a j = b j)) (fun j => (FVal.eq (x j) (y j), nvQuiet (x j) (y j)))
    ∧ gives (.vcmplt o) (fun j => decide (sInt (8 * n) (a j) < sInt (8 * n) (b j))) (fun j => (FVal.lt (x j) (y j), nvAny (x j) (y j))))
  ∧ (∀ (s : State) (o : OpDabT2), Ready s → Unbound s → Guard s o.g → MaskOnly o.p → Readable s [o.a, o.b] →
    let t := o.t.toNat
    let n := typeWidth t
    let w := typeWidth (t + 4)
    let x j := (typeFmt (t + 4)).decode (vElem (V s o.a) w j)
    let y j := (typeFmt (t + 4)).decode (vElem (V s o.b) w j)
    compare (.vcmpltu o) s o.p o.d n (fun j => (decide (vElem (V s o.a) n j < vElem (V s o.b) n j), 0))
    ∧ (Fp64 s (t == 3) → compare (.vcmple o) s o.p o.d w (fun j => (FVal.le (x j) (y j), nvAny (x j) (y j)))))
  ∧ (∀ (s : State) (o : OpDab), Ready s → Guard s o.g → Unmodified o.p →
    let ok := o.d.toNat < 8 ∧ o.a.toNat < 8 ∧ o.b.toNat < 8
    let gives (i : Instr) (m : BitVec 16) : Prop :=
      (ok → GivesCtx i s .none ((now s).wm o.d.toNat m)) ∧ (¬ ok → TrapsIllegal i s 0)
    let a := (now s).rm o.a.toNat
    let b := (now s).rm o.b.toNat
    gives (.mand o) (a &&& b) ∧ gives (.mor o) (a ||| b) ∧ gives (.mxor o) (a ^^^ b) ∧ gives (.mandn o) (a &&& ~~~b))
  ∧ (∀ (s : State) (o : OpDa), Ready s → Guard s o.g → Unmodified o.p → Readable s [o.a] →
    (o.d.toNat < 8 → GivesCtx (.mset o) s .none ((now s).wm o.d.toNat ((X s o.a).setWidth 16)))
    ∧ (8 ≤ o.d.toNat → TrapsIllegal (.mset o) s 0))

/-- R333, R334: conversions narrow the FP32 (or FP64) elements of A then B under `frm`, or widen the group of elements of A that field
b names, exactly; a group that does not exist traps with cause illegal-opcode. -/
def Obligations.VectorConversionResults : Prop :=
  (∀ (s : State) (o : OpDab), Ready s → Unbound s → Guard s o.g → MaskOnly o.p → Readable s [o.a, o.b] →
    let mode := RMode.of (now s).frm
    let x (n j : Nat) : Nat := if j < 16 / n then vElem (V s o.a) n j else vElem (V s o.b) n (j - 16 / n)
    let eight (F : Fmt) (sat : Bool) (j : Nat) : Nat × FFlags := if j < 8 then Fmt.f32.cvt F mode sat (x 4 j) else (0, 0)
    let nibbles (j : Nat) : Nat × FFlags :=
      let lo := Fmt.f32.cvt .e2m1 mode false (x 4 (2 * j))
      let hi := Fmt.f32.cvt .e2m1 mode false (x 4 (2 * j + 1))
      if j < 4 then (lo.1 + 16 * hi.1, lo.2 ||| hi.2) else (0, 0)
    GivesLanesF (.vcvtBf16F32 o) s o.p o.d 2 (fun j => Fmt.f32.cvt .bf16 mode false (x 4 j))
    ∧ GivesLanesF (.vcvtF16F32 o) s o.p o.d 2 (fun j => Fmt.f32.cvt .f16 mode false (x 4 j))
    ∧ (Fp64 s true → GivesLanesF (.vcvtF32F64 o) s o.p o.d 4 (fun j => Fmt.f64.cvt .f32 mode false (x 8 j)))
    ∧ GivesLanesF (.vcvtE4m3F32 o) s o.p o.d 1 (eight .e4m3 false) ∧ GivesLanesF (.vcvtsE4m3F32 o) s o.p o.d 1 (eight .e4m3 true)
    ∧ GivesLanesF (.vcvtE5m2F32 o) s o.p o.d 1 (eight .e5m2 false) ∧ GivesLanesF (.vcvtE2m1F32 o) s o.p o.d 1 nibbles)
  ∧ (∀ (s : State) (o : OpDab), Ready s → Unbound s → Guard s o.g → MaskOnly o.p → Readable s [o.a] →
    let a := vElem (V s o.a)
    let g := o.b.toNat
    let gives (i : Instr) (limit n : Nat) (x64 : Bool) (f : Nat → Nat × FFlags) : Prop :=
      (g ≤ limit → Fp64 s x64 → GivesLanesF i s o.p o.d n f) ∧ (limit < g → TrapsIllegal i s 0)
    gives (.vcvtF32Bf16 o) 1 4 false (fun j => Fmt.bf16.cvt .f32 .rne false (a 2 (4 * g + j)))
    ∧ gives (.vcvtF32F16 o) 1 4 false (fun j => Fmt.f16.cvt .f32 .rne false (a 2 (4 * g + j)))
    ∧ gives (.vcvtF64F32 o) 1 8 true (fun j => Fmt.f32.cvt .f64 .rne false (a 4 (2 * g + j)))
    ∧ gives (.vcvtF32E4m3 o) 3 4 false (fun j => Fmt.e4m3.cvt .f32 .rne false (a 1 (4 * g + j)))
    ∧ gives (.vcvtF32E5m2 o) 3 4 false (fun j => Fmt.e5m2.cvt .f32 .rne false (a 1 (4 * g + j)))
    ∧ gives (.vcvtF32E2m1 o) 7 4 false (fun j => Fmt.e2m1.cvt .f32 .rne false (bitsN (V s o.a) (4 * (4 * g + j)) 4)))
  ∧ (∀ (s : State) (o : OpDa), Ready s → Unbound s → Guard s o.g → MaskOnly o.p → Readable s [o.a] →
    let mode := RMode.of (now s).frm
    let a := vElem (V s o.a) 4
    GivesLanesF (.vcvtF32I32 o) s o.p o.d 4 (fun j => Fmt.f32.round mode false (FVal.ofInt (sInt 32 (a j))))
    ∧ GivesLanesF (.vcvtI32F32 o) s o.p o.d 4 (fun j =>
      let r := (Fmt.f32.decode (a j)).toInt mode (-(2 ^ 31)) (2 ^ 31 - 1)
      ((r.1 % 2 ^ 32).toNat, r.2)))

/-- R335, R336, R338, R342: decode tables, block scales and curve tables of the issuing core, and what makes a slot that uses them
illegal (R46, R102, R247). -/
def Obligations.VectorTableScaleResults : Prop :=
  (∀ (s : State) (o : OpDabT2), Ready s → Unbound s → Guard s o.g → MaskOnly o.p → Readable s [o.a, o.b] → (now s).loaded = [] →
    let T := (s.core s.turn).decTab o.t.toNat
    let c (j : Nat) : Nat := T.encode (Fmt.f32.decode (if j < 4 then vElem (V s o.a) 4 j else vElem (V s o.b) 4 (j - 4)))
    if T.enc then GivesLanes (.vquant o) s o.p o.d 1 (fun j =>
      if T.nib then (if j < 4 then c (2 * j) + 16 * c (2 * j + 1) else 0) else if j < 8 then c j else 0)
    else Traps (.vquant o) s cIllegal (BitVec.ofNat 64 (4 * 2 ^ 32 + o.t.toNat)))
  ∧ (∀ (s : State) (o : OpDabT2), Ready s → Unbound s → Guard s o.g → MaskOnly o.p → Readable s [o.a] → (now s).loaded = [] →
    let T := (s.core s.turn).decTab o.t.toNat
    let code (j : Nat) : Nat := if T.nib then bitsN (V s o.a) (4 * (4 * o.b.toNat + j)) 4 else vElem (V s o.a) 1 (4 * o.b.toNat + j)
    if o.b.toNat ≤ (if T.nib then 7 else 3) then GivesLanes (.vdec o) s o.p o.d 4 (fun j => toF32 (T.decode (code j)).quiet)
    else TrapsIllegal (.vdec o) s 0)
  ∧ (∀ (s : State) (o : OpDaT2), Ready s → Unbound s → Guard s o.g → MaskOnly o.p → Readable s [o.a] → (now s).loaded = [] →
    GivesLanesF (.vcurve o) s o.p o.d 4 (fun j => curveEval ((s.core s.turn).curve o.t.toNat) (vElem (V s o.a) 4 j)))
  ∧ (∀ (s : State) (o : OpDab) (m : BitVec 24), Ready s → Unbound s → Guard s o.g → o.p = some m → bitsN m 14 10 = 0 → bit m 3 = false →
    Readable s [o.a, o.b] → (now s).loaded = [] →
    let k := s.core s.turn
    let f : BitVec 10 := m.extractLsb' 4 10
    let nib := elfNibble k (bitsN f 0 4)
    let value (v : Vec) (j : Nat) : FVal := elfValue k (bitsN f 0 4) (if nib then bitsN v (4 * j) 4 else vElem v 1 j)
    let reserved : Bool := bitsN f 8 2 = 3 ∨ bitsN f 6 2 = 3 ∨ bitsN f 4 2 = 3 ∨ 8 ≤ bitsN f 0 4
    let size := 8 * 2 ^ bitsN f 4 2
    let count := if nib then 32 else 16
    let sw := (V s o.b).toNat
    let scales := (now s).rv (dReg o.d)
    (if reserved then Traps (.vbsc o) s cIllegal (BitVec.ofNat 64 (2 ^ 32 + f.toNat))
      else GivesLanesF (.vbsc o) s o.p o.d 4 (fun j =>
        scaledElement (value (V s o.a) (4 * (sw / 2 ^ 8 % (if nib then 8 else 4)) + j)) (blockScale (bitsN f 6 2) (sw % 256))
          (tensorScale (bitsN f 8 2) (sw / 2 ^ 32))))
    ∧ (bitsN f 8 2 = 1 ∨ bitsN f 8 2 = 2 → Traps (.vdotb o) s cIllegal (BitVec.ofNat 64 (0x7F000000 + m.toNat)))
    ∧ (bitsN f 8 2 = 0 ∨ bitsN f 8 2 = 3 → if reserved ∨ count % size ≠ 0 then Traps (.vdotb o) s cIllegal (BitVec.ofNat 64 (2 ^ 32 + f.toNat))
      else GivesLanesF (.vdotb o) s o.p o.d 4 (fun j =>
        if j < count / size then
          let a := (List.range size).map (fun i => value (V s o.a) (i + j * size))
          let b := (List.range size).map (fun i => value (V s o.b) (i + j * size))
          let ps := products (a.zip b)
          let sum := groupSumF ps.1
          let p := applyScale sum.1 (blockScale (bitsN f 6 2) (vElem scales 1 j)) (a.any FVal.isZero)
          let q := applyScale p.1 (blockScale (bitsN f 6 2) (vElem scales 1 (4 + j))) (b.any FVal.isZero)
          (q.1, ps.2 ||| sum.2 ||| p.2 ||| q.2)
        else (0, 0))))

/-- R337, R339 to R341: dot products add to Old(d), reductions follow the pairwise tree of R58 over the enabled elements, `vtopk` keeps
the entries that rank highest, `vamax` the larger magnitude. -/
def Obligations.VectorReductionResults : Prop :=
  (∀ (s : State) (o : OpDab), Ready s → Unbound s → Guard s o.g → MaskOnly o.p → Readable s [o.a, o.b] →
    let a := vElem (V s o.a)
    let b := vElem (V s o.b)
    let c := vElem ((now s).rv (dReg o.d)) 4
    let dot (m : Nat) (value : Nat → FVal) (j : Nat) : Nat × FFlags :=
      let el (v : Vec) (i : Nat) : FVal := value (bitsN v (32 * j + 32 / m * i) (32 / m))
      let ps := products ((List.range m).map (fun i => (el (V s o.a) i, el (V s o.b) i)))
      let g := groupSumF ps.1
      let r := Fmt.f32.add .rne (c j) g.1
      (r.1, ps.2 ||| g.2 ||| r.2)
    let i8 (v : Nat → Nat) (j : Nat) : Int := sInt 8 (v j)
    let top (i : Instr) (n : Nat) (F : Fmt) : Prop :=
      let entries (v : Nat → Nat) : List Nat := ((List.range (16 / n)).filter (fun j => bit (maskOf s o.p) (n * j))).map v
      let L := (entries (a n) ++ entries (b n)).foldl (fun l x => rankInsert F (4 * n) x l) []
      ∃ R, GivesV i s o.d R
        ∧ ∀ j, j < 16 / n → vElem R n j = L.getD j (F.nan * 2 ^ (4 * n) + (2 ^ (4 * n) - 1)) % 2 ^ (8 * n)
    GivesLanesF (.vdotE2m1 o) s o.p o.d 4 (dot 8 Fmt.e2m1.decode) ∧ GivesLanesF (.vdotE4m3 o) s o.p o.d 4 (dot 4 Fmt.e4m3.decode)
    ∧ GivesLanesF (.vdotE5m2 o) s o.p o.d 4 (dot 4 (fun x => (Fmt.e5m2.decode x).quiet))
    ∧ GivesLanesF (.vdotBf16 o) s o.p o.d 4 (dot 2 Fmt.bf16.decode) ∧ GivesLanesF (.vdotF16 o) s o.p o.d 4 (dot 2 Fmt.f16.decode)
    ∧ GivesLanes (.vdotI8 o) s o.p o.d 4 (fun j => uWrap 32 (sInt 32 (c j)
      + i8 (a 1) (4 * j) * i8 (b 1) (4 * j) + i8 (a 1) (4 * j + 1) * i8 (b 1) (4 * j + 1)
      + i8 (a 1) (4 * j + 2) * i8 (b 1) (4 * j + 2) + i8 (a 1) (4 * j + 3) * i8 (b 1) (4 * j + 3)))
    ∧ top (.vtopkF32 o) 8 .f32 ∧ top (.vtopkBf16 o) 4 .bf16
    ∧ GivesLanesF (.vamaxF32 o) s o.p o.d 4 (fun j => Fmt.f32.minmax true (b 4 j) (a 4 j % 2 ^ 31))
    ∧ GivesLanesF (.vamaxBf16 o) s o.p o.d 2 (fun j => Fmt.bf16.minmax true (b 2 j) (a 2 j % 2 ^ 15))
    ∧ GivesLanesF (.vamaxF16 o) s o.p o.d 2 (fun j => Fmt.f16.minmax true (b 2 j) (a 2 j % 2 ^ 15)))
  ∧ (∀ (s : State) (o : OpDa), Ready s → Unbound s → Guard s o.g → MaskOnly o.p → Readable s [o.a] →
    let mode := RMode.of (now s).frm
    let gives (i : Instr) (n : Nat) (empty : Nat) (pre : Nat → Nat) (f : Nat → Nat → Nat × FFlags) : Prop :=
      let r := treeReduce f ((List.range (16 / n)).map (fun j =>
        (if bit (maskOf s o.p) (n * j) then some (pre (vElem (V s o.a) n j)) else none, 0)))
      GivesVF i s o.d (BitVec.ofNat 128 (r.1.getD empty)) r.2
    gives (.vhsumF32 o) 4 0 id (Fmt.f32.add mode) ∧ gives (.vhsumF16 o) 2 0 id (Fmt.f16.add mode)
    ∧ gives (.vhsumBf16 o) 2 0 id (Fmt.bf16.add mode) ∧ (Fp64 s true → gives (.vhsumF64 o) 8 0 id (Fmt.f64.add mode))
    ∧ gives (.vhsumI32 o) 4 0 id (fun x y => ((x + y) % 2 ^ 32, 0))
    ∧ gives (.vhminF32 o) 4 Fmt.f32.nan id (Fmt.f32.minmax false) ∧ gives (.vhmaxF32 o) 4 Fmt.f32.nan id (Fmt.f32.minmax true)
    ∧ gives (.vhamaxF32 o) 4 Fmt.f32.nan (fun x => x % 2 ^ 31) (Fmt.f32.minmax true))

/-! ### Memory -/

/-- R346, R349, R350 with R64, R133, R166, R167: loads. A misaligned address and one that does not translate trap; bytes of the own
slice, and of a line that the logged-read buffer holds while nothing of the core is ahead, are loaded at once; every other load goes on
its way and its register and latch await the result. -/
def Obligations.LoadResults : Prop :=
  let value (sgn : Bool) (n : Nat) (raw : List Byte) : Word :=
    BitVec.ofNat 64 (if sgn then uWrap 64 (sInt (8 * n) (ofBytes raw)) else ofBytes raw)
  let load (s : State) (i : Instr) (isV sgn : Bool) (d : BitVec 6) (n : Nat) (mask : BitVec 16) (ea : Word) : Prop :=
    let old := (now s).rv (dReg d)
    (ea.toNat % n ≠ 0 → Traps i s cMisaligned ea)
    ∧ (∀ code v, ea.toNat % n = 0 → translate s s.turn (nowCtx s) .load ea = .error (.trap code v) → code ≠ cPoison → code ≠ cFp →
      Traps i s code v)
    ∧ (∀ x, ea.toNat % n = 0 → Reaches s .load ea x → Clear s x [lineOf x.pa] →
      let u := s.eccRange x.pa n
      u.poisoned x.pa n = none →
      let atHand (raw : List Byte) : Prop :=
        if isV then ∃ R, Lanes 1 mask old R (fun j => (raw.getD j 0).toNat)
          ∧ GivesTo i s (.val R) (inNow s u (fun k => if dN d then k else k.wv (dReg d) R))
        else GivesTo i s (.val ((value sgn n raw).setWidth 128)) (inNow s u (fun k => if dN d then k else k.wx (dReg d) (value sgn n raw)))
      let near := kindOf x.pa = 0 ∧ sliceCore x.pa = s.turn
      let held := s.heldRead s.turn x n
      (near → atHand (Mem.bytes s.mem x.pa n))
      ∧ (∀ raw, ¬ near → held = some raw → atHand raw)
      ∧ (¬ near → held = none → GivesTo i s .await (inNow s
        (sent s u (slotNo i) (orderUnit x.pa) (.load (nowCtx s) isV (destReg isV d) n sgn x.pa (latchNo s) (leafL x.leaf) mask (if isV then old else 0)))
        (awaiting isV d))))
  (∀ (s : State) (o : OpDab), Ready s → Guard s o.g → Unmodified o.p → Readable s [o.a, o.b] →
    let scalar (i : Instr) (n : Nat) (sgn : Bool) : Prop := load s i false sgn o.d n 0xFFFF (X s o.a + X s o.b)
    scalar (.ldU8R o) 1 false ∧ scalar (.ldI8R o) 1 true ∧ scalar (.ldU16R o) 2 false ∧ scalar (.ldI16R o) 2 true
    ∧ scalar (.ldU32R o) 4 false ∧ scalar (.ldI32R o) 4 true ∧ scalar (.ldU64R o) 8 false)
  ∧ (∀ (s : State) (o : OpDai), Ready s → Guard s o.g → Readable s [o.a] →
    let scalar (i : Instr) (n : Nat) (sgn : Bool) : Prop := load s i false sgn o.d n 0xFFFF (X s o.a + immS o.p o.i * BitVec.ofNat 64 n)
    scalar (.ldU8I o) 1 false ∧ scalar (.ldI8I o) 1 true ∧ scalar (.ldU16I o) 2 false ∧ scalar (.ldI16I o) 2 true
    ∧ scalar (.ldU32I o) 4 false ∧ scalar (.ldI32I o) 4 true ∧ scalar (.ldU64I o) 8 false
    ∧ (Unbound s → load s (.vldI o) true false o.d 16 0xFFFF (X s o.a + immS o.p o.i * 16)))
  ∧ (∀ (s : State) (o : OpDab), Ready s → Unbound s → Guard s o.g → MaskOnly o.p → Readable s [o.a, o.b] →
    load s (.vldR o) true false o.d 16 (maskOf s o.p) (X s o.a + X s o.b))

/-- R351, R352, R355, R356 with R132, R134, R153: stores, adds and `pref`. A misaligned address and one that does not translate trap; the
runs of a masked store are disjoint, aligned, and cover the enabled bytes and no other; `pref` leaves what its read of the line leaves. -/
def Obligations.StoreResults : Prop :=
  let store (s : State) (i : Instr) (n : Nat) (data : Nat) (en : Nat → Bool) (add : Option (BitVec 8)) (ea : Word) : Prop :=
    (ea.toNat % n ≠ 0 → Traps i s cMisaligned ea)
    ∧ (∀ code v, ea.toNat % n = 0 → translate s s.turn (nowCtx s) .store ea = .error (.trap code v) → code ≠ cPoison → code ≠ cFp →
      Traps i s code v)
    ∧ (∀ x u, ea.toNat % n = 0 → Reaches s .store ea x → Stored s (slotNo i) x (toBytes n data) en add u → GivesTo i s .none (stamped s u))
  let all (_ : Nat) : Bool := true
  (∀ (s : State) (o : OpDab), Ready s → Guard s o.g → Unmodified o.p → Readable s [o.a, o.b] →
    let scalar (i : Instr) (n : Nat) : Prop :=
      if dN o.d then TrapsIllegal i s 0
      else store s i n (((now s).rx (dReg o.d)).toNat % 2 ^ (8 * n)) all none (X s o.a + X s o.b)
    scalar (.stU8R o) 1 ∧ scalar (.stU16R o) 2 ∧ scalar (.stU32R o) 4 ∧ scalar (.stU64R o) 8)
  ∧ (∀ (s : State) (o : OpDai), Ready s → Guard s o.g → Readable s [o.a] →
    let scalar (i : Instr) (n : Nat) : Prop :=
      if dN o.d then TrapsIllegal i s 0
      else store s i n (((now s).rx (dReg o.d)).toNat % 2 ^ (8 * n)) all none (X s o.a + immS o.p o.i * BitVec.ofNat 64 n)
    scalar (.stU8I o) 1 ∧ scalar (.stU16I o) 2 ∧ scalar (.stU32I o) 4 ∧ scalar (.stU64I o) 8
    ∧ (Unbound s → if dN o.d then TrapsIllegal (.vstI o) s 0
      else store s (.vstI o) 16 ((now s).rv (dReg o.d)).toNat all none (X s o.a + immS o.p o.i * 16)))
  ∧ (∀ (s : State) (o : OpDab), Ready s → Unbound s → Guard s o.g → MaskOnly o.p → Readable s [o.a, o.b] →
    if dN o.d then TrapsIllegal (.vstR o) s 0
    else store s (.vstR o) 16 ((now s).rv (dReg o.d)).toNat (bit (maskOf s o.p)) none (X s o.a + X s o.b))
  ∧ (∀ (s : State) (o : OpDabT3), Ready s → Guard s o.g → Unmodified o.p → Readable s [o.a, o.b] →
    let n := typeWidth o.t.toNat
    if dN o.d then TrapsIllegal (.radd o) s 0
    else store s (.radd o) n (((now s).rx (dReg o.d)).toNat % 2 ^ (8 * n)) all (some (addFmt o.t.toNat)) (X s o.a + X s o.b))
  ∧ (∀ (s : State) (o : OpDabT3), Ready s → Unbound s → Guard s o.g → MaskOnly o.p → Readable s [o.a, o.b] →
    let n := typeWidth o.t.toNat
    if dN o.d then TrapsIllegal (.vradd o) s 0
    else store s (.vradd o) 16 ((now s).rv (dReg o.d)).toNat (fun j => bit (maskOf s o.p) (n * (j / n))) (some (addFmt o.t.toNat))
      (X s o.a + X s o.b))
  ∧ (∀ k, k ≤ 4 → maskRuns (fun j => decide (j < 2 ^ k)) 16 0 = [(0, k)])
  ∧ (∀ en j, j < 16 → ((∃ r ∈ maskRuns en 16 0, r.1 ≤ j ∧ j < r.1 + 2 ^ r.2) ↔ en j = true))
  ∧ (∀ en, (maskRuns en 16 0).Pairwise (fun r q => r.1 + 2 ^ r.2 ≤ q.1)
    ∧ ∀ r ∈ maskRuns en 16 0, r.1 % 2 ^ r.2 = 0 ∧ r.1 + 2 ^ r.2 ≤ 16
      ∧ ∀ k, r.2 < k → ¬ (r.1 % 2 ^ k = 0 ∧ r.1 + 2 ^ k ≤ 16 ∧ ∀ j, r.1 ≤ j → j < r.1 + 2 ^ k → en j = true))
  ∧ (∀ (s : State) (o : OpAb) x, Ready s → Guard s o.g → Unmodified o.p → Readable s [o.a, o.b] →
    Reaches s .load ((X s o.a + X s o.b) &&& ~~~(63#64)) x → GivesTo (.pref o) s .none (s.eccRange x.pa 64))

/-- R139, R140, R357 to R360: planed loads gather an element's planes, most significant first, and round by the guard plane where the
mode asks for it; updates read four elements, step them with the scale of their block, and write the planes that have changed as one
record, in place in a slice, or by a write on its way to bulk or host lines. -/
def Obligations.PlanedResults : Prop :=
  let address (s : State) (i : Instr) (acc : Acc) (ea : Word) (g : Nat) : Prop :=
    (256 ≤ ea.toNat % 1024 ∨ ea.toNat % 256 % g ≠ 0 → Traps i s cMisaligned ea)
    ∧ (∀ x, ¬ (256 ≤ ea.toNat % 1024 ∨ ea.toNat % 256 % g ≠ 0) → Reaches s acc ea x → leafB x.leaf = false → Traps i s cAccess ea)
  let load (s : State) (i : Instr) (o : OpDabN2) (near : Bool) : Prop :=
    let n := o.n.toNat + 1
    let count := if n = 1 then 16 else if n = 2 then 8 else 4
    let planes := if near = true ∧ n < 4 then n + 1 else n
    let ea := X s o.a + X s o.b
    address s i .load ea count
    ∧ (∀ x, ¬ (256 ≤ ea.toNat % 1024 ∨ ea.toNat % 256 % count ≠ 0) → Reaches s .load ea x → leafB x.leaf = true →
      Clear s x (planeLines x.pa planes) →
      let u := s.eccPlanes x.pa count planes
      planePoison u x.pa count planes = .ok () →
      let near' := kindOf x.pa = 0 ∧ sliceCore x.pa = s.turn
      (near' → ∃ R, GivesTo i s (.val R) (inNow s u (fun k => if dN o.d then k else k.wv (dReg o.d) R))
        ∧ ∀ j, j < count →
          let byte (m : Nat) : Nat := (Mem.read s.mem (x.pa + j + 256 * m)).toNat
          let lead := (List.range n).foldl (fun acc m => acc * 256 + byte m) 0
          let v := if near = true ∧ n < 4 then roundPlanes lead (byte n) n (modSat o.p) else lead
          vElem R (16 / count) j = (if n = 3 then v * 256 else v))
      ∧ (¬ near' → GivesTo i s .await (inNow s (sent s u (slotNo i) (orderUnit x.pa)
        (.planed (nowCtx s) (destReg true o.d) n near (modSat o.p) x.pa (latchNo s) (leafL x.leaf)) (planeUnits x.pa planes))
        (awaiting true o.d))))
  let update (s : State) (i : Instr) (o : OpDab) (scale : Nat) (f : Nat → FVal → FVal) : Prop :=
    let ea := X s o.a
    ∀ x, ¬ (256 ≤ ea.toNat % 1024 ∨ ea.toNat % 256 % 4 ≠ 0) → Reaches s .store ea x → leafB x.leaf = true →
      Clear s x (planeLines x.pa 4) → (∀ j, j < 4 → s.unitBusy s.turn (x.pa + 256 * j) = false) → s.serves x.pa = true →
      let u := s.eccPlanes x.pa 4 4
      planePoison u x.pa 4 4 = .ok () →
      let old (k : Nat) : Nat := (List.range 4).foldl (fun acc m => acc * 256 + s.rdByte s.turn (x.pa + k + 256 * m)) 0
      let new (k : Nat) : Nat :=
        if scale = 255 then old k else
        let e : Int := (scale : Int) - 127
        (Fmt.n32.round .rne false ((f (vElem ((now s).rv (dReg o.d)) 4 k) ((Fmt.n32.decode (old k)).scale2 e)).scale2 (-e))).1
      let mask := (List.range 4).foldl (fun m k => m ||| planeDiff (old k) (new k)) 0
      let data := planeData ((List.range 4).map new)
      (mask = 0 → GivesTo i s .none u)
      ∧ (mask ≠ 0 → leafL x.leaf = true → (s.core s.turn).log.room 1 = true →
        GivesTo i s .none (logged s u (logRec s x 2 3 (BitVec.ofNat 8 mask) 0 (ofBytes data))))
      ∧ (mask ≠ 0 → leafL x.leaf = false → GivesTo i s .none
        (if kindOf x.pa = 0 then u.wrPlanes x.pa mask data
         else sent s u (slotNo i) (orderUnit x.pa) (.planes (nowCtx s) x.pa mask data) (planeUnits x.pa 4)))
  (∀ (s : State) (o : OpDabN2), Ready s → Unbound s → Guard s o.g → Readable s [o.a, o.b] →
    (Unmodified o.p → load s (.ldpt o) o false) ∧ (modCheck o.p false true false = none → load s (.ldpn o) o true))
  ∧ (∀ (s : State) (o : OpDab), Ready s → Unbound s → Guard s o.g → Unmodified o.p → Readable s [o.a, o.b] → dN o.d = false →
    let ea := X s o.a
    let at' (base : Word) : Word := base + BitVec.ofNat 64 (ea.toNat % 256 / 32)
    let scaleAt (base : Word) (b : Nat) : Prop :=
      ∃ y raw, Reaches s .load (at' base) y ∧ (envOf (.pupd o) s).readNow y 1 = .ok raw ∧ b = ofBytes raw
    address s (.pupd o) .store ea 4 ∧ address s (.padam o) .store ea 4
    ∧ (o.b = 0 → update s (.pupd o) o 127 (fun u w => (w.add .rne (Fmt.f32.decode u)).1))
    ∧ (∀ b, o.b ≠ 0 → scaleAt (X s o.b) b → update s (.pupd o) o b (fun u w => (w.add .rne (Fmt.f32.decode u)).1))
    ∧ (∀ y raw, (X s o.b).toNat % 16 = 0 → Reaches s .load (X s o.b) y → (envOf (.padam o) s).readNow y 16 = .ok raw →
      let D := ofBytes raw
      let eta := Fmt.f32.decode (D / 2 ^ 64 % 2 ^ 32)
      let lambda := Fmt.f32.decode (D / 2 ^ 96 % 2 ^ 32)
      let step (u : Nat) (w : FVal) : FVal :=
        (w.add .rne (eta.mul ((Fmt.f32.decode u).add .rne (lambda.mul w).1).1).1.neg).1
      (D % 2 ^ 60 = 0 → update s (.padam o) o 127 step)
      ∧ (∀ b, D % 2 ^ 60 ≠ 0 → scaleAt (BitVec.ofNat 64 (D % 2 ^ 60)) b → update s (.padam o) o b step)))
  ∧ (∀ (s : State) (o : OpDab), Ready s → Unmodified o.p → dN o.d = true →
    TrapsIllegal (.pupd o) s 0 ∧ TrapsIllegal (.padam o) s 0)

/-- R155, R163 to R165, R169, R177, R135: log instructions and waits for accesses. -/
def Obligations.LogInstructionResults : Prop :=
  let held (s : State) (set : List Point) (u : State) : State :=
    if s.acquireDone s.turn set then s.endAcquire s.turn (nowCtx s) else u
  let first (s : State) (set : List Point) : State := inNow s s (fun k => { k with acq := some (0, some set), ownLine := none })
  (∀ (s : State) (o : OpD), Ready s → Guard s o.g → Unmodified o.p →
    let tail := (s.core s.turn).log.tail.setWidth 64
    GivesX (.lmark o) s o.d tail
    ∧ GivesTo (.rel o) s (.val (tail.setWidth 128))
      (inNow s (s.release s.turn (nowCtx s)) (fun k => if dN o.d then k else k.wx (dReg o.d) tail)))
  ∧ (∀ (s : State) (o : OpA), Ready s → Guard s o.g → Unmodified o.p → Readable s [o.a] →
    let A := X s o.a
    let m : BitVec 48 := A.setWidth 48
    let l := (s.core s.turn).log
    (l.drop (nowCtx s) m = none → Traps (.ldrop o) s cLogDrop (m.setWidth 64))
    ∧ (∀ l', l.drop (nowCtx s) m = some l' →
      GivesTo (.ldrop o) s .none ((inCore s s (fun k => { k with log := l' })).writeDropped s.turn l))
    ∧ (A.toNat % 8 ≠ 0 → Traps (.acq o) s cMisaligned A)
    ∧ (∀ x, A.toNat % 8 = 0 → Reaches s .load A x →
      (0 < (now s).acquired → GivesTo (.acq o) s .none s)
      ∧ (∀ set, (now s).acq = some (0, some set) → Waits (.acq o) s 9 (held s set s))
      ∧ (∀ set, (now s).acq = none → (envOf (.acq o) s).logSet A = .ok set → Waits (.acq o) s 9 (held s set (first s set)))))
  ∧ (∀ (s : State) (o : Op0), Ready s → Guard s o.g → Unmodified o.p →
    let set := (envOf (.acqall o) s).snapshot
    (0 < (now s).acquired → GivesTo (.acqall o) s .none s)
    ∧ (∀ taken, (now s).acq = some (0, some taken) → Waits (.acqall o) s 9 (held s taken s))
    ∧ ((now s).acq = none → Waits (.acqall o) s 9 (held s set (first s set)))
    ∧ (s.fenced s.turn (nowCtx s) = true → GivesTo (.fence o) s .none s)
    ∧ (s.fenced s.turn (nowCtx s) = false → Waits (.fence o) s 9 s)
    ∧ (s.storesDone s.turn (nowCtx s) = true → GivesTo (.drain o) s .none (s.writeBackOf s.turn))
    ∧ (s.storesDone s.turn (nowCtx s) = false → Waits (.drain o) s 9 s))

/-- R254 to R257, R362, R363: `stq` stores four scaled and rounded codes and folds their largest magnitude into the entry, `scommit`
moves the entry on, `scalc` computes its scale, keeps it, and tells in p1 whether its history was usable. A target that may not be used
traps with cause illegal-opcode. -/
def Obligations.ScaleEntryResults : Prop :=
  let entryAt (s : State) (n : Word) (y : Xl) : Prop :=
    let ea : Word := (s.region (now s).region.toNat).scale.setWidth 64 + BitVec.ofNat 64 (64 * (n.toNat % 4096))
    ea.toNat % 8 = 0 ∧ Reaches s .load ea y ∧ leafL y.leaf = false ∧ leafW y.leaf = true ∧ kindOf y.pa ≤ 1
  let atHome (i : Instr) (s u : State) (y : Xl) (op : Nat) (v : BitVec 32) (perform : State → State) : State :=
    if kindOf y.pa = 0 ∧ sliceCore y.pa = s.turn then perform (u.eccRange y.pa 64)
    else flown s u (slotNo i) (orderUnit y.pa) (.scale (nowCtx s) op y.pa v)
  (∀ (s : State) (o : OpDab) (y : Xl), Ready s → Unbound s → Guard s o.g → modCheck o.p false true false = none → Readable s [o.a, o.b] →
    dN o.d = false → (now s).loaded = [] → entryAt s (X s o.b) y → (∃ raw, (envOf (.stq o) s).readNow y 64 = .ok raw) →
    let core := s.core s.turn
    let n := s.scaleEnt y.pa
    let vs := (List.range 4).map (fun j => mulF32 (vElem ((now s).rv (dReg o.d)) 4 j) n.scl)
    let data := packCodes (quantBits core n.tfmt) (vs.map (quantCode core n.tfmt (modSat o.p)))
    let largest : BitVec 32 := BitVec.ofNat 32 (amaxF32 vs)
    (10 ≤ n.tfmt → Traps (.stq o) s cIllegal (tfmtVal n.w7))
    ∧ (6 ≤ n.tfmt → n.tfmt < 10 → (core.decTab (n.tfmt - 6)).enc = false →
      Traps (.stq o) s cIllegal (BitVec.ofNat 64 (4 * 2 ^ 32 + (n.tfmt - 6))))
    ∧ (∀ x u, tfmtTrap core n = none → (X s o.a).toNat % data.length = 0 → Reaches s .store (X s o.a) x →
      Stored s (slotNo (.stq o)) x data (fun _ => true) none u →
      GivesTo (.stq o) s .none (stamped s (atHome (.stq o) s u y 0 largest (fun v => v.scaleFold y.pa largest.toNat)))))
  ∧ (∀ (s : State) (o : OpA) (y : Xl), Ready s → Guard s o.g → Unmodified o.p → Readable s [o.a] → entryAt s (X s o.a) y →
    GivesTo (.scommit o) s .none (stamped s (atHome (.scommit o) s s y 1 0 (fun v => v.scaleCommit y.pa))))
  ∧ (∀ (s : State) (o : OpDa) (y : Xl), Ready s → Guard s o.g → Unmodified o.p → Readable s [o.a] → (now s).loaded = [] →
    entryAt s (X s o.a) y → (∃ raw, (envOf (.scalc o) s).readNow y 64 = .ok raw) →
    let n := s.scaleEnt y.pa
    let r := n.calc (scaleMax (s.core s.turn) n.tfmt)
    let u := if r.1 = n.scl then s else s.wrBytes (y.pa + 48) (toBytes 4 r.1)
    (10 ≤ n.tfmt → Traps (.scalc o) s cIllegal (tfmtVal n.w7))
    ∧ (n.tfmt < 10 → GivesTo (.scalc o) s (.val ((BitVec.ofNat 64 r.1).setWidth 128))
      (inNow s u (fun k => (if dN o.d then k else k.wx (dReg o.d) (BitVec.ofNat 64 r.1)).wp 1 r.2))))

/-- R364 to R366, R68, R126: ring pushes and pops, and the bindings of stream registers, which govern from the next bundle on. That a
pattern descriptor in the pending record store traps with its slice offset is the model's choice of `tval` (log entry 97). -/
def Obligations.RingStreamResults : Prop :=
  (∀ (s : State) (o : OpDa), Ready s → Unbound s → Guard s o.g → Unmodified o.p →
    let r := o.a.toNat
    let ring := (s.core s.turn).ring r
    let bytes := ((List.range 4).map (fun j => toBytes 16 ((now s).rv (dReg o.d + j)).toNat)).flatten
    if dN o.d = true ∨ o.d.toNat % 4 ≠ 0 ∨ 31 < r then TrapsIllegal (.rpush o) s 0
    else if ringEn ring.desc = false ∨ efmtReserved (ringLayout ring.desc) = true then Traps (.rpush o) s cRing (BitVec.ofNat 64 r)
    else (∀ u, s.ringWrite s.turn r bytes = some u → GivesTo (.rpush o) s .none u)
      ∧ (s.ringWrite s.turn r bytes = none → Waits (.rpush o) s 2 s))
  ∧ (∀ (s : State) (o : OpA), Ready s → Guard s o.g → Unmodified o.p →
    let r := o.a.toNat
    let ring := (s.core s.turn).ring r
    if 31 < r then TrapsIllegal (.rpop o) s 0
    else if ringEn ring.desc = false then Traps (.rpop o) s cRing (BitVec.ofNat 64 r)
    else if ring.head < ring.tail then GivesTo (.rpop o) s .none (inCore s s (fun k => k.modRing r Ring.pop))
    else Waits (.rpop o) s 2 s)
  ∧ (∀ (s : State) (o : OpDa), Ready s → Guard s o.g → Unmodified o.p → Readable s [o.a] →
    let b := X s o.a
    let kind := bitsN b 61 3
    let b' := b &&& 0xFFFF000000FFFFFF#64
    let bound (word : Word) (pat : List Word) : Prop := GivesTo (.sbind o) s .none (inNow s s (fun k => k.setBinding (dReg o.d) word pat))
    let reserved := 4 < kind ∨ bitsN b 48 13 ≠ 0 ∨ ((kind = 1 ∨ kind = 2) ∧ bitsN b 12 12 ≠ 0)
      ∨ ((kind = 3 ∨ kind = 4) ∧ (bitsN b 0 6 ≠ 0 ∨ bitsN b 21 3 ≠ 0))
    if o.d.toNat < 24 ∨ 31 < o.d.toNat ∨ reserved then TrapsIllegal (.sbind o) s 0
    else if kind = 0 then bound 0 []
    else if kind ≤ 2 then bound b' []
    else
      let offset := 64 * bitsN b 6 15
      let pa := s.turn * 2 ^ 21 + offset
      let D := s.rdWords pa 8
      if 4096 ≤ s.turn ∨ 0x1C0000 ≤ offset then Traps (.sbind o) s cAccess (BitVec.ofNat 64 offset) else
      (∃ raw, (envOf (.sbind o) s).readNow { pa := pa, leaf := 0 } 64 = .ok raw) →
      match [D.getD 0 0, D.getD 2 0, D.getD 3 0, D.getD 4 0].find? (fun v => decide (v.toNat % 16 ≠ 0)) with
      | some v => Traps (.sbind o) s cMisaligned v
      | none => bound b' D)
  ∧ (∀ (s : State) (o : OpD), Ready s → Guard s o.g → Unmodified o.p →
    if o.d.toNat < 24 ∨ 31 < o.d.toNat then TrapsIllegal (.sfree o) s 0
    else GivesTo (.sfree o) s .none (inNow s s (fun k => k.setBinding (dReg o.d) 0 [])))

/-- R271, R272, R368: a sync-cell operation goes to the cell's cluster with its operands, and d awaits the old value; a cell outside the
window of the core's tenant traps with cause access. What each operation makes of the cell is `cellNew`. -/
def Obligations.SyncCellResults : Prop :=
  let cell (s : State) (i : Instr) (a : BitVec 6) (op : Nat) (b x : Word) (d : Option (BitVec 6)) : Prop :=
    let n := (X s a).toNat
    let w := (s.cluster (n / 1024)).window
    let mine := n < 524288 ∧ bitsN w 25 7 ≠ 0 ∧ field w 25 7 = (s.core s.turn).tag ∧ bitsN w 0 10 ≤ n % 1024
      ∧ n % 1024 < bitsN w 0 10 + bitsN w 10 11
    let body := Body.cell (nowCtx s) op n b x (d.map (destReg false)) (if d.isSome then latchNo s else none)
    (¬ mine → Traps i s cAccess (X s a))
    ∧ (mine → match d with
      | some d => GivesTo i s .await (inNow s (sent s s (slotNo i) (dstCluster (n / 1024)) body) (awaiting false d))
      | none => GivesTo i s .none (sent s s (slotNo i) (dstCluster (n / 1024)) body))
  (∀ (s : State) (o : OpDab), Ready s → Guard s o.g → Unmodified o.p → Readable s [o.a, o.b] →
    let op (i : Instr) (n : Nat) : Prop := cell s i o.a n (X s o.b) ((now s).rx (dReg o.d)) (some o.d)
    op (.scadd o) 2 ∧ op (.scswp o) 3 ∧ op (.sccas o) 4 ∧ op (.scmin o) 5 ∧ op (.scmax o) 6 ∧ op (.scminu o) 7 ∧ op (.scmaxu o) 8)
  ∧ (∀ (s : State) (o : OpDa), Ready s → Guard s o.g → Unmodified o.p → Readable s [o.a] → cell s (.scld o) o.a 0 0 0 (some o.d))
  ∧ (∀ (s : State) (o : OpAb), Ready s → Guard s o.g → Unmodified o.p → Readable s [o.a, o.b] →
    cell s (.scst o) o.a 1 (X s o.b) 0 none)
  ∧ (∀ c b d : Word, cellNew 0 c b d = c ∧ cellNew 1 c b d = b ∧ cellNew 2 c b d = c + b ∧ cellNew 3 c b d = b
    ∧ cellNew 4 c b d = (if c = d then b else c)
    ∧ cellNew 5 c b d = (if c.toInt < b.toInt then c else b) ∧ cellNew 6 c b d = (if c.toInt < b.toInt then b else c)
    ∧ cellNew 7 c b d = (if c.toNat < b.toNat then c else b) ∧ cellNew 8 c b d = (if c.toNat < b.toNat then b else c))

/-! ### Matrix instructions -/

/-- R370, R374 to R380, R225: a dense or sparse multiply claims one entry of each of its rings, A before B, enters its issue queue and
marks its tile busy. A reserved format word, a bad operand word, a ring that is disabled or too small and a tile outside the window
trap; a full queue and a busy tile wait. -/
def Obligations.MatrixMultiplyResults : Prop :=
  ∀ (s : State) (o : OpTab), Ready s → Guard s o.g → Readable s [o.a, o.b] → (now s).loaded = [] →
    let ow := X s o.a
    let core := s.core s.turn
    let t := o.d.toNat
    let ra := bitsN ow 0 5
    let rb := bitsN ow 8 5
    let mul (i : Instr) (f : Nat) (sparse : Bool) : Prop :=
      let fw := modFw o.p
      let scaled := decide (f = 6)
      let bad := bitsN ow 32 32 ≠ 0 ∨ bit ow 19 = true ∨ bitsN ow 14 2 ≠ 0 ∨ bitsN ow 6 2 ≠ 0 ∨ (f ≠ 5 ∧ bitsN ow 20 4 ≠ 0)
        ∨ (bitsN ow 26 3 ≠ 0 ∧ bit ow 24 = true) ∨ (bitsN ow 29 3 ≠ 0 ∧ bit ow 25 = false) ∨ (sparse = true ∧ bit ow 25 = false)
        ∨ (f = 5 ∧ (core.decTab (bitsN ow 20 2)).nib ≠ (core.decTab (bitsN ow 22 2)).nib)
      let fs := minorEfmt f (bitsN ow 20 2) (bitsN ow 22 2) fw
      let fwo := if f = 6 then some fw else none
      let k0 := 1024 / efmtBits core fs.1
      let short (r : Nat) (isB : Bool) : Prop := ringTooSmall (core.ring r) (regionsOf k0 sparse isB fwo).size = true
      let epilogue (e : Option EpiDesc) : Prop :=
        if o.b = 0 then e = none else s.storesDone s.turn (nowCtx s) = true ∧ ∃ d, (envOf i s).epi (X s o.b) = .ok d ∧ e = some d
      let sound := ¬ bad ∧ (f = 6 → fwReserved fw = false) ∧ core.queueLen (bitsN ow 16 1) < 2
      let queued (e : Option EpiDesc) (k : Core) : Core :=
        let a := (k.ring ra).claim (bit ow 5)
        let k1 := { k with rings := k.rings.set ra a.2 }
        let b := (k1.ring rb).claim (bit ow 13)
        ({ k1 with
          rings := k1.rings.set rb b.2
          nextId := k.nextId + 1
          mat := k.mat ++ [
            { id := k.nextId, ctx := nowCtx s, gen := some (now s).gen, region := (now s).region, pc := (now s).pc, q := bitsN ow 16 1
              tile := physTile (now s).tiles t, sparse := sparse, fa := fs.1, fb := fs.2, fw := fwo, z := bit ow 17, ck := bit ow 18
              word := ow, a := some ⟨ra, a.1, bit ow 5⟩, b := some ⟨rb, b.1, bit ow 13⟩, grp := none, epi := e
              slot := BitVec.ofNat 3 (slotNo i), rm := bit (now s).status 31, paired := false
              tlbs := (envOf i s).kept (e.elim [] (envOf i s).epiAddrs) }] } : Core).setBusy (physTile (now s).tiles t) true
      (if scaled then modCheck o.p true false false = none else o.p = none) →
        (f = 6 → fwReserved fw = true → bit core.busy (physTile (now s).tiles t) = false → Traps i s cIllegal (fwVal fw))
        ∧ ((f = 6 → fwReserved fw = false) → bad → bit core.busy (physTile (now s).tiles t) = false → TrapsIllegal i s 0)
        ∧ (∀ e, sound → TileFree s t → ¬ short ra false → ¬ short rb true → epilogue e → GivesTo i s .none (inCore s (gated s s) (queued e)))
        ∧ (∀ e, sound → winCount (now s).tiles ≤ t → ¬ short ra false → ¬ short rb true → epilogue e → Traps i s cTileWindow (BitVec.ofNat 64 o.d.toNat))
        ∧ (∀ e, sound → TileFree s t → epilogue e → short ra false → Traps i s cRing (BitVec.ofNat 64 ra))
        ∧ (∀ e, sound → TileFree s t → epilogue e → ¬ short ra false → short rb true → Traps i s cRing (BitVec.ofNat 64 rb))
        ∧ (¬ bad → (f = 6 → fwReserved fw = false) → TileFree s t → 2 ≤ core.queueLen (bitsN ow 16 1) → Waits i s 5 s)
    mul (.mmE2m1 o) 0 false ∧ mul (.mmE4m3 o) 1 false ∧ mul (.mmE5m2 o) 2 false ∧ mul (.mmBf16 o) 3 false ∧ mul (.mmF16 o) 4 false
    ∧ mul (.mmd o) 5 false ∧ mul (.mmb o) 6 false
    ∧ mul (.mspE2m1 o) 0 true ∧ mul (.mspE4m3 o) 1 true ∧ mul (.mspE5m2 o) 2 true ∧ mul (.mspBf16 o) 3 true ∧ mul (.mspF16 o) 4 true
    ∧ mul (.mspd o) 5 true ∧ mul (.mspb o) 6 true

/-- R381, R382: a grouped multiply whose descriptor and bin channel are in order enters its queue and marks its tile busy; field b may
not name x0, and a channel that is no bin of this core, too narrow or beyond `NCH` traps with cause channel. -/
def Obligations.GroupedMultiplyResults : Prop :=
  ∀ (s : State) (o : OpTab), Ready s → Guard s o.g → Readable s [o.a, o.b] → (now s).loaded = [] →
    let core := s.core s.turn
    let t := o.d.toNat
    let grouped (i : Instr) (f : Nat) : Prop :=
      let fw := modFw o.p
      (if f = 6 then modCheck o.p true false false = none else o.p = none) →
        (o.b = 0 → bit core.busy (physTile (now s).tiles t) = false → TrapsIllegal i s 0)
        ∧ (∀ gw ed x, o.b ≠ 0 → (f = 6 → fwReserved fw = false) → (envOf i s).desc (X s o.a) 8 64 = .ok gw →
          (envOf i s).epi (X s o.b) = .ok ed → s.storesDone s.turn (nowCtx s) = true →
          let g (j : Nat) : Word := gw.getD j 0
          let fs := minorEfmt f (bitsN (g 1) 22 2) (bitsN (g 1) 24 2) fw
          let fwo := if f = 6 then some fw else none
          let bits := efmtBits core fs.1
          let k0 := 1024 / bits
          let ks := bitsN (g 1) 16 6
          let bin := bitsN (g 1) 0 12
          let q := bitsN (g 1) 14 1
          let row := (ks + 1) * k0 * bits / 8 + (if f = 6 then 2 * ((ks + 1) * k0 / fwBlock fw) else 0)
          let va : Word := (field (g 0) 0 60).setWidth 64
          let reserved := bitsN (g 0) 60 4 ≠ 0 ∨ bitsN (g 1) 26 38 ≠ 0 ∨ bitsN (g 2) 38 26 ≠ 0 ∨ (∃ v ∈ gw.drop 3, v ≠ 0)
            ∨ (f ≠ 5 ∧ bitsN (g 1) 22 4 ≠ 0)
            ∨ (f = 5 ∧ (core.decTab (bitsN (g 1) 22 2)).nib ≠ (core.decTab (bitsN (g 1) 24 2)).nib) ∨ ed.tr = true
          let binOk := ∃ ch, s.chans.get? (chanKey (now s).region.toNat bin) = some ch ∧ ch.kind = 3 ∧ (ch.state = 1 ∨ ch.state = 2)
            ∧ ch.rpkg = s.pkg.toNat ∧ ch.rcore = s.turn ∧ row ≤ ch.shape ∧ bin < (s.region (now s).region.toNat).nch.toNat
          let held := core.queueLen q < 2 ∧ va.toNat % 64 = 0 ∧ bitsN (g 2) 0 32 % 64 = 0 ∧ Reaches s .load va x ∧ kindOf x.pa = 0
            ∧ sliceCore x.pa = s.turn
          (TileFree s t → held → ¬ reserved → binOk → GivesTo i s .none (inCore s (gated s s) (fun k => ({ k with
            nextId := k.nextId + 1
            mat := k.mat ++ [
              { id := k.nextId, ctx := nowCtx s, gen := some (now s).gen, region := (now s).region, pc := (now s).pc, q := q
                tile := physTile (now s).tiles t, sparse := false, fa := fs.1, fb := fs.2, fw := fwo, z := true, ck := bit (g 1) 15
                word := 0, a := none, b := none
                grp := some { w := field (g 0) 0 60, ks := ks, half := bitsN (g 1) 12 1, binch := bin, ret := bit (g 1) 13
                              cnt := field (g 2) 32 6, wstr := field (g 2) 0 32 }
                epi := some ed, slot := BitVec.ofNat 3 (slotNo i), rm := bit (now s).status 31, paired := false
                tlbs := (envOf i s).kept (va :: (envOf i s).epiAddrs ed) }] } : Core).setBusy (physTile (now s).tiles t) true)))
          ∧ (TileFree s t → held → reserved → TrapsIllegal i s 0)
          ∧ (TileFree s t → held → ¬ reserved → ¬ binOk → Traps i s cChannel (BitVec.ofNat 64 bin)))
    grouped (.mmgE2m1 o) 0 ∧ grouped (.mmgE4m3 o) 1 ∧ grouped (.mmgE5m2 o) 2 ∧ grouped (.mmgBf16 o) 3 ∧ grouped (.mmgF16 o) 4
    ∧ grouped (.mmgd o) 5 ∧ grouped (.mmgb o) 6

/-- R385, R386: `mzero` zeroes a tile at once; `mtld`, `mtst` and `mepi` enter the epilogue queue, four places long, and mark their tile
busy. -/
def Obligations.TileInstructionResults : Prop :=
  let queued (i : Instr) (s : State) (t kind : Nat) (d : EpiDesc) (src : BitVec 60) : State := inCore s (gated s s) (fun k =>
    ({ k with
      epi := k.epi ++ [{ kind := kind, ctx := nowCtx s, region := (now s).region, gen := some (now s).gen
                         tile := physTile (now s).tiles t, desc := d, src := src, id := k.nextId, rm := bit (now s).status 31
                         tlbs := (envOf i s).kept (if kind = 2 then [src.setWidth 64] else (envOf i s).epiAddrs d) }]
      nextId := k.nextId + 1 } : Core).setBusy (physTile (now s).tiles t) true)
  (∀ (s : State) (o : OpT), Ready s → Guard s o.g → Unmodified o.p →
    let t := o.d.toNat
    (TileFree s t →
      GivesTo (.mzero o) s .none (inCore s s (fun k => k.setTile (physTile (now s).tiles t) (List.replicate 256 0))))
    ∧ (winCount (now s).tiles ≤ t → Traps (.mzero o) s cTileWindow (BitVec.ofNat 64 o.d.toNat))
    ∧ (t < winCount (now s).tiles → bit (s.core s.turn).busy (physTile (now s).tiles t) = true → Waits (.mzero o) s 3 s))
  ∧ (∀ (s : State) (o : OpTab), Ready s → Guard s o.g → Unmodified o.p → Readable s [o.a, o.b] → TileFree s o.d.toNat →
    let A := X s o.a
    let B := X s o.b
    let stride : BitVec 32 := if bitsN B 32 32 = 0 then 64 else field B 32 32
    let move (i : Instr) (acc : Acc) (u : State) : Prop :=
      (bitsN B 6 26 ≠ 0 → TrapsIllegal i s 0)
      ∧ (bitsN B 6 26 = 0 → (s.core s.turn).epi.length < 4 → (envOf i s).forkWait
          (if acc = .load then (List.range 16).map (fun r => (A.toNat + r * stride.toNat, 64)) else []) = [] ∨ acc = .store →
        ∀ x, Reaches s acc A x →
          (A.toNat % 64 ≠ 0 → Traps i s cMisaligned A)
          ∧ (A.toNat % 64 = 0 → stride.toNat % 64 ≠ 0 → Traps i s cMisaligned (stride.setWidth 64))
          ∧ (A.toNat % 64 = 0 → stride.toNat % 64 = 0 → GivesTo i s .none u))
    move (.mtld o) .load (queued (.mtld o) s o.d.toNat 2 (plainDesc 0 stride (field B 0 6)) (field A 0 60))
    ∧ move (.mtst o) .store (queued (.mtst o) s o.d.toNat 1 (plainDesc (field A 0 60) stride (field B 0 6)) 0))
  ∧ (∀ (s : State) (o : OpTa) (d : EpiDesc), Ready s → Guard s o.g → Unmodified o.p → Readable s [o.a] → TileFree s o.d.toNat →
    (envOf (.mepi o) s).epi (X s o.a) = .ok d → s.storesDone s.turn (nowCtx s) = true →
    ((s.core s.turn).epi.length < 4 → GivesTo (.mepi o) s .none (queued (.mepi o) s o.d.toNat 1 d 0))
    ∧ (4 ≤ (s.core s.turn).epi.length → Waits (.mepi o) s 5 s))

/-! ### Copies, channels and routing -/

/-- R395 to R399, R401, R403: a copy enters the core's list of copies, 64 long, and its request the command queue, 16 long; reserved
bits, misaligned values and addresses that do not translate trap; `ccan` sends its cancellation to every copy of the operation number. -/
def Obligations.CopyResults : Prop :=
  let fork (i : Instr) (s : State) (ctl src dst : Word) (rows : Nat) (sstr dstr : Word) (ring : Option Nat) : State :=
    inCore s (gated s s) (fun k => { k with
    copies := k.copies ++ [
      { id := k.nextId, ctx := nowCtx s, region := (now s).region, opn := field ctl 24 16, src := field src 0 60, dst := field dst 0 60
        rows := rows, len := bitsN ctl 40 24, sstr := sstr, dstr := dstr, tag := field ctl 0 6, cq := field ctl 14 2, mb := bit ctl 13
        deadline := if bitsN ctl 16 8 = 0 then none else some (s.time + 1000 * bitsN ctl 16 8), ring := ring
        rm := bit (now s).status 31, tlbs := (envOf i s).kept (if ring.isSome then [src] else [src, dst]) }]
    cmdq := k.cmdq ++ [.copy k.nextId]
    nextId := k.nextId + 1 })
  let room (s : State) : Prop := (s.core s.turn).copies.length < 64 ∧ (s.core s.turn).cmdq.length < 16
  let issue (s : State) (i : Instr) (ctl src dst : Word) (rows : Nat) (sstr dstr : Word) : Prop :=
    ∀ x y, room s → Reaches s .load src x → Reaches s .store dst y →
      (envOf i s).forkWait (copySources src rows (bitsN ctl 40 24) sstr) = [] →
      match [src, dst, BitVec.ofNat 64 (bitsN ctl 40 24), sstr, dstr].find? (fun v => decide (v.toNat % 16 ≠ 0)) with
      | some v => Traps i s cMisaligned v
      | none => GivesTo i s .none (fork i s ctl src dst rows sstr dstr none)
  (∀ (s : State) (o : OpDab), Ready s → Guard s o.g → Unmodified o.p → Readable s [o.a, o.b] → dN o.d = false →
    let D := (now s).rx (dReg o.d)
    (bitsN D 6 7 ≠ 0 → TrapsIllegal (.copy o) s 0)
    ∧ (bitsN D 6 7 = 0 → issue s (.copy o) D (X s o.a) (X s o.b) 1 0 0)
    ∧ (∀ l, (envOf (.copy2 o) s).desc D 4 32 = .ok l →
      let g (j : Nat) : Word := l.getD j 0
      bitsN (g 0) 6 7 = 0 → bitsN (g 1) 16 48 = 0 →
        issue s (.copy2 o) (g 0) (X s o.a) (X s o.b) (bitsN (g 1) 0 16 + 1) (g 2) (g 3))
    ∧ (∀ l x y, (envOf (.copy2 o) s).desc D 4 32 = .ok l → bitsN (l.getD 0 0) 6 7 ≠ 0 ∨ bitsN (l.getD 1 0) 16 48 ≠ 0 →
      room s → Reaches s .load (X s o.a) x → Reaches s .store (X s o.b) y →
      (envOf (.copy2 o) s).forkWait (copySources (X s o.a) (bitsN (l.getD 1 0) 0 16 + 1) (bitsN (l.getD 0 0) 40 24) (l.getD 2 0)) = [] →
      TrapsIllegal (.copy2 o) s 0)
    ∧ ((s.core s.turn).copies.length = 64 → bitsN D 6 7 = 0 → Waits (.copy o) s 6 s))
  ∧ (∀ (s : State) (o : OpDab), Ready s → Guard s o.g → Unmodified o.p → Readable s [o.a] →
    let D := (now s).rx (dReg o.d)
    let r := o.b.toNat
    let ring := (s.core s.turn).ring r
    let A := X s o.a
    if dN o.d = true ∨ 31 < r ∨ bitsN D 6 7 ≠ 0 then TrapsIllegal (.copyr o) s 0
    else ∀ x, room s → Reaches s .load A x → (envOf (.copyr o) s).forkWait [(A.toNat, bitsN D 40 24)] = [] →
      if ringEn ring.desc = false ∨ efmtReserved (ringLayout ring.desc) = true ∨ bitsN D 40 24 ≠ ringEntry ring.desc
      then Traps (.copyr o) s cRing (BitVec.ofNat 64 r)
      else if A.toNat % 16 ≠ 0 then Traps (.copyr o) s cMisaligned A
      else GivesTo (.copyr o) s .none (fork (.copyr o) s D A 0 1 0 0 (some r)))
  ∧ (∀ (s : State) (o : OpA), Ready s → Guard s o.g → Unmodified o.p → Readable s [o.a] →
    GivesTo (.ccan o) s .none (inCore s s (fun k => { k with copies := k.copies.map (fun c =>
      if c.opn = field (X s o.a) 0 16 ∧ c.region = (now s).region ∧ c.cancelling = none then { c with cancelling := some 4 } else c) })))

/-- R213 to R216, R404 to R406, R408, R416, R417: channel instructions. A send with a credit takes it and enters the command queue;
without one the continuation parks, or waits where it may not park; a token closes the endpoint and starts the end of the channel; a
receive takes the oldest element, or after a wake the one that was kept for it, its result on the way, or parks; a broadcast takes the
root's turn. A channel that the thread may not use traps with cause channel. That a token carries the tags of the endpoint's last `send`
is the model's choice (log entry 103). -/
def Obligations.ChannelResults : Prop :=
  let queued (i : Instr) (s : State) (key j : Nat) (src : Word) (token bcast : Bool) (tags : BitVec 12) (u : State) : State :=
    inCore s u (fun k => { k with cmdq := k.cmdq ++ [.send key j (field src 0 60) token bcast (field tags 6 6) (field tags 0 6) (nowCtx s)
      (now s).region (if token then [] else (envOf i s).kept [src])] })
  let credit (s : State) (key j : Nat) (token woken : Bool) (tags : BitVec 12) : State :=
    (gated s s).modChan key (fun ch => ch.modEp j (fun p =>
      { p with credit := p.credit - 1, reserved := if woken then p.reserved - 1 else p.reserved, eos := p.eos || token, tags := tags }))
  let mayPark (s : State) : Prop := nowCtx s ≠ 0 ∧ s.turn < 4096
  let room (s : State) : Prop := (s.core s.turn).cmdq.length < 16
  let tags (s : State) (d : BitVec 6) : Word := if dReg d = 0 then 0xFFF else (now s).rx (dReg d)
  let badTags (s : State) (d : BitVec 6) : Prop := dReg d ≠ 0 ∧ bitsN ((now s).rx (dReg d)) 12 52 ≠ 0
  let plain (s : State) : Prop := ∀ a d, (now s).wake ≠ .credit a d
  let leave (s : State) (i : Instr) (key j : Nat) (p : SendEp) (src : Word) (tw : Word) (u : State) : Prop :=
    (p.reserved < p.credit → GivesTo i s .none u)
    ∧ (p.credit ≤ p.reserved → p.waiter = none → mayPark s →
      Leaves i s ((counted s s).parkSend s.turn (nowCtx s) (now s).pc key j src tw))
    ∧ (p.credit ≤ p.reserved → p.waiter ≠ none ∨ ¬ mayPark s → Waits i s 9 s)
  (∀ (s : State) (o : OpDai), Ready s → Guard s o.g → Readable s [o.a] → dN o.d = false →
    let n := immU o.p o.i
    let A := X s o.a
    let tw := tags s o.d
    (plain s → badTags s o.d → TrapsIllegal (.send o) s 0 ∧ TrapsIllegal (.bcast o) s 0)
    ∧ (plain s → ¬ badTags s o.d → (envOf (.send o) s).sendCheck n = .error (.trap cChannel n) → Traps (.send o) s cChannel n)
    ∧ (∀ key ch j p x, plain s → ¬ badTags s o.d → room s → (envOf (.send o) s).sendCheck n = .ok (key, ch, j) → ch.eps[j]? = some p →
      Reaches s .load A x → (envOf (.send o) s).forkWait [(A.toNat, ch.shape)] = [] →
      if A.toNat % Nat.min ch.shape 16 ≠ 0 then Traps (.send o) s cMisaligned A
      else leave s (.send o) key j p A tw (queued (.send o) s key j A false false (field tw 0 12) (credit s key j false false (field tw 0 12))))
    ∧ (∀ key ch j p a d, (now s).wake = .credit a d → room s → (envOf (.send o) s).sendCheck n = .ok (key, ch, j) → ch.eps[j]? = some p →
      GivesTo (.send o) s .none (queued (.send o) s key j a false false (field d 0 12) (credit s key j false true (field d 0 12))))
    ∧ (∀ key ch x, plain s → ¬ badTags s o.d → room s → (envOf (.bcast o) s).chan n = .ok (key, ch) → Reaches s .load A x →
      (envOf (.bcast o) s).forkWait [(A.toNat, ch.shape)] = [] → ch.bcast = true →
      let usable := ch.kind = 2 ∧ ch.ef4 = false ∧ ch.state = 1 ∧ ch.rpkg = s.pkg.toNat ∧ ch.rcore = s.turn
      (¬ usable → Traps (.bcast o) s cChannel n)
      ∧ (usable → A.toNat % Nat.min ch.shape 16 ≠ 0 → Traps (.bcast o) s cMisaligned A)
      ∧ (usable → A.toNat % Nat.min ch.shape 16 = 0 →
        GivesTo (.bcast o) s .none
          (queued (.bcast o) s key 0 A false true (field tw 0 12) ((gated s s).modChan key (fun ch => { ch with bcast := false }))))))
  ∧ (∀ (s : State) (o : OpI), Ready s → Guard s o.g →
    let n := immU o.p o.i
    let ended (key : Nat) (u : State) : State :=
      match u.chans.get? key with
      | some ch => if ch.state = 1 then u.setChanState key 2 else u
      | none => u
    ((envOf (.eos o) s).sendCheck n = .error (.trap cChannel n) → Traps (.eos o) s cChannel n)
    ∧ (∀ key ch j p, room s → (envOf (.eos o) s).sendCheck n = .ok (key, ch, j) → ch.eps[j]? = some p →
      (plain s → leave s (.eos o) key j p 0 0xFFF (queued (.eos o) s key j 0 true false p.tags (ended key (credit s key j true false p.tags))))
      ∧ (∀ a d, (now s).wake = .credit a d →
        GivesTo (.eos o) s .none (queued (.eos o) s key j a true false p.tags (ended key (credit s key j true true p.tags))))))
  ∧ (∀ (s : State) (o : OpDai), Ready s → Guard s o.g → Readable s [o.a] →
    let n := immU o.p o.i
    let A := X s o.a
    let taken (key : Nat) (ch : Chan) (j : Nat) (x : Elem) (pa : Option (List (Nat × Nat))) : State :=
      let u := s.modChan key (fun ch => { ch with elems := listDel ch.elems j, popped := ch.popped + 1 })
      let u := if x.token then u.setChanState key 3 else u
      inNow s (stamped s (flown s u (slotNo (.recv o)) (dstRecv key)
        (.recv (nowCtx s) (destReg false o.d) key x (if x.token then none else pa) ch.popped))) (awaiting false o.d)
    ((envOf (.recv o) s).recvCheck n = .error (.trap cChannel n) → Traps (.recv o) s cChannel n)
    ∧ (∀ key ch, (envOf (.recv o) s).recvCheck n = .ok (key, ch) →
      (∀ pa, (∀ a b, (now s).wake ≠ .element a b) → (if o.a = 0 then pa = none else ∃ m, (envOf (.recv o) s).recvDst ch A = .ok m ∧ pa = some m) →
        (∀ j x, ch.oldest = some j → ch.elems[j]? = some x → GivesTo (.recv o) s .none (taken key ch j x pa))
        ∧ (ch.oldest = none → ch.rwaiter = none → mayPark s → Leaves (.recv o) s ((counted s s).parkRecv s.turn (nowCtx s) (now s).pc key A))
        ∧ (ch.oldest = none → ch.rwaiter ≠ none ∨ ¬ mayPark s → Waits (.recv o) s 9 s))
      ∧ (∀ a slot pa j x, (now s).wake = .element a slot → ch.reservedAt slot = some j → ch.elems[j]? = some x →
        (if o.a = 0 then pa = none else ∃ m, (envOf (.recv o) s).recvDst ch a = .ok m ∧ pa = some m) →
        GivesTo (.recv o) s .none (taken key ch j x pa))))

/-- R237, R238, R395, R409, R413: `route` and `rclose` enter the route queue of the cluster, 8 long, with what their descriptor and the
layer's directory entry say; ordered mode lets a half be routed once until its close. -/
def Obligations.RouteResults : Prop :=
  let inCluster (s : State) (f : Cluster → Cluster) : State := s.modCluster (clusterOf s.turn) f
  (∀ (s : State) (o : OpA) (l : List Word) (d : DirEnt) (x : Xl), Ready s → Guard s o.g → Unmodified o.p → Readable s [o.a] →
    (envOf (.route o) s).desc (X s o.a) 8 64 = .ok l →
    let g (j : Nat) : Word := l.getD j 0
    let ntok := bitsN (g 3) 40 13
    let k := bitsN (g 3) 38 2 + 1
    let layer := bitsN (g 3) 32 6
    let half := bitsN (g 3) 15 1
    let stile := bit (g 3) 14
    let tile := bitsN (g 3) 9 5
    let key := (now s).region.toNat * 128 + layer * 2 + half
    let rrec : Word := (field (g 2) 0 60).setWidth 64
    let cl := s.cluster (clusterOf s.turn)
    let scores := if stile then [] else
      (List.range ntok).map (fun t => (bitsN (g 0) 0 60 + t * bitsN (g 4) 32 32, 4 * d.nexp))
    let rows := (List.range ntok).map (fun t => (bitsN (g 1) 0 60 + t * bitsN (g 4) 0 32, 1))
    let reserved := bitsN (g 0) 60 4 ≠ 0 ∨ bitsN (g 1) 60 4 ≠ 0 ∨ bitsN (g 2) 60 4 ≠ 0 ∨ bitsN (g 3) 53 11 ≠ 0 ∨ bitsN (g 3) 6 2 ≠ 0
      ∨ (∃ v ∈ l.drop 5, v ≠ 0) ∨ 4096 < ntok ∨ (stile = true ∧ 16 < ntok) ∨ d.nexp < k ∨ (stile = true ∧ 16 < d.nexp)
    let closed := d.en = false ∨ (d.ord = true ∧ key ∈ cl.opened)
    let outside := stile = true ∧ winCount (now s).tiles ≤ tile
    (envOf (.route o) s).dirEnt layer = .ok d →
    (ntok ≠ 0 → rrec.toNat % 32 = 0 ∧ Reaches s .store rrec x ∧ kindOf x.pa = 0 ∧ sliceCore x.pa = s.turn) →
    (envOf (.route o) s).forkWait (scores ++ rows) = [] → cl.routes.length < 8 →
      (reserved → TrapsIllegal (.route o) s 0)
      ∧ (¬ reserved → outside → Traps (.route o) s cTileWindow (BitVec.ofNat 64 tile))
      ∧ (¬ reserved → ¬ outside → closed → Traps (.route o) s cChannel (BitVec.ofNat 64 (2 ^ 32 + layer)))
      ∧ (¬ reserved → ¬ outside → ¬ closed → GivesTo (.route o) s .none (inCluster (gated s s) (fun c => { c with
        routes := c.routes ++ [
          { core := s.turn, ctx := nowCtx s, region := (now s).region, close := false, layer := layer, half := half
            scores := field (g 0) 0 60, rows := field (g 1) 0 60, rrec := field (g 2) 0 60, ntok := ntok, k := k
            tokb := bitsN (g 3) 16 16, tile := if stile then some (physTile (now s).tiles tile) else none, cqr := bit (g 3) 8
            cnt := field (g 3) 0 6, sstr := bitsN (g 4) 32 32, rstr := bitsN (g 4) 0 32, nexp := d.nexp, ord := d.ord, rnd := d.rnd
            base := d.base }]
        opened := if d.ord then key :: c.opened else c.opened }))))
  ∧ (∀ (s : State) (o : OpA), Ready s → Guard s o.g → Unmodified o.p → Readable s [o.a] →
    let A := X s o.a
    let layer := bitsN A 0 6
    let half := bitsN A 8 1
    let key := (now s).region.toNat * 128 + layer * 2 + half
    if bitsN A 6 2 ≠ 0 ∨ bitsN A 9 55 ≠ 0 then TrapsIllegal (.rclose o) s 0
    else if 8 ≤ (s.cluster (clusterOf s.turn)).routes.length then Waits (.rclose o) s 6 s
    else GivesTo (.rclose o) s .none (inCluster s (fun c => { c with
      routes := c.routes ++ [{ core := s.turn, ctx := nowCtx s, region := (now s).region, close := true, layer := layer, half := half }]
      opened := c.opened.filter (fun q => decide (q ≠ key)) })))

/-! ### Threads, counters and the system -/

/-- R416, R417, R419, R420, R199, R178, R189, R190: suspension and the creation of continuations. -/
def Obligations.SuspensionLaunchResults : Prop :=
  let gone (s : State) (i : Instr) : State := s.setCtx s.turn (nowCtx s) (goOn (latched (now s) .none) (nextPc s i))
  (∀ (s : State) (o : Op0), Ready s → Guard s o.g → Unmodified o.p →
    (nowCtx s = 0 → TrapsIllegal (.yield o) s 0)
    ∧ (nowCtx s ≠ 0 → s.fenced s.turn (nowCtx s) = true →
      (s.backed s.turn = false → Gives (.yield o) s ((gone s (.yield o)).doYield s.turn (nowCtx s)))
      ∧ (s.backed s.turn = true → Waits (.yield o) s 11 s))
    ∧ (nowCtx s ≠ 0 → s.fenced s.turn (nowCtx s) = false → Waits (.yield o) s 9 s)
    ∧ (nowCtx s ≠ 0 → Gives (.waitw o) s ((s.setCtx s.turn (nowCtx s) (latched (now s) .none)).doWaitw s.turn (nowCtx s)))
    ∧ (nowCtx s = 0 → if (s.core s.turn).notices = [] then Waits (.waitw o) s 9 s else GivesTo (.waitw o) s .none s))
  ∧ (∀ (s : State) (o : OpA) (x : Xl), Ready s → Guard s o.g → Unmodified o.p → Readable s [o.a] →
    (nowCtx s = 0 → TrapsIllegal (.migr o) s 0)
    ∧ (nowCtx s ≠ 0 → Reaches s .load (X s o.a) x → s.fenced s.turn (nowCtx s) = true →
      let home := homeOf x.leaf x.pa
      (home ≠ s.turn ∨ s.backed s.turn = false → Gives (.migr o) s ((gone s (.migr o)).doMigr s.turn (nowCtx s) home))
      ∧ (home = s.turn → s.backed s.turn = true → Waits (.migr o) s 11 s)))
  ∧ (∀ (s : State) (o : OpAb), Ready s → Guard s o.g → Unmodified o.p → Readable s [o.a, o.b] →
    s.fenced s.turn (nowCtx s) = true → (s.core s.turn).cmdq.length < 16 →
    let A := X s o.a
    let B := X s o.b
    let r := (now s).region.toNat
    let created (i : Instr) (rcd : Rec) (cluster : Bool) (n : Nat) : Prop :=
      let direct := !cluster && s.acceptsRegion n r
      let u := s.release s.turn (nowCtx s)
      (direct = true → n = s.turn → s.backed s.turn = false) →
        (u.contRoom r = false → GivesTo i s .none (inNow s u (fun k => k.wp 1 false)))
        ∧ (u.contRoom r = true →
          let cont : Cont :=
            { rcd := { rcd with m := false, s := false, ext := false, hop := 0, region := (now s).region, prio := u.prio r }
              pair := some { core := s.turn, point := (s.core s.turn).log.tail }, toCluster := !direct }
          let target := if cluster ∨ direct then n else n / 8
          GivesTo i s .none (inNow s
            (inCore s (u.contStart r) (fun k => { k with cmdq := k.cmdq ++ [.rcd cont target] })) (fun k => k.wp 1 true)))
    let copied (pc : BitVec 60) : Rec :=
      { pc := pc, p := (now s).p.extractLsb' 1 7, region := (now s).region
        xs := #v[(now s).rx 1, (now s).rx 2, (now s).rx 3, (now s).rx 4, (now s).rx 5, (now s).rx 6] }
    (targetOk B = false → TrapsIllegal (.launch o) s 0)
    ∧ (targetOk B = true → A.toNat % 64 ≠ 0 → Traps (.launch o) s cMisaligned A)
    ∧ (∀ x l, targetOk B = true → A.toNat % 64 = 0 → Reaches s .load A x → (envOf (.launch o) s).words64 8 A = .ok l →
      created (.launch o) (Rec.ofWords l) (bit B 63) (bitsN B 0 (if bit B 63 then 9 else 12)))
    ∧ (4096 ≤ A.toNat → TrapsIllegal (.spawn o) s 0) ∧ (512 ≤ A.toNat → TrapsIllegal (.spawnc o) s 0)
    ∧ (A.toNat < 4096 → bitsN B 0 2 ≠ 0 ∨ bitsN B 60 4 ≠ 0 → Traps (.spawn o) s cMisaligned B)
    ∧ (A.toNat < 4096 → bitsN B 0 2 = 0 → bitsN B 60 4 = 0 → created (.spawn o) (copied (field B 0 60)) false A.toNat)
    ∧ (A.toNat < 512 → bitsN B 0 2 ≠ 0 ∨ bitsN B 60 4 ≠ 0 → Traps (.spawnc o) s cMisaligned B)
    ∧ (A.toNat < 512 → bitsN B 0 2 = 0 → bitsN B 60 4 = 0 → created (.spawnc o) (copied (field B 0 60)) true A.toNat))

/-- R261 to R270, R416, R421, R422: counter instructions. A wait whose count has been reached goes on at once; otherwise it parks,
or waits where it may not park; the deadline of a `waitct` stands from its first attempt on. -/
def Obligations.CounterInstructionResults : Prop :=
  let mayPark (s : State) : Prop := nowCtx s ≠ 0 ∧ s.turn < 4096
    ∧ ((s.core s.turn).waits.filter (fun w => !s.frozenOn s.turn w.cont.rcd.region.toNat)).length < 64
  let value (s : State) (n : Nat) : BitVec 32 := (((s.core s.turn).ctr n).steps).1.val
  let there (v t : BitVec 32) : Prop := (v - t).toNat < 2 ^ 31
  let outcome (s : State) (b : Bool) : State := inNow s s (fun k => k.wp 1 b)
  (∀ (s : State) (o : OpAb), Ready s → Guard s o.g → Unmodified o.p → Readable s [o.b] →
    let n := o.a.toNat
    let B := X s o.b
    let ctr := (s.core s.turn).ctr n
    let act := bitsN B 61 2
    let badArm := bit B 63 = true ∨ bitsN B 52 9 ≠ 0
      ∨ (act = 2 ∧ (bitsN B 36 12 ≠ 0 ∨ (s.core s.turn).staged.get? (bitsN B 32 4) = none))
    let word := (B &&& 0x600FFFFFFFFFFFFF#64) ||| (BitVec.ofNat 64 (nowCtx s) <<< 57)
    GivesTo (.cset o) s .none (inCore s s (fun k => k.modCtr n (fun c => { c with val := field B 0 32, region := (now s).region })))
    ∧ GivesTo (.cadd o) s .none (s.addCtr s.turn n (bitsN B 0 32) (s.core s.turn).tag)
    ∧ (badArm → TrapsIllegal (.carm o) s 0)
    ∧ (¬ badArm → (ctr.steps).1.armed.length = 4 → GivesTo (.carm o) s .none (outcome s false))
    ∧ (¬ badArm → (ctr.steps).1.armed.length ≠ 4 → GivesTo (.carm o) s .none (inNow s
      (inCore s s (fun k => k.modCtr n (fun c => { c with arms := c.arms ++ [(word, (now s).region)] }))) (fun k => k.wp 1 true)))
    ∧ (bitsN B 2 62 ≠ 0 → TrapsIllegal (.cdisarm o) s 0)
    ∧ (bitsN B 2 62 = 0 → GivesTo (.cdisarm o) s .none (inCore s s (fun k => k.modCtr n (fun c => c.disarm (bitsN B 0 2)))))
    ∧ (∀ b, (now s).wake = .status b → GivesTo (.waitc o) s .none (outcome s b))
    ∧ ((∀ b, (now s).wake ≠ .status b) →
      (there (value s n) (field B 0 32) → GivesTo (.waitc o) s .none (outcome s true))
      ∧ (¬ there (value s n) (field B 0 32) → mayPark s →
        Leaves (.waitc o) s ((counted s s).parkWait s.turn (nowCtx s) (now s).pc (.counter n (field B 0 32) none)))
      ∧ (¬ there (value s n) (field B 0 32) → ¬ mayPark s → Waits (.waitc o) s 9 s)))
  ∧ (∀ (s : State) (o : OpDa), Ready s → Guard s o.g → Unmodified o.p →
    GivesTo (.crd o) s .none (inNow s s (fun k =>
      if dN o.d then k else k.wx (dReg o.d) (((s.core s.turn).ctr o.a.toNat).val.setWidth 64))))
  ∧ (∀ (s : State) (o : OpDab), Ready s → Guard s o.g → Unmodified o.p → Readable s [o.b] →
    let n := o.a.toNat
    let t := field (X s o.b) 0 32
    let D := (now s).rx (dReg o.d)
    let due := (now s).dues.getD (slotNo (.waitct o)) (s.time + D.toNat)
    if dN o.d then TrapsIllegal (.waitct o) s 0
    else (∀ b, (now s).wake = .status b → GivesTo (.waitct o) s .none (outcome s b))
      ∧ ((∀ b, (now s).wake ≠ .status b) →
        (there (value s n) t → GivesTo (.waitct o) s .none (outcome s true))
        ∧ (¬ there (value s n) t → D = 0 ∨ due ≤ s.time → GivesTo (.waitct o) s .none (outcome s false))
        ∧ (¬ there (value s n) t → D ≠ 0 → s.time < due → mayPark s →
          Leaves (.waitct o) s ((counted s s).parkWait s.turn (nowCtx s) (now s).pc (.counter n t (some due))))
        ∧ (¬ there (value s n) t → D ≠ 0 → s.time < due → ¬ mayPark s →
          Waits (.waitct o) s 9 (inNow s s (fun k => { k with dues := k.dues.set (slotNo (.waitct o)) due })))))

/-- R222, R416, R423, R424: staged commands and the mailbox. A command is staged once its word may be staged and nothing but a want of
room would stop it; a post enters the own mailbox at once and leaves through the command queue otherwise; a take finds the oldest
message that matches, or parks. -/
def Obligations.StageMailboxResults : Prop :=
  let mayPark (s : State) : Prop := nowCtx s ≠ 0 ∧ s.turn < 4096
    ∧ ((s.core s.turn).waits.filter (fun w => !s.frozenOn s.turn w.cont.rcd.region.toNat)).length < 64
  (∀ (s : State) (o : OpAb), Ready s → Guard s o.g → Unmodified o.p → Readable s [o.b] →
    (15 < o.a.toNat → TrapsIllegal (.cstage o) s 0)
    ∧ (∀ l, o.a.toNat ≤ 15 → (envOf (.cstage o) s).desc (X s o.b) 4 32 = .ok l →
      let g (j : Nat) : Word := l.getD j 0
      let sw : SlotWord := field (g 0) 0 32
      (stagedOp sw (g 1) (g 2) (g 3) = none → TrapsIllegal (.cstage o) s 0)
      ∧ (∀ y, stagedOp sw (g 1) (g 2) (g 3) = some y → y.bad = true ∨ fG sw ≠ 0 ∨ bitsN (g 0) 32 32 ≠ 0 → TrapsIllegal (.cstage o) s 0)
      ∧ (∀ y, stagedOp sw (g 1) (g 2) (g 3) = some y → y.bad = false → fG sw = 0 → bitsN (g 0) 32 32 = 0 →
        (envOf (.cstage o) s).stageCause { s := s } y = none →
        let st : Staged :=
          { slotw := sw, vd := g 1, va := g 2, vb := g 3, region := (now s).region, ctx := nowCtx s, tlbs := (s.core s.turn).utlb }
        GivesTo (.cstage o) s .none (inCore s s (fun k => { k with staged := k.staged.set o.a.toNat st })))))
  ∧ (∀ (s : State) (o : OpDab), Ready s → Guard s o.g → Unmodified o.p → Readable s [o.a, o.b] →
    let D := (now s).rx (dReg o.d)
    let n := (X s o.a).toNat
    let m : Msg := { kind := 0, ctx := BitVec.ofNat 4 (nowCtx s), core := BitVec.ofNat 12 s.turn, tag := field D 0 32, val := X s o.b }
    if dN o.d = true ∨ 4096 ≤ n ∨ bitsN D 32 32 ≠ 0 then TrapsIllegal (.mpost o) s 0
    else if n = s.turn then
      (if (s.core s.turn).mail.length < 64 then GivesTo (.mpost o) s .none (stamped s (s.enterMail s.turn m)) else Waits (.mpost o) s 9 s)
    else if (s.core s.turn).cmdq.length < 16 then
      GivesTo (.mpost o) s .none (inCore s s (fun k => { k with cmdq := k.cmdq ++ [.post m n (nowCtx s) (now s).region k.tag] }))
    else Waits (.mpost o) s 6 s)
  ∧ (∀ (s : State) (o : OpDab), Ready s → Guard s o.g → Unmodified o.p → Readable s [o.a, o.b] →
    let tag : BitVec 32 := field (X s o.a) 0 32
    let mask : BitVec 32 := field (X s o.b) 0 32
    let mail := (s.core s.turn).mail
    let got (u : State) (v : Word) : State := inNow s u (fun k => if dN o.d then k else k.wx (dReg o.d) v)
    (∀ v, (now s).wake = .message v → GivesTo (.mtake o) s .none (got s v))
    ∧ ((∀ v, (now s).wake ≠ .message v) →
      (∀ j m, (∀ i, i < j → ∀ x, mail[i]? = some x → x.tag &&& mask ≠ tag &&& mask) → mail[j]? = some m → m.tag &&& mask = tag &&& mask →
        GivesTo (.mtake o) s .none (got (inCore s s (fun k => { k with mail := listDel k.mail j })) m.val))
      ∧ ((∀ x ∈ mail, x.tag &&& mask ≠ tag &&& mask) → mayPark s →
        Leaves (.mtake o) s ((counted s s).parkWait s.turn (nowCtx s) (now s).pc (.mail tag mask)))
      ∧ ((∀ x ∈ mail, x.tag &&& mask ≠ tag &&& mask) → ¬ mayPark s → Waits (.mtake o) s 9 s)))

/-- R97, R106, R185, R187, R242, R292, R425 to R429, R439: traps on purpose, returns, contexts, pairing, placement points and `realign`; an X
prefix that is a whole bundle traps. `pairoff` does nothing without pairing, and else ends it: the primary goes on alone, and the
secondary's context is free. -/
def Obligations.TrapContextResults : Prop :=
  (∀ (s : State) (o : OpI), Ready s → Guard s o.g →
    Traps (.brk o) s cBreak (immU o.p o.i) ∧ Traps (.sys o) s cSyscall (immU o.p o.i)
    ∧ (let n := (immU o.p o.i).toNat
      let held := (now s).realign.getD 0
      let count := (s.alignedAt (clusterOf s.turn) (now s).region.toNat (now s).pc).length
      (n = 0 ∨ 128 < n → TrapsIllegal (.realign o) s 0)
      ∧ (0 < n → n ≤ 128 →
        (n = 1 ∨ (now s).realigned = true → GivesTo (.realign o) s .none (inNow s s (fun k => { k with realign := none })))
        ∧ (n ≠ 1 → (now s).realigned = false → n ≤ count ∨ 64 ≤ held →
          GivesTo (.realign o) s .none (s.releaseAligned (clusterOf s.turn) (now s).region.toNat (now s).pc))
        ∧ (n ≠ 1 → (now s).realigned = false → count < n → held < 64 →
          Waits (.realign o) s 10 (inNow s s (fun k => { k with realign := some (held + 1), realignN := n }))))))
  ∧ (∀ (s : State) (o : Op0), Ready s → Guard s o.g → Unmodified o.p →
    let back (i : Instr) (pc : BitVec 60) (clear : Word) : Prop :=
      Gives i s (s.setCtx s.turn (nowCtx s) { (latched (now s) .none) with pc := pc, status := (now s).status &&& ~~~clear })
    (bit (now s).status 3 = false → TrapsIllegal (.tret o) s 0)
    ∧ (bit (now s).status 3 = true → (now s).prv = 0 → Traps (.tret o) s cPrivilege ((slotWord (.tret o)).setWidth 64))
    ∧ (bit (now s).status 3 = true → 1 ≤ (now s).prv → back (.tret o) (now s).epc 8)
    ∧ (bit (now s).status 4 = false → TrapsIllegal (.uiret o) s 0)
    ∧ (bit (now s).status 4 = true → back (.uiret o) (now s).uepc 16)
    ∧ GivesTo (.pairoff o) s .none s
    ∧ (s.twinOf s.turn (nowCtx s) = none → GivesTo (.pairon o) s .none (inNow s s (fun k => k.wp 1 false)))
    ∧ (∀ tt, s.twinOf s.turn (nowCtx s) = some tt → ∃ w : State,
      After s (s.setCtx s.turn (nowCtx s) (goOn (latched ((now s).wp 1 true) .none) (nextPc s (.pairon o)))) (w.endCycle s.turn)
      ∧ Leaves (.pairon o) s (w.couple s.turn (nowCtx s) (buddyOf s.turn) tt))
    ∧ (nowCtx s = 0 → TrapsIllegal (.placept o) s 0)
    ∧ (nowCtx s ≠ 0 → (now s).wake = .placed ∨ (s.region (now s).region.toNat).pq = 0 → GivesTo (.placept o) s .none s)
    ∧ (nowCtx s ≠ 0 → s.turn < 4096 → (now s).wake ≠ .placed → (s.region (now s).region.toNat).pq ≠ 0 →
      ((s.core s.turn).waits.filter (fun w => !s.frozenOn s.turn w.cont.rcd.region.toNat)).length < 64 →
      Leaves (.placept o) s ((counted s s).parkWait s.turn (nowCtx s) (now s).pc .place)))
  ∧ (∀ (s : State) (o : OpA), Ready s → Guard s o.g → Unmodified o.p → Readable s [o.a] →
    let n := (X s o.a).toNat
    let context (i : Instr) (u : State) : Prop :=
      if n = 0 ∨ 15 < n then TrapsIllegal i s 0
      else if (now s).prv = 0 then Traps i s cPrivilege ((slotWord i).setWidth 64)
      else GivesTo i s .none u
    context (.start o) (s.startCtx s.turn n) ∧ context (.reap o) (s.reapCtx s.turn n))
  ∧ (∀ (s : State) (o : Op0) (p : Pair), Guard s o.g → Unmodified o.p →
    (now s).mode = .running → (now s).stop = none → (now s).regErr = [] →
    (now s).pair = some p → p.primary = true → p.phase = 0 → p.agreed = true → p.twinCore ≠ s.turn → p.twinCtx < 16 →
    ∃ t, exec (.pairoff o) s = .next t
      ∧ (t.ctx s.turn (nowCtx s)).pair = none ∧ bit (t.ctx s.turn (nowCtx s)).status 30 = false
      ∧ (t.ctx s.turn (nowCtx s)).pc = (goOn (now s) (nextPc s (.pairoff o))).pc
      ∧ (t.ctx s.turn (nowCtx s)).x = (now s).x ∧ (t.ctx s.turn (nowCtx s)).v = (now s).v
      ∧ (t.ctx p.twinCore p.twinCtx).pair = none
      ∧ (t.ctx p.twinCore p.twinCtx).mode = (if (s.ctx p.twinCore p.twinCtx).reap then .off else .idle))
  ∧ (∀ (s : State) (m : BitVec 24), Ready s → Traps (.xPrefix m) s cIllegalBundle 96)

/-- R122, R123, R236, R252, R430 to R432: table loads, invalidations, channel installation and region commands. A table load and an
invalidation of instruction lines start, and their bundle completes once they have taken effect; an invalidation of translations
starts and goes on, and `xsync` waits for it. -/
def Obligations.SystemInstructionResults : Prop :=
  (∀ (s : State) (o : OpAT2), Ready s → Guard s o.g → Unmodified o.p → Readable s [o.a] →
    let A := X s o.a
    let arrived := ∀ y ∈ (s.core s.turn).tload, ¬ (y.ctx = nowCtx s ∧ y.gen = (now s).gen)
    let idle := (now s).loaded = [] ∧ arrived
    let start (table : Nat) (d : Option DecTable) (c : Option (List Segment)) : State := inCore s s (fun k => { k with
      tload := k.tload ++ [{ ctx := nowCtx s, table := table, dec := d, cur := c, before := k.nextId, gen := (now s).gen }] })
    ((now s).loaded ≠ [] → arrived → GivesTo (.ldtab o) s .none s ∧ GivesTo (.ldcurve o) s .none s)
    ∧ (¬ arrived → Waits (.ldtab o) s 9 s ∧ Waits (.ldcurve o) s 9 s)
    ∧ (idle → A.toNat % 64 ≠ 0 → Traps (.ldtab o) s cMisaligned A ∧ Traps (.ldcurve o) s cMisaligned A)
    ∧ (∀ x d, idle → A.toNat % 64 = 0 → Reaches s .load A x → (envOf (.ldtab o) s).decImage A = .ok d →
      Waits (.ldtab o) s 9 (start o.t.toNat (some d) none))
    ∧ (∀ x l, idle → A.toNat % 64 = 0 → Reaches s .load A x → (envOf (.ldcurve o) s).curImage A = .ok l →
      Waits (.ldcurve o) s 9 (start (4 + o.t.toNat) none (some l))))
  ∧ (∀ (s : State) (o : OpA) (x : Xl), Ready s → Guard s o.g → Unmodified o.p → Readable s [o.a] →
    let A := (X s o.a).toNat
    let inval (i : Instr) (kind : Nat) : Prop :=
      if (now s).prv = 0 then Traps i s cPrivilege ((slotWord i).setWidth 64)
      else if s.storesDone s.turn (nowCtx s) then GivesTo i s .none (s.startInv s.turn (nowCtx s) kind A) else Waits i s 9 s
    inval (.xinvl o) 0 ∧ inval (.xinvc o) 1 ∧ inval (.xinva o) 2
    ∧ (Reaches s .fetch (X s o.a) x →
      (∀ id, (now s).inv = some id → (∀ v ∈ s.invs, v.id = id → v.done = true) → GivesTo (.iinv o) s .none s)
      ∧ (∀ id v, (now s).inv = some id → v ∈ s.invs → v.id = id → v.done = false → Waits (.iinv o) s 9 s)
      ∧ ((now s).inv = none → s.storesDone s.turn (nowCtx s) = true →
        Waits (.iinv o) s 9 (inNow s (s.startInv s.turn (nowCtx s) 4 A) (fun k => { k with inv := some s.nextInv })))))
  ∧ (∀ (s : State) (o : Op0), Ready s → Guard s o.g → Unmodified o.p →
    let low (i : Instr) (p : Prop) : Prop := ((now s).prv = 0 → Traps i s cPrivilege ((slotWord i).setWidth 64)) ∧ (1 ≤ (now s).prv → p)
    low (.iinva o) (
      (∀ id, (now s).inv = some id → (∀ v ∈ s.invs, v.id = id → v.done = true) → GivesTo (.iinva o) s .none s)
      ∧ (∀ id v, (now s).inv = some id → v ∈ s.invs → v.id = id → v.done = false → Waits (.iinva o) s 9 s)
      ∧ ((now s).inv = none → s.storesDone s.turn (nowCtx s) = true →
        Waits (.iinva o) s 9 (inNow s (s.startInv s.turn (nowCtx s) 5 0) (fun k => { k with inv := some s.nextInv }))))
    ∧ low (.xinvt o)
      (if s.storesDone s.turn (nowCtx s) then GivesTo (.xinvt o) s .none (s.startInv s.turn (nowCtx s) 3 0) else Waits (.xinvt o) s 9 s)
    ∧ low (.xsync o) (if s.syncWaits s.turn (nowCtx s) then Waits (.xsync o) s 9 s else GivesTo (.xsync o) s .none s))
  ∧ (∀ (s : State) (o : OpDab), Ready s → Guard s o.g → Unmodified o.p → Readable s [o.a, o.b] →
    let n := (X s o.a).toNat
    let B := X s o.b
    let r := if B = 0 then (now s).region.toNat else bitsN B 0 24
    let ea : Word := (s.region r).chan.setWidth 64 + BitVec.ofNat 64 (32 * n)
    let e := envOf (.chinst o) s
    (4096 ≤ n ∨ 2 ^ 24 ≤ B.toNat → TrapsIllegal (.chinst o) s 0)
    ∧ (n < 4096 → B.toNat < 2 ^ 24 → (now s).prv = 0 → Traps (.chinst o) s cPrivilege ((slotWord (.chinst o)).setWidth 64))
    ∧ (n < 4096 → B.toNat < 2 ^ 24 → 1 ≤ (now s).prv →
      (e.ownTenant r = false → Traps (.chinst o) s cAccess B)
      ∧ (∀ x l m, e.ownTenant r = true → ea.toNat % 8 = 0 → Reaches s .load ea x → e.words64 4 ea = .ok l →
        let kind := bitsN (l.getD 0 0) 61 3
        (bitsN (l.getD 2 0) 60 4 ≠ 0 → TrapsIllegal (.chinst o) s 0)
        ∧ (bitsN (l.getD 2 0) 60 4 = 0 →
          (if kind = 1 ∨ kind = 2 then e.words64 (bitsN (l.getD 0 0) 30 6 + 1) (l.getD 2 0) = .ok m else m = []) →
          let y := s.install (r * 4096 + n) l m x.pa
          GivesTo (.chinst o) s (.val (y.2.setWidth 128)) (inNow s y.1 (fun k => if dN o.d then k else k.wx (dReg o.d) y.2))))))
  ∧ (∀ (s : State) (o : OpDa) (l : List Word), Ready s → Guard s o.g → Unmodified o.p → Readable s [o.a] →
    let reserved := bitsN (l.getD 0 0) 24 32 ≠ 0 ∨ bitsN (l.getD 1 0) 60 4 ≠ 0 ∨ ∃ v ∈ l.drop 2, v ≠ 0
    ((now s).prv = 0 → Traps (.rgcmd o) s cPrivilege ((slotWord (.rgcmd o)).setWidth 64))
    ∧ (1 ≤ (now s).prv → (envOf (.rgcmd o) s).desc (X s o.a) 8 64 = .ok l →
      (reserved → TrapsIllegal (.rgcmd o) s 0)
      ∧ (¬ reserved → GivesTo (.rgcmd o) s .await (inNow s
        { s with cmds := s.cmds ++ [
          { words := l, from? := some (s.turn, nowCtx s, destReg false o.d, (now s).region), root := (s.core s.turn).root
            latch := latchNo s, gen := (now s).gen, uh := bit (now s).status 4 }] } (awaiting false o.d)))))

/-! ### Firmware, the host and the links -/

/-- R138, R275, R278, R449, R458, R459, R468, R469: bring-up, links, temperature and the rate of time. Bring-up leaves the state after
reset but for what module flash and the part itself keep. -/
def Obligations.LinkPowerEvents : Prop :=
  (∀ s : State, (s.cores.map (·.1)).Nodup → ∃ t, exec .powerOn s = .next t
    ∧ t = { State.reset with
        cores := t.cores, bodies := t.bodies, meas := [0, 1, 2].foldl (fun m b => extendMeas m (Config.bootDigest b)) 0, leaf := s.leaf
        chrono := s.chrono, chLeftOut := s.chLeftOut, lifeCorr := s.lifeCorr, lifeTemp := s.lifeTemp, lifeBin := s.lifeBin
        lifePair := s.lifePair, powered := s.poweredTime, agenda := s.agenda, steps := s.steps + 1 }
    ∧ (∀ c, t.core c = { (Core.reset c) with bin := (s.core c).bin, suspect := (s.core c).suspect, oos := (s.core c).bin == .retired })
    ∧ (∀ b, t.body b = { slot := (s.body b).slot, otherVersion := (s.body b).otherVersion, version := (s.body b).version
                         minVersion := (s.body b).minVersion }))
  ∧ ∀ s : State, s.shut = false →
    (∀ gen width ver cache, gen ∈ [5, 6, 7] → width ∈ [4, 8, 16] → ver ∈ [20, 31, 32] →
      Happens (.hostLinkTrain gen width ver cache) s
        { s with link := { up := true, gen := gen, width := width, cxlVer := ver, cache := cache } })
    ∧ (s.link.up = true → ∃ t, exec .hostLinkDown s = .next t ∧ t.link = { s.link with up := false } ∧ t.hostBuf = []
      ∧ t.flight = s.flight.filter (fun f => f.hostLoad.isNone) ∧ t.chans = s.chans ∧ t.regions = s.regions)
    ∧ (s.link.up = false → Happens .hostLinkDown s s)
    ∧ (∀ port gen, port < 36 → gen ∈ [1, 2] →
      Happens (.gomondPortTrain port gen) s { s with ports := s.ports.set port { gen := gen } })
    ∧ (∀ port, port < 36 → (s.ports.getD port {}).gen ≠ 0 → Happens (.gomondPortDown port) s { s with ports := s.ports.set port {} })
    ∧ (∀ region ch x, s.chans.get? (chanKey region ch) = some x →
      Happens (.channelRouteLoss region ch) s
        (if x.live ∧ x.rpkg ≠ s.pkg.toNat then s.chanError (chanKey region ch) else s))
    ∧ (∀ cluster stop, cluster < 512 →
      Happens (.thermalThrottle cluster stop) s (s.modCluster cluster (fun k => { k with stopped := stop })))
    ∧ (∀ die, die < 8 → (∀ f ∈ s.flight, f.dst ≠ dstQueue hostQueueNo) →
      (s.hostq = none → Happens (.thermalShutdown die) s { s with shut := true })
      ∧ (∀ q, s.hostq = some q → q.tail + 1 < (s.rd64 q.base).toNat + 2 ^ q.n →
        Happens (.thermalShutdown die) s
          { (s.putRecord q.base q.n q.tail (BitVec.ofNat 64 (0x13 * 2 ^ 48 + die)) 0 0 (BitVec.ofNat 64 s.time)) with
            hostq := some { q with tail := q.tail + 1 }, shut := true })
      ∧ (∀ q, s.hostq = some q → (s.rd64 q.base).toNat + 2 ^ q.n ≤ q.tail + 1 → Happens (.thermalShutdown die) s s))
    ∧ (∀ die celsius, die < 8 →
      let past : Prop := ∀ a, s.tempAt.get? die = some a → a + 1000000000 ≤ s.time
      (past → Happens (.temperatureSample die celsius) s { s with
        lifeTemp := lifeAdd s.lifeTemp (25 * die + (if 120 ≤ celsius then 24 else celsius / 5)), tempAt := s.tempAt.set die s.time })
      ∧ (¬ past → Happens (.temperatureSample die celsius) s s))
    ∧ (∀ ppm : Int, -200 ≤ ppm → ppm ≤ 200 →
      Happens (.timeRateAdjust ppm) s (if (s.body 2).probation = none then { s with ppm := ppm } else s))

/-- R109, R142, R143, R147, R148, R193, R271, R448, R451 to R454, R466: what firmware and the host write. -/
def Obligations.RegisterWriteEvents : Prop :=
  ∀ s : State, s.shut = false →
    (∀ (off : BitVec 48) (v : Word), off.toNat % 8 = 0 →
      (∀ c, c < 4096 → off.toNat = 0x4000 * c → exec (.registerWrite off v) s = exec (.translationRootWrite c v) s)
      ∧ (∀ k, k < 512 → off.toNat = 0x20000 * k + 0x600 →
        let base := bitsN v 0 10
        let n := bitsN v 10 11
        Happens (.registerWrite off v) s (s.modCluster k (fun q => { q with
          window := v &&& 0xFE1FFFFF#64
          cells := q.cells.filter (fun e => !(decide (base ≤ e.1) && decide (e.1 < base + n))) })))
      ∧ (off.toNat = 0x4000000 → Happens (.registerWrite off v) s s)
      ∧ (off.toNat = 0x4000010 → Happens (.registerWrite off v) s
        (if bitsN v 0 9 ≤ 256 ∧ bitsN v 30 9 + bitsN v 0 9 ≤ 512 then { s with hostWin := v &&& 0x8000007FC00001FF#64 } else s))
      ∧ (∀ fn, fn < 128 →
        (∀ j, 0 < j → j < 8 → off.toNat = 0x4010000 + 0x1000 * fn + 8 * j → ∃ t, exec (.registerWrite off v) s = .next t
          ∧ (t.window fn).words.toList = listSet (s.window fn).words.toList j v)
        ∧ (off.toNat = 0x4010000 + 0x1000 * fn + 0x40 → Happens (.registerWrite off v) s (s.modWindow fn (fun w => { w with tgt := v })))
        ∧ (off.toNat = 0x4010000 + 0x1000 * fn + 0x50 → Happens (.registerWrite off v) s
            (s.modWindow fn (fun w => { w with ctl := v &&& 0x8000000000FFFFFF#64 }))))
      ∧ ((∀ k, k < 512 → off.toNat ≠ 0x20000 * k + 0x600) → (∀ c, c < 4096 → off.toNat ≠ 0x4000 * c) →
        Happens (.registerWrite off v) s ((s.devWrite off.toNat v).getD s)))
    ∧ (∀ c, c < 4096 →
      (∀ v : Word,
        let k := s.core c
        let new : BitVec 7 := field v 0 7
        let free : Prop := k.tag = 0 ∨ s.emptied c = true
        let given (t : State) : Prop := exec (.translationRootWrite c v) s = .next t
          ∧ (t.core c).root = v &&& 0x800FFFFFFFFFC07F#64 ∧ t.flight = s.flight
          ∧ (∀ d, d ≠ c → t.core d = s.core d) ∧ (∀ u, 0 < u → u < 16 → t.ctx c u = s.ctx c u)
          ∧ (∀ r g, s.regions.get? r = some g → t.regions.get? r = some
              (if r ≠ 0 ∧ g.tag = new ∧ g.tag ≠ 0 then { g with root := v &&& 0x800FFFFFFFFFC07F#64 } else g))
        (k.tag = new → ∃ t, given t ∧ t.mem = s.mem
          ∧ (t.core c).utlb = if field k.root 0 52 = field (v &&& 0xFFFFFFFFFC07F#64) 0 52 then k.utlb else [])
        ∧ (k.tag ≠ new → ¬ free → Happens (.translationRootWrite c v) s s)
        ∧ (k.tag ≠ new → free → new ≠ 0 → (∀ x ∈ s.tenants, ¬ (x.core = c ∧ x.tag = new)) → ∃ t, given t
          ∧ (t.core c).utlb = [] ∧ (t.ctx c 0).mode = .running ∧ (t.ctx c 0).x = Vector.replicate 32 0
          ∧ (k.tag ≠ 0 → (t.core c).ctrs = [] ∧ (t.core c).dec = [] ∧ (t.core c).cur = [] ∧ (t.core c).log = {}
            ∧ (t.core c).perf = Vector.replicate 8 {})
          ∧ (k.tag ≠ 0 → s.liveTag k.tag = true → ∃ x ∈ t.tenants, x.core = c ∧ x.tag = k.tag ∧ x.log = k.log
            ∧ x.notices = k.notices ∧ x.mail = k.mail ∧ x.ctrs = k.ctrs ∧ x.dec = k.dec ∧ x.cur = k.cur ∧ x.perf = k.perf))
        ∧ ∀ i x, s.tenants[i]? = some x → x.core = c → x.tag = new → (∀ y ∈ s.tenants.take i, ¬ (y.core = c ∧ y.tag = new)) →
          k.tag ≠ new → free → new ≠ 0 → s.resvRoom x = true → ∃ t, given t ∧ (t.core c).log = x.log
            ∧ (t.core c).dec = x.dec ∧ (t.core c).cur = x.cur ∧ (t.core c).ctrs = x.ctrs ∧ (t.core c).perf = x.perf
            ∧ (t.core c).staged = x.staged)
      ∧ (∀ r (v : Word), r < 32 →
        let d := v &&& 0xFF003FE0001FFE01#64
        let bad : Prop := bitsN d 40 6 = 0 ∨ 5 ≤ bitsN d 37 3 ∨ ringBase d % ringEntry d ≠ 0
          ∨ 0x1C0000 < ringBase d + ringCount d * ringEntry d
        ((s.core c).ringInUse r = true → Happens (.ringDescriptorWrite c r v) s s)
        ∧ ((s.core c).ringInUse r = false → bad →
          Happens (.ringDescriptorWrite c r v) s (s.modCore c (fun k => { k with rings := k.rings.set r { desc := setField d 0 0#1 } })))
        ∧ ((s.core c).ringInUse r = false → ¬ bad →
          Happens (.ringDescriptorWrite c r v) s (s.modCore c (fun k => { k with rings := k.rings.set r { desc := d } }))))
      ∧ (∀ v : Word,
        let d := v &&& 0x1FC007#64
        let base := bitsN d 14 7 * 2 ^ 14
        let bad : Prop := bitsN d 0 3 = 7 ∨ base % (32 * ringCap d) ≠ 0 ∨ 0x1C0000 < base + 32 * ringCap d
        (bad → Happens (.logDescriptorWrite c v) s s)
        ∧ (¬ bad → Happens (.logDescriptorWrite c v) s
            (s.modCore c (fun k => { k with log := ({ k.log with descNext := some d } : Log).settle }))))
      ∧ ((((s.core c).log.descNext.isSome ∧ (s.core c).log.ringUse = 0) ∨ ((s.core c).log.spillNext.isSome ∧ (s.core c).log.spillUse = 0)) →
        Happens (.logDescriptorEffect c) s (s.modCore c (fun k => { k with log := k.log.settle })))
      ∧ (∀ v : Word,
        let d := v &&& 0x800FFFFFFFFF0FFF#64
        let base := bitsN d 16 36 * 2 ^ 16
        let good : Prop := kindOf base = 1 ∧ paOk base = true ∧ paOk (base + (bitsN d 0 12 + 1) * 65536 - 1) = true
        let put (d : Word) : State := s.modCore c (fun k => { k with log := { k.log with spill := d, spillNext := none } })
        let later (d : Word) : State := s.modCore c (fun k => { k with log := { k.log with spillNext := some d } })
        (good → bit d 63 = true → Happens (.logSpillDescriptorWrite c v) s (put d))
        ∧ (¬ (good ∧ bit d 63 = true) → ∃ d', bit d' 63 = false
          ∧ Happens (.logSpillDescriptorWrite c v) s (if (s.core c).log.spillUse = 0 then put d' else later d')))
      ∧ (∀ v : Word,
        let d := v &&& 0x8000001F001FF000#64
        let n := bitsN d 32 5
        let base := bitsN d 12 9 * 4096
        let bad : Prop := n < 6 ∨ 14 < n ∨ base % (64 * 2 ^ n) ≠ 0 ∨ 0x1C0000 < base + 64 * 2 ^ n
        ((s.core c).spilled ≠ [] → Happens (.arrivalSpillDescriptorWrite c v) s s)
        ∧ ((s.core c).spilled = [] → bad →
          Happens (.arrivalSpillDescriptorWrite c v) s (s.modCore c (fun k => { k with aspill := setField d 63 0#1 })))
        ∧ ((s.core c).spilled = [] → ¬ bad → Happens (.arrivalSpillDescriptorWrite c v) s (s.modCore c (fun k => { k with aspill := d }))))
      ∧ (∀ seq : Word, ∃ t n, exec (.chronographRequest c seq) s = .next t ∧ n ≤ 16 ∧ (t.core c).chReq = seq
        ∧ (t.core c).chStat = BitVec.ofNat 64 (2 ^ 63 + n) ∧ (t.core c).chRecs.length = 8 * n
        ∧ (∀ j, j < n → ∃ r ∈ s.chrono, seq.toNat ≤ bitsN r[0] 0 48
          ∧ ∀ i, i < 8 → (t.core c).chRecs[8 * j + i]? = r.toList[i]?) ∧ ∀ d, d ≠ c → t.core d = s.core d))
    ∧ (∀ svc ctx (v : Word), svc < 8 → ctx < 16 → Happens (.mhbWrite svc ctx v) s
        ((s.modCtx (4096 + svc) ctx (fun k => { k with mhb := v })).modBody (if svc = 0 then 0 else if svc ≤ 2 then 1 else 2)
          (fun b => { b with beats := b.beats.set svc s.time })))
    ∧ (∀ fn (w0 : Word), fn < 128 → s.link.up = true →
      let w := s.window fn
      let r := bitsN w.ctl 0 24
      let ok : Prop := bit w.ctl 63 = true ∧ (∃ g, s.regions.get? r = some g ∧ g.dead = false) ∧ s.contRoom r = true
        ∧ (if bit w.tgt 63 then bitsN w.tgt 0 63 < 512 else w.tgt.toNat < 4096)
      (ok → ∃ t q dst, exec (.hostLaunchPost fn w0) s = .next t ∧ (t.window fn).acc = w.acc + 1 ∧ (t.window fn).ref = w.ref
        ∧ t.flight = s.flight ++ [{ src := srcHost, dst := dst, body := .cont q }]
        ∧ q.rcd = { (Rec.ofWords (w0 :: w.words.toList.drop 1)) with
            m := false, s := false, ext := false, hop := 0, prio := s.prio r, region := BitVec.ofNat 24 r }
        ∧ (bit w.tgt 63 = true → dst = dstCluster (bitsN w.tgt 0 9))
        ∧ (bit w.tgt 63 = false → s.acceptsRegion (bitsN w.tgt 0 12) r = true → dst = dstCore (bitsN w.tgt 0 12))
        ∧ (t.region r).conts = (s.region r).conts + 1)
      ∧ (¬ ok → Happens (.hostLaunchPost fn w0) s
        ((s.modWindow fn (fun w => { w with ref := w.ref + 1, words := w.words.set 0 w0 })).hostEvent 0x11 0 fn (w.ref + 1).toNat)))

/-- R99, R444, R456, R462 to R465, R467: the PF's own commands, hand-over between firmware images, and operating bins. -/
def Obligations.FirmwareCommandEvents : Prop :=
  (∀ (s : State) (i : Nat) (q : RgCmd), s.shut = false → s.nextCmd true = some (i, q) →
    (q.op = 7 →
      let bad : Prop := bitsN (q.w 5) 52 12 ≠ 0 ∨ bitsN (q.w 5) 0 6 ≠ 0
      (bad → Happens .attestationQuote s (s.answer i q 3 0))
      ∧ (¬ bad → 2 ^ 20 ≤ s.leaf → Happens .attestationQuote s (s.answer i q 5 0))
      ∧ (¬ bad → s.leaf < 2 ^ 20 → ∃ bs : List Byte,
        Happens .attestationQuote s ((({ s with leaf := s.leaf + 1 } : State).wrBytes (2 ^ 49 + bitsN (q.w 5) 0 52 % 2 ^ 48) bs).answer i q 0 0)
        ∧ (bs.take 88 = toBytes 8 identityWord.toNat ++ toBytes 8 s.pkg.toNat ++ toBytes 32 s.meas.toNat
            ++ (toBytes 8 (q.w 1).toNat ++ toBytes 8 (q.w 2).toNat ++ toBytes 8 (q.w 3).toNat ++ toBytes 8 (q.w 4).toNat)
            ++ toBytes 8 s.leaf)))
    ∧ (q.op = 9 →
      let a := bitsN (q.w 1) 0 52
      let n := (q.w 2).toNat
      let bad : Prop := bitsN (q.w 1) 52 12 ≠ 0 ∨ a % 32 ≠ 0 ∨ n < 4 ∨ 16 < n ∨ q.w 3 ≠ 0 ∨ q.w 4 ≠ 0 ∨ q.w 5 ≠ 0
      (bad → Happens .hostEventQueueSetup s (s.answer i q 3 0))
      ∧ (¬ bad → Happens .hostEventQueueSetup s (({ s with
          hostq := some { base := 2 ^ 49 + a % 2 ^ 48, n := n, tail := (s.rd64 (2 ^ 49 + a % 2 ^ 48)).toNat } } : State).answer i q 0 0)))
    ∧ (q.op = 10 →
      let len := (q.w 2).toNat
      let off := (q.w 3).toNat
      let bad : Prop := bitsN (q.w 1) 52 12 ≠ 0 ∨ len % 64 ≠ 0 ∨ off % 64 ≠ 0 ∨ 2 ^ 26 < off + len ∨ q.w 4 ≠ 0 ∨ q.w 5 ≠ 0
      (bad → Happens .stageImagePart s (s.answer i q 3 0))
      ∧ (¬ bad → ∃ st : Tab Byte, Happens .stageImagePart s (({ s with staging := st } : State).answer i q 0 0)
        ∧ (∀ j, j < len → st.get? (off + j) = some (Mem.read s.mem (2 ^ 49 + bitsN (q.w 1) 0 52 % 2 ^ 48 + j)))
        ∧ ∀ j, (j < off ∨ off + len ≤ j) → st.get? j = s.staging.get? j))
    ∧ (q.op = 8 →
      let b := (q.w 1).toNat
      let image := s.staging.map (fun (e : Nat × Byte) => e.2)
      let ok : Prop := Config.vendorSignatureOk image = true ∧ Config.imageBody image = b
        ∧ (s.body b).minVersion.toNat ≤ (Config.imageVersion image).toNat
      let bad : Prop := 2 < b ∨ q.w 2 ≠ 0 ∨ q.w 3 ≠ 0 ∨ q.w 4 ≠ 0 ∨ q.w 5 ≠ 0
      (bad → Happens .handOver s (s.answer i q 3 0))
      ∧ (¬ bad → (s.body b).probation ≠ none → Happens .handOver s s)
      ∧ (¬ bad → (s.body b).probation = none →
        (¬ ok → Happens .handOver s ((s.answer i q 0 0).hostEvent 0x12 6 b 0))
        ∧ (ok → Config.imageImports image = false → Happens .handOver s ((s.answer i q 0 0).hostEvent 0x12 5 b 0))
        ∧ (ok → Config.imageImports image = true → ∃ t, exec .handOver s = .next t
          ∧ (∃ d, (t.body b).probation = some (s.time, Config.imageVersion image, d)) ∧ (t.body b).failed = false
          ∧ (t.body b).slot = (s.body b).slot ∧ t.meas = s.meas
          ∧ ∀ c ∈ coresOfBody b, ∃ u, u < 16 ∧ (t.ctx c u).newImage = true ∧ (t.ctx c u).mode = .running
              ∧ (t.ctx c u).pc = Config.imageStart image))))
  ∧ (∀ (s : State) (b : Nat), s.shut = false →
    (∀ start v d, (s.body b).probation = some (start, v, d) →
      let lost : Prop := s.missed b = true ∨ (s.body b).failed = true
      (lost → ∃ t, exec (.heartbeatFallback b) s = .next t ∧ (t.body b).probation = none ∧ (t.body b).slot = (s.body b).slot
        ∧ (t.body b).version = (s.body b).version ∧ t.meas = s.meas
        ∧ ∀ c ∈ coresOfBody b, ∀ u, (t.ctx c u).newImage = false)
      ∧ (¬ lost → Happens (.heartbeatFallback b) s s)
      ∧ (¬ lost → start + 50000000 ≤ s.time → ∃ t, exec (.probationCommit b) s = .next t ∧ (t.body b).probation = none
        ∧ (t.body b).slot = ~~~(s.body b).slot ∧ (t.body b).version = v ∧ (t.body b).otherVersion = (s.body b).version
        ∧ t.meas = extendMeas s.meas d ∧ ∀ c ∈ coresOfBody b, ∀ u, (t.ctx c u).newImage = false)
      ∧ (lost ∨ s.time < start + 50000000 → Happens (.probationCommit b) s s)
      ∧ Happens (.bodyRestart b) s s)
    ∧ ((s.body b).probation = none → b < 3 →
      (¬ (((s.body b).failed = true ∨ s.booting b = true) ∧ s.missed b = true) → Happens (.bodyRestart b) s s)
      ∧ ((s.body b).failed = true ∨ s.booting b = true → s.missed b = true → ∃ t, exec (.bodyRestart b) s = .next t ∧ (t.body b).failed = false
        ∧ (t.body b).slot = ~~~(s.body b).slot ∧ (t.body b).version = (s.body b).otherVersion
        ∧ (t.body b).otherVersion = (s.body b).version ∧ ∀ c ∈ coresOfBody b, ∀ u, u < 15 → (t.ctx c u).mode = .running)))
  ∧ ∀ (s : State) (c : Nat), s.shut = false → c < 4096 →
    let k := s.core c
    let n (x : Nat) : Word := BitVec.ofNat 64 x
    let clear : Prop := bit k.root 63 = false ∧ k.mat = [] ∧ k.epi = [] ∧ ∀ u, 0 < u → u < 16 → (s.ctx c u).occupied = false
    (∀ b, k.binNext = some b →
      (¬ clear → Happens (.binMove c) s s)
      ∧ (clear → ∃ t, exec (.binMove c) s = .next t ∧ t.core c = { k with bin := b, binNext := none, oos := true }
        ∧ t.lifeBin = s.lifeBin ++ [#v[n c, n s.time, n k.bin.num, n b.num, 0, 0, 0, 0]] ∧ ∀ d, d ≠ c → t.core d = s.core d))
    ∧ (∀ pass (unit : Word), k.oos = true → k.bin ≠ .retired → ∃ t, exec (.selfTestResult c pass unit) s = .next t
      ∧ (t.core c = if pass then { k with oos := false } else { k with bin := .retired })
      ∧ (t.lifeBin = s.lifeBin ++ [#v[n c, n s.time, n k.bin.num, n (if pass then k.bin else .retired).num, if pass then 1 else 0, 0, 0, 0]]) ∧ ∀ d, d ≠ c → t.core d = s.core d)
    ∧ (∀ at', k.suspect = some at' → at' + 30 * 86400 * 1000000000 ≤ s.time → k.binNext = none → k.oos = false →
      (k.bin = .cMinus → Happens (.binRecovery c) s (s.modCore c (fun k => { k with binNext := some .vPlus, suspect := some s.time })))
      ∧ (k.bin = .vPlus → Happens (.binRecovery c) s (s.modCore c (fun k => { k with binNext := some .nominal, suspect := some s.time }))))

/-- R207, R230 to R234, R432, R455: region commands, each answered with a status, and the end of a subtree. -/
def Obligations.RegionCommandEvents : Prop :=
  (∀ s : State, s.shut = false → s.nextCmd false = none →
    ∀ e ∈ [Instr.regionCreate, .regionChange, .regionDestroy, .regionPreempt, .regionResume, .regionLaunch], Happens e s s)
  ∧ (∀ (s : State) (i : Nat) (q : RgCmd), s.shut = false → s.nextCmd false = some (i, q) →
    let n := q.target
    let may : Prop := (∃ g, s.regions.get? n = some g ∧ g.dead = false)
      ∧ ∀ c t reg r, q.from? = some (c, t, reg, r) → n ≠ 0 ∧ (s.region n).tag = (s.region r.toNat).tag
    let event (e : Instr) (op : Nat) (p : Prop) : Prop := q.op = op → (¬ may → Happens e s (s.answer i q 1 0)) ∧ (may → p)
    (q.op = 0 ∨ 6 < q.op → Happens .regionCreate s (s.answer i q 4 0))
    ∧ event .regionCreate 1 (
      (s.image? q 32 = none → Happens .regionCreate s (s.answer i q 3 0))
      ∧ (∀ w, s.image? q 32 = some w → rcbMalformed w = true → Happens .regionCreate s (s.answer i q 3 0))
      ∧ (∀ w r, s.image? q 32 = some w → rcbMalformed w = false → 0 < r → s.regions.get? r = none →
        (∀ m, 0 < m → m < r → s.regions.get? m ≠ none) →
        let x := s.newRegion n r w
        x.parent = some n ∧ (n ≠ 0 → x.tag = (s.region n).tag ∧ x.root = (s.region n).root)
        ∧ (n = 0 → x.tag ≠ 0 → ∀ e ∈ s.regions, e.2.dead = false → e.2.tag ≠ x.tag)
        ∧ (s.overBudget (some n) x = true ∨ (n = 0 ∧ x.tag = 0) → Happens .regionCreate s (s.answer i q 2 0))
        ∧ (s.overBudget (some n) x = false → (n = 0 → x.tag ≠ 0) →
          Happens .regionCreate s (({ s with regions := s.regions.set r x } : State).writeRcbs.answer i q 0 r))))
    ∧ event .regionChange 2 (
      (s.image? q 32 = none → Happens .regionChange s (s.answer i q 3 0))
      ∧ (∀ w, s.image? q 32 = some w → rcbMalformed w = true → Happens .regionChange s (s.answer i q 3 0))
      ∧ (∀ w, s.image? q 32 = some w → rcbMalformed w = false →
        let x := (s.region n).ofImage w
        (s.overBudget x.parent x = true → Happens .regionChange s (s.answer i q 2 0))
        ∧ (s.overBudget x.parent x = false → Happens .regionChange s ((s.modRegion n (fun g => g.ofImage w)).writeRcbs.answer i q 0 0))))
    ∧ event .regionDestroy 3 (
      (n = 0 → Happens .regionDestroy s (s.answer i q 1 0))
      ∧ (n ≠ 0 → Happens .regionDestroy s ((s.endSubtree n).writeRcbs.answer i q 0 0)
        ∧ (∀ r g, s.within r n = true → s.regions.get? r = some g → ∃ h, (s.endSubtree n).regions.get? r = some h
          ∧ h.dead = true ∧ h.conts = 0)
        ∧ ∀ r, s.within r n = false → (s.endSubtree n).regions.get? r = s.regions.get? r))
    ∧ event .regionPreempt 4 (
      let top : Bool := decide (n = 0) || decide ((s.region n).parent = some 0)
      Happens .regionPreempt s ((s.modRegion n (fun g => { g with
        preempted := true, evict := g.evict || (q.from?.isNone && top) })).answer i q 0 0))
    ∧ event .regionResume 5 (
      Happens .regionResume s ((s.modRegion n (fun g => { g with preempted := false, evict := false })).answer i q 0 0))
    ∧ event .regionLaunch 6 (
      (s.image? q 8 = none → Happens .regionLaunch s (s.answer i q 3 0))
      ∧ (∀ w, s.image? q 8 = some w →
        (s.contRoom n = false → Happens .regionLaunch s (s.answer i q 2 0))
        ∧ (s.contRoom n = true → ∃ k, Happens .regionLaunch s ((s.fwLaunch n k w).answer i q 0 0)))))
  ∧ (∀ s : State, s.shut = false → s.faults = [] →
    (∀ e ∈ s.regions, e.1 ≠ 0 → e.2.dead = false → s.poisoned (rcbAddr e.1) 256 = none) → Happens .regionFaultKill s s)
  ∧ ∀ (s : State) (f : RegFault) (l : List RegFault), s.shut = false → s.faultsFound = f :: l →
    let u : State := { s with faults := s.faults.drop 1 }
    (∀ g ∈ s.faults.head?, f = g)
    ∧ (s.faults = [] → f.code = cPoison ∧ f.region ≠ 0 ∧ (s.poisoned (rcbAddr f.region) 256).isSome = true)
    ∧ ((s.region f.region).dead = true ∨ s.domainRoot f.region = none → Happens .regionFaultKill s u)
    ∧ (∀ k, (s.region f.region).dead = false → s.domainRoot f.region = some k →
      ((s.region k).parent = some 0 → Happens .regionFaultKill s ((u.endSubtree k).writeRcbs.hostEvent 0x10 0 k f.code.toNat))
      ∧ ((s.region k).parent ≠ some 0 → Happens .regionFaultKill s ((u.endSubtree k).writeRcbs.launchHandler ((s.pathUp s.depth k).drop 1)
          [f.code.setWidth 64, BitVec.ofNat 64 k, BitVec.ofNat 64 f.region])))

/-! ### Translation, fetch, results and entries -/

/-- R115, R116, R119 to R123, R182 to R184, R431: misses and walks, invalidations, and the lines that reach the fetch buffers. -/
def Obligations.TranslationFetchEvents : Prop :=
  ∀ s : State, s.shut = false →
    let bare (l : List Walk) : List Walk := l.map (fun w => { w with on := false })
    (∀ c t va, (s.ctx c t).tlb = .lookup va →
      let k := s.core c
      let q := s.cluster (clusterOf c)
      (∀ e, tlbFind q.tlb k.tag va = some e → Happens (.clusterTlbLookup c t) s
        ((s.setCore c { k with utlb := tlbPut 32 k.utlb e }).modCtx c t (fun x => { x with tlb := .none })))
      ∧ (tlbFind q.tlb k.tag va = none →
        ((∃ w ∈ q.walks, w.tag = k.tag ∧ w.va / 2 ^ 16 = va / 2 ^ 16) → ∃ u, Happens (.clusterTlbLookup c t) s u
          ∧ (u.ctx c t).tlb = .walk va ∧ bare (u.cluster (clusterOf c)).walks = bare q.walks)
        ∧ ((∀ w ∈ q.walks, ¬ (w.tag = k.tag ∧ w.va / 2 ^ 16 = va / 2 ^ 16)) → ∃ u, Happens (.clusterTlbLookup c t) s u
          ∧ (u.ctx c t).tlb = .walk va
          ∧ bare (u.cluster (clusterOf c)).walks = bare q.walks ++ [{ tag := k.tag, root := k.root, va := va }]
          ∧ (q.walking ≤ 8 → (u.cluster (clusterOf c)).walking ≤ 8))))
    ∧ (∀ k idx w, (s.cluster k).walks[idx]? = some w → w.on = false → Happens (.walkComplete k idx) s s)
    ∧ (∀ k idx w, (s.cluster k).walks[idx]? = some w → w.on = true → s.ecc = [] →
      (∀ a ∈ (walkFrom s w.va 4 0 (entryNext w.root)).2, s.serves a = true) →
      ∃ t, exec (.walkComplete k idx) s = .next t ∧ t.mem = s.mem ∧ bare (t.cluster k).walks = bare (listDel (s.cluster k).walks idx)
        ∧ (∀ level e, walk s w.root w.va = .leaf level e → (t.cluster k).tlb
            = tlbPut 4096 (s.cluster k).tlb { tag := w.tag, level := level, vpn := w.va / 2 ^ pageBits level, leaf := e })
        ∧ ∀ c ∈ coresOf k, (s.core c).tag = w.tag → ∀ i va, (s.ctx c i).tlb = .walk va → va / 2 ^ 16 = w.va / 2 ^ 16 →
          (∀ level e, walk s w.root w.va = .leaf level e → (t.ctx c i).tlb = .none ∧
            { tag := w.tag, level := level, vpn := w.va / 2 ^ pageBits level, leaf := e } ∈ (t.core c).utlb)
          ∧ (walk s w.root w.va = .fault → (t.ctx c i).tlb = .failed va cTranslation (BitVec.ofNat 64 va))
          ∧ (∀ l, walk s w.root w.va = .poison l → (t.ctx c i).tlb = .failed va cPoison (BitVec.ofNat 64 l)))
    ∧ (∀ idx i, s.invs[idx]? = some i → i.done = false → ∃ t, exec (.invalidationComplete idx) s = .next t
      ∧ { i with done := true } ∈ t.invs ∧ t.mem = s.mem
      ∧ (i.kind < 4 → ∀ c, i.coversCore c = true → ∀ e ∈ (t.core c).utlb, i.hits e = false)
      ∧ (i.kind < 4 → ∀ k, i.coversCluster k = true → ∀ e ∈ (t.cluster k).tlb, i.hits e = false)
      ∧ (i.kind = 5 → ∀ k, (t.cluster k).icache = [])
      ∧ (i.kind = 4 → ∀ k, ∀ l ∈ (t.cluster k).icache, ¬ (l.1 = i.tag ∧ l.2.1 = i.va / 64 * 64)))
    ∧ (∀ k c t va m l₁ l₂,
      let q := s.cluster k
      let tag := s.fetchTag c
      let free (r : Nat × Nat × Nat × Nat) : Bool :=
        !(q.delivs.any (fun d => d.recips.any (fun x => x.1 == r.1 && x.2.1 == r.2.1 && d.va == r.2.2.1))
          || q.fills.any (fun d => d.tag == s.fetchTag r.1 && d.va == r.2.2.1))
      (s.requests k).filter free = l₁ ++ (c, t, va, m) :: l₂ → (∀ r ∈ l₁, m < r.2.2.2) → (∀ r ∈ l₂, m ≤ r.2.2.2) →
      let send (recips : List (Nat × Nat × FetchBuf)) : State :=
        s.modCluster k (fun q => { q with delivs := q.delivs ++ [{ tag := tag, va := va, recips := recips, since := s.steps }] })
      let asks (x : Nat × Nat × FetchBuf) : Prop := (∃ m, (x.1, x.2.1, va, m) ∈ s.requests k) ∧ s.fetchTag x.1 = tag
      let may (x : Nat × Nat × FetchBuf) : Prop := ∃ y, s.fetchXl x.1 x.2.1 va = .ok y
      let fails (x : Nat × Nat × FetchBuf) : Prop :=
        ∃ code tval, s.fetchXl x.1 x.2.1 va = .error (code, tval) ∧ x.2.2 = .bad va code tval
      (∀ l, q.icache.find? (fun l => l.1 == tag && l.2.1 == va) = some l → ∃ recips, Happens (.fetchPortServe k) s (send recips)
        ∧ ∀ x, x ∈ recips ↔ asks x ∧ (may x ∧ x.2.2 = .line va l.2.2 ∨ fails x))
      ∧ ((∀ l ∈ q.icache, ¬ (l.1 = tag ∧ l.2.1 = va)) → (∀ p ∈ s.fetchPlaces c va, s.serves p.1 = true) → s.ecc = [] →
        (∀ e, s.fetchXl c t va = .error e → ∃ recips, Happens (.fetchPortServe k) s (send recips) ∧ ∀ x, x ∈ recips ↔ asks x ∧ fails x)
        ∧ (∀ x, s.fetchXl c t va = .ok x → Happens (.fetchPortServe k) s
            (s.modCluster k (fun q => { q with fills := q.fills ++ [{ tag := tag, root := (s.core c).root, va := va }] })))))
    ∧ (∀ k w rest c t x, (s.cluster k).fills = w :: rest → s.fetcher k w.tag w.va = some (c, t) → s.fetchXl c t w.va = .ok x →
      s.serves x.pa = true → s.ecc = [] →
      let u := s.modCluster k (fun q => { q with fills := rest })
      (s.poisoned x.pa 64 = none → Happens (.icacheFillComplete k) s (u.modCluster k (fun q => { q with
        icache := ((w.tag, w.va, lineWords (s.readPhys c x.pa 64)) :: q.icache.filter (fun l => !(l.1 == w.tag && l.2.1 == w.va))).take 1024 })))
      ∧ (∀ l, s.poisoned x.pa 64 = some l → ∃ recips, Happens (.icacheFillComplete k) s (u.modCluster k (fun q => { q with
          delivs := q.delivs ++ [{ tag := w.tag, va := w.va, recips := recips, since := s.steps }] }))
        ∧ (c, t, .bad w.va cPoison (BitVec.ofNat 64 l)) ∈ recips
        ∧ ∀ y ∈ recips, (∃ m, (y.1, y.2.1, w.va, m) ∈ s.requests k) ∧ s.fetchTag y.1 = w.tag))
    ∧ (∀ k d rest, (s.cluster k).delivs = d :: rest → (d.recips.map (fun x => (x.1, x.2.1))).Nodup →
      let takes (c i : Nat) : Prop := (∃ m, (s.ctx c i).freq = some (d.va, m) ∧ m ≤ d.since) ∧ s.fetchTag c = d.tag
      ∃ t, exec (.fetchLineDeliver k) s = .next t ∧ (t.cluster k).delivs = rest
      ∧ (∀ c i b, i < 16 → (c, i, b) ∈ d.recips → takes c i → (t.ctx c i).freq = none ∧ (t.ctx c i).fbuf = b)
      ∧ (∀ c i, i < 16 → (∀ b, (c, i, b) ∈ d.recips → ¬ takes c i) → t.ctx c i = s.ctx c i))

/-- R64, R71, R130, R134 to R137, R255, R272, R442, R452: what is in flight performs, and results reach the contexts that await them. -/
def Obligations.PerformEvents : Prop :=
  (∀ (s : State) (i : Nat) (f : Flight), s.shut = false → s.flight[i]? = some f →
    (∀ t isV reg v p1 latch, f.body = .result t isV reg v p1 latch →
      let d := f.dest t isV reg latch
      Happens (.pendingResultArrive i) s ((s.land i).deliver d v p1)
      ∧ ((s.ctx f.src t).gen ≠ f.gen → Happens (.pendingResultArrive i) s (s.land i))
      ∧ ((s.ctx f.src t).gen = f.gen → reg < 32 → ∃ u, Happens (.pendingResultArrive i) s u ∧ u.flight = listDel s.flight i
        ∧ (isV = true → (u.ctx f.src t).rv reg = v ∧ bit (u.ctx f.src t).pendV reg = false)
        ∧ (isV = false → f.uh = true → 1 ≤ reg → reg ≤ 4 →
          (u.ctx f.src t).y.toList[reg - 1]? = some (v.setWidth 64) ∧ bit (u.ctx f.src t).pendY (reg - 1) = false)
        ∧ (isV = false → f.uh = false ∨ reg = 0 ∨ 4 < reg →
          (u.ctx f.src t).x.toList[reg]? = some (v.setWidth 64) ∧ bit (u.ctx f.src t).pendX reg = false)))
    ∧ (∀ t isV reg size sgn pa latch logged mask old, f.body = .load t isV reg size sgn pa latch logged mask old →
      (s.flightReady i = false ∨ s.serves pa = false → Happens (.pendingResultArrive i) s s)
      ∧ (s.flightReady i = true → s.serves pa = true → s.ecc = [] →
        let d := f.dest t isV reg latch
        (s.poisoned pa size = none → logged = false → Happens (.pendingResultArrive i) s
          ((s.land i).deliver d (loadValue isV size sgn mask old ((s.land i).readPhys f.src pa size)) none))
        ∧ (s.poisoned pa size = none → logged = true → kindOf pa = 1 → ∃ u : State, Happens (.pendingResultArrive i) s
            (u.deliver d (loadValue isV size sgn mask old (Mem.bytes s.mem pa size)) none)
          ∧ u.mem = s.mem ∧ u.flight = listDel s.flight i
          ∧ ((s.ownRecs f.src (lineOf pa) = []) → ((u.core f.src).rbuf.find? (fun l => l.1 == lineOf pa)) = some (lineOf pa, Mem.bytes s.mem (64 * lineOf pa) 64)))
        ∧ (∀ l, s.poisoned pa size = some l → Happens (.pendingResultArrive i) s ((s.land i).deliverPoison d f.pc f.slot l))))
    ∧ (∀ t reg n near sat pa latch m, f.body = .planed t reg n near sat pa latch m → s.flightReady i = true → s.serves pa = true →
      s.ecc = [] → s.poison = [] →
      Happens (.pendingResultArrive i) s ((s.land i).deliver (f.dest t true reg latch) (planedVec ((s.land i).rdByte f.src) pa n near sat) none))
    ∧ (∀ t pa data en, f.body = .store t pa data en none → s.flightReady i = true → s.serves pa = true →
      Memory.wf s.mem = true → data.length ≤ 16 →
      (kindOf pa = 1 → kindOf (pa + 15) = 1 → ∃ u, exec (.directStorePerform i) s = .next u ∧ u.flight = listDel s.flight i
        ∧ u.cores = s.cores
        ∧ ∀ a, Mem.read u.mem a = if pa ≤ a ∧ a < pa + data.length ∧ bit en (a - pa) = true then data.getD (a - pa) 0 else Mem.read s.mem a)
      ∧ (kindOf pa = 2 → kindOf (pa + 15) = 2 → ∃ u, exec (.directStorePerform i) s = .next u ∧ u.mem = s.mem ∧ u.cores = s.cores))
    ∧ (∀ t op n b d reg latch, f.body = .cell t op n b d reg latch → s.flightReady i = true →
      let old := (s.cluster (n / 1024)).cells.getD (n % 1024) 0
      let u := (s.land i).modCluster (n / 1024) (fun q => { q with cells := q.cells.set (n % 1024) (cellNew op old b d) })
      (reg = none → Happens (.syncCellPerform i) s u)
      ∧ (∀ r, reg = some r → Happens (.syncCellPerform i) s { u with
          flight := u.flight ++ [{ f with dst := dstBack f.src, body := .result t false r (old.setWidth 128) none latch }] }))
    ∧ (∀ t op pa v, f.body = .scale t op pa v → s.flightReady i = true → s.serves pa = true → s.ecc = [] →
      Happens (.scaleOpPerform i) s (if op = 0 then (s.land i).scaleFold pa v.toNat else (s.land i).scaleCommit pa)))
  ∧ (∀ (s : State) (line : Nat) (h : Nat × List Byte × List Nat), s.shut = false → s.link.up = true →
    s.hostBuf.find? (fun h => h.1 == line) = some h →
    let u : State := { (s.wrBytes (64 * line) h.2.1) with hostBuf := s.hostBuf.filter (fun h => h.1 != line) }
    Happens (.hostLineWriteback line) s u ∧ Happens (.hostSnoop line) s u)
  ∧ ∀ (s : State) (line : Nat) (data : BitVec 512), s.shut = false → s.link.up = true →
    let w := s.hostWin
    let inside : Prop := bit w 63 = true ∧ kindOf (64 * line) = 1 ∧ bitsN w 30 9 * 2 ^ 30 ≤ 64 * line % 2 ^ 48
      ∧ 64 * line % 2 ^ 48 < (bitsN w 30 9 + bitsN w 0 9) * 2 ^ 30
    (inside → Happens (.hostCxlMemAccess line true data) s (s.wrBytes (64 * line) (toBytes 64 data.toNat)))
    ∧ (inside → s.ecc = [] → Happens (.hostCxlMemAccess line false data) s s)
    ∧ (¬ inside → Happens (.hostCxlMemAccess line true data) s s ∧ Happens (.hostCxlMemAccess line false data) s s)

/-- R81, R95 to R97, R100, R105, R130, R185: stops, handler entries, the fault of a matrix operation, the end of a freeze. -/
def Obligations.StopEntryEvents : Prop :=
  ∀ s : State, s.shut = false →
    (∀ c t q, (s.ctx c t).stop = some q → q.code ≠ 0 → (s.ctx c t).mode = .running →
      ((s.ctx c t).hasPending = true → Happens (.workerTrapStop c t) s s)
      ∧ ((s.ctx c t).hasPending = false → ∃ u, exec (.workerTrapStop c t) s = .next u ∧ (u.ctx c t).mode = .stopped
        ∧ u.mem = (s.writeFrame c t q.framePc q.code).mem
        ∧ (t = 0 → (u.core c).notices = (s.core c).notices
          ∧ u.faults = s.faults ++ [{ region := (s.ctx c 0).region.toNat, code := q.code }])
        ∧ (0 < t → ∃ l₁ l₂, (s.core c).notices = l₁ ++ l₂
          ∧ (u.core c).notices = l₁ ++ {
            code := q.code, evt := false, slot := q.slot, ctx := BitVec.ofNat 4 t, npc := q.npc, tval := q.tval
            tframe := s.frameVa c t (s.ctx c t).region.toNat, cyc := (s.core c).cycle } :: l₂
          ∧ (∀ n ∈ l₂, n.evt = true ∧ n.cyc = (s.core c).cycle)
          ∧ ∀ n ∈ l₁.getLast?, ¬ (n.evt = true ∧ n.cyc = (s.core c).cycle))
        ∧ ∀ d, d ≠ c → u.core d = s.core d))
    ∧ (∀ c n rest, s.noticeDue c = true → (s.core c).notices = n :: rest → n.op = none →
      ∃ u, exec (.trapHandlerEntry c) s = .next u ∧ (u.core c).notices = rest ∧ (u.core c).cycle = (s.core c).cycle + 1
        ∧ u.mem = s.mem ∧ (∀ i, 0 < i → i < 16 → u.ctx c i = s.ctx c i)
        ∧ (let k := s.ctx c 0
          let x := u.ctx c 0
          x.epc = k.pc ∧ x.cause = causeWord n.evt n.slot n.ctx n.code ∧ x.tval = n.tval ∧ x.tframe = n.tframe ∧ x.npc = n.npc
          ∧ x.pc = k.tvec ∧ x.status = k.status ||| 8 ∧ x.qv = 0 ∧ x.x = k.x ∧ x.v = k.v ∧ x.p = k.p ∧ x.m = k.m))
    ∧ (∀ c, s.noticeDue c = false → Happens (.trapHandlerEntry c) s s)
    ∧ (∀ c t, s.userDue c t = true → ∃ u, exec (.userInterruptEntry c t) s = .next u
      ∧ (let k := s.ctx c t
        let x := u.ctx c t
        x.uepc = k.pc ∧ x.pc = k.ulvec ∧ bit x.status 4 = true ∧ bit x.status 6 = false ∧ x.qv = 0 ∧ x.x = k.x ∧ x.v = k.v
        ∧ x.uval = k.uval)
      ∧ u.mem = s.mem ∧ (∀ d, d ≠ c → u.core d = s.core d) ∧ ∀ i, i < 16 → i ≠ t % 16 → u.ctx c i = s.ctx c i)
    ∧ (∀ c t, s.userDue c t = false → Happens (.userInterruptEntry c t) s s)
    ∧ (∀ c,
      let holds (o : MatOp) : Prop := o.ctx ≠ 0 ∧ o.gen = some (s.ctx c o.ctx).gen
        ∧ ((s.ctx c o.ctx).mode = .running ∨ (s.ctx c o.ctx).mode = .stopped)
      let due (o : MatOp) : Prop := o.fault ≠ none
        ∧ (holds o → (s.ctx c o.ctx).mode = .running ∧ (s.ctx c o.ctx).stop = none)
      ((∀ o ∈ (s.core c).mat, ¬ due o) → Happens (.matrixFaultStop c) s s)
      ∧ ∀ l₁ o l₂ code tval, (s.core c).mat = l₁ ++ o :: l₂ → (∀ p ∈ l₁, ¬ due p) → due o → o.fault = some (code, tval) →
        (holds o → Happens (.matrixFaultStop c) s
          (((s.modCore c (fun q => q.dropOp o.id)).dropTwin c o.ctx).takeTrapAt c o.ctx code o.slot tval (s.ctx c o.ctx).pc o.pc))
        ∧ (¬ holds o → ∃ u, exec (.matrixFaultStop c) s = .next u ∧ (u.core c).notices = (s.core c).notices ++ [{
            code := code, evt := true, ctx := BitVec.ofNat 4 o.ctx, npc := o.pc, tval := tval, op := some o.id, cyc := (s.core c).cycle }]
          ∧ (u.core c).ctxs = (s.core c).ctxs ∧ u.mem = s.mem))
    ∧ (∀ c, (s.core c).freeze ≠ 0 → (∀ n, (s.core c).ctrDue n = false) → (s.core c).waits = [] →
      ∃ u, exec (.freezeEnd c) s = .next u ∧ (u.core c).freeze = 0 ∧ (u.core c).cycle = (s.core c).cycle + (s.core c).freeze
        ∧ (u.core c).ctxs = (s.core c).ctxs ∧ u.mem = s.mem ∧ ∀ d, d ≠ c → u.core d = s.core d)
    ∧ (∀ c, (s.core c).freeze = 0 → Happens (.freezeEnd c) s s)
    ∧ (∀ c t held, (s.ctx c t).realign = some held →
      let k := s.ctx c t
      let due : Prop := k.realignN ≤ (s.alignedAt (clusterOf c) k.region.toNat k.pc).length ∨ 64 ≤ held
      (due → ∃ u, exec (.realignRelease c t) s = .next u ∧ u.mem = s.mem
        ∧ (∀ x ∈ s.alignedAt (clusterOf c) k.region.toNat k.pc, (u.ctx x.1 x.2).realigned = true ∧ (u.ctx x.1 x.2).realign = none)
        ∧ ∀ d i, i < 16 → (d, i) ∉ s.alignedAt (clusterOf c) k.region.toNat k.pc → u.ctx d i = s.ctx d i)
      ∧ (¬ due → Happens (.realignRelease c t) s s))

/-! ### The log, continuations and regions -/

/-- R147, R155 to R163, R166: the shipper sends records in order of their sequence numbers up to the frontier, homes collect them,
and batches are applied in canonical order. -/
def Obligations.LogEvents : Prop :=
  ∀ s : State, s.shut = false →
    (∀ c r rest, (s.core c).log.recs = r :: rest → (s.core c).freeze = 0 → s.shipStalled c = false →
      (r.st = .unpublished ∨ r.held = true → Happens (.shipperSend c) s s)
      ∧ (r.st ≠ .unpublished → r.held = false →
        let k := s.core c
        let u := s.setCore c { k with log := ({ k.log with recs := rest, ship := r.seq + 1 } : Log).settle }
        (r.st = .void ∨ r.reserved = true → Happens (.shipperSend c) s u)
        ∧ (r.st = .published → r.reserved = false →
          Happens (.shipperSend c) s (u.fly c (dstHome r.home) (.logRec { core := c, tag := k.tag, r := r })))))
    ∧ (∀ i f h, s.flight[i]? = some f → f.body = .logRec h →
      let c := f.dst - 32768
      (s.flightReady i = false ∨ (s.core c).freeze ≠ 0 ∨ 8192 ≤ (s.core c).home.length → Happens (.homeRecordArrive i) s s)
      ∧ (s.flightReady i = true → (s.core c).freeze = 0 → (s.core c).home.length < 8192 →
        let u := (s.land i).modCore c (fun k => { k with home := k.home ++ [h] })
        (h.r.direct = false → Happens (.homeRecordArrive i) s u)
        ∧ (h.r.direct = true → Happens (.homeRecordArrive i) s (u.applyBatch c (fun g => g == h)))))
    ∧ (∀ c t home, (s.core home).freeze = 0 →
      let tag := (s.core c).tag
      let batch (p : Nat → LogRec → Bool) : Prop :=
        let sel (h : HomeRec) : Bool := h.tag == tag && p h.core h.r
        let now : Prop := (∃ h ∈ (s.core home).home, sel h = true)
          ∧ (s.stillComing home tag p = false ∨ s.portBlocked home tag p = true)
        (now → Happens (.batchApply c t home) s (s.applyBatch home sel)) ∧ (¬ now → Happens (.batchApply c t home) s s)
      (∀ line, s.ownWait c t = some line → (∀ r ∈ s.ownRecs c line, r.st ≠ .unpublished ∧ r.held = false) →
        batch (fun o r => decide (o = c) && r.lines.contains line))
      ∧ (s.ownWait c t = none →
        (∀ p ∈ s.acquiring c t, (∃ l, s.tenantLog p.core tag = some l ∧ precedes l.frontier p.point = false)
          ∨ (s.tenantLog p.core tag = none ∧ p.point = 0)) →
        batch (named (s.acquiring c t))))
    ∧ (∀ c,
      let free (h : HomeRec) : Bool := !(h.r.kind == 1 && h.r.rm)
      ((s.core c).home.length ≤ 6144 → Happens (.forcedCompaction c) s s)
      ∧ ((s.core c).freeze = 0 → 6144 < (s.core c).home.length → (∃ h ∈ (s.core c).home, free h = true) →
        ∃ u, exec (.forcedCompaction c) s = .next u ∧ (u.core c).home = (s.core c).home.filter (fun h => !free h)))
    ∧ (∀ home p, let u := s.applyBatch home p
      (u.core home).home = (s.core home).home.filter (fun h => !p h)
      ∧ (∀ h, s.ecc = [] → (s.core home).home.filter p = [h] → h.r.kind = 0 → h.r.size.toNat ≤ 4 → kindOf h.r.pa.toNat < 2 →
          Memory.wf s.mem = true →
          ∀ a, Mem.read u.mem a = if h.r.pa.toNat ≤ a ∧ a < h.r.pa.toNat + 2 ^ h.r.size.toNat
            then BitVec.ofNat 8 (h.r.data.toNat / 2 ^ (8 * (a - h.r.pa.toNat))) else Mem.read s.mem a))

/-- R77, R178, R187, R190 to R202: arrival, dispatch, the dispenser and the frames of extension migration. -/
def Obligations.DispatchEvents : Prop :=
  ∀ s : State, s.shut = false →
    (∀ i f q, s.flight[i]? = some f → f.body = .cont q →
      (s.flightReady i = false → Happens (.recordArrival i) s s)
      ∧ (s.flightReady i = true → q.toCluster = true →
        Happens (.recordArrival i) s ((s.land i).modCluster (f.dst - 8192) (fun k => { k with disp := k.disp ++ [q] })))
      ∧ (s.flightReady i = true → q.toCluster = false →
        let k := s.core f.dst
        let later : Prop := k.arrAt = some k.cycle ∨ k.freeze ≠ 0 ∨ s.dispatchDue f.dst = true ∨ k.refillDue = true
        let q' : Cont := { q with entry := k.cycle, loading := none, toCluster := false, rcd := { q.rcd with s := false } }
        let q'' : Cont := { q' with rcd := { q'.rcd with s := true } }
        let home (t : SavedTenant) : Prop := t.core = f.dst ∧ t.tag = s.tagOf q.rcd.region.toNat
        let room (d : Word) (n : Nat) : Prop := bit d 63 = true ∧ n < 2 ^ bitsN d 32 5
        (later → Happens (.recordArrival i) s s)
        ∧ (¬ later → s.tagOf q.rcd.region.toNat = k.tag →
          (k.spilled = [] → k.aq.length < 48 →
            Happens (.recordArrival i) s ((s.land i).setCore f.dst { k with aq := k.aq ++ [q'], arrAt := some k.cycle }))
          ∧ (k.spilled ≠ [] ∨ 48 ≤ k.aq.length → room k.aspill k.spilled.length →
            ∃ u, exec (.recordArrival i) s = .next u ∧ (u.core f.dst).spilled = k.spilled ++ [q''] ∧ (u.core f.dst).aq = k.aq
              ∧ u.flight = listDel s.flight i
              ∧ u.mem = (s.wrWords (spillSlot f.dst k.aspill k.spillTail) (q''.rcd.word0 :: q''.rcd.word1 :: q''.rcd.xs.toList)).mem
              ∧ ∃ n ∈ (u.core f.dst).notices, n.evt = true ∧ n.code = cArrivalSpill)
          ∧ (k.spilled ≠ [] ∨ 48 ≤ k.aq.length → ¬ room k.aspill k.spilled.length → Happens (.recordArrival i) s s))
        ∧ (¬ later → s.tagOf q.rcd.region.toNat ≠ k.tag →
          ((∀ t ∈ s.tenants, home t → ¬ room t.aspill t.spilled.length) → Happens (.recordArrival i) s s)
          ∧ ((∃ t ∈ s.tenants, home t ∧ room t.aspill t.spilled.length) → ∃ u, exec (.recordArrival i) s = .next u
            ∧ u.flight = listDel s.flight i ∧ (u.core f.dst).aq = k.aq
            ∧ ∀ (j : Nat) (t : SavedTenant), s.tenants[j]? = some t →
              (home t → u.tenants[j]? = some { t with spilled := t.spilled ++ [q''], spillTail := t.spillTail + 1, late := t.late + 1 })
              ∧ (¬ home t → u.tenants[j]? = some t)))))
    ∧ (∀ c q rest, (s.core c).spilled = q :: rest →
      let k := s.core c
      let later : Prop := 48 ≤ k.aq.length ∨ k.freeze ≠ 0 ∨ k.refAt = some k.cycle
      (later → Happens (.spillRefill c) s s)
      ∧ (¬ later → Happens (.spillRefill c) s (s.modCore c (fun k => { k with
          spilled := rest, aq := k.aq ++ [{ q with rcd := { q.rcd with s := false } }], refAt := some k.cycle }))))
    ∧ (∀ c, (s.core c).freeze ≠ 0 ∨ (s.core c).dispAt = some (s.core c).cycle →
      Happens (.dispatch c) s s ∧ Happens (.frameRestoreDispatch c) s s)
    ∧ (∀ c i t q, (s.core c).freeze = 0 → (s.core c).dispAt ≠ some (s.core c).cycle → (∀ f ∈ (s.core c).frames, s.frameFits c f = false) → s.chooseRecord c = some i → (s.core c).aq[i]? = some q →
      0 < t → t < 16 → (s.ctx c t).mode = .idle → (∀ u, 0 < u → u < t → (s.ctx c u).mode ≠ .idle) →
      s.dispatchable c q = true
      ∧ (∀ (j : Nat) (r : Cont), (s.core c).aq[j]? = some r → s.dispatchable c r = true →
          (s.core c).cycle - q.entry < 65536 → (s.prio q.rcd.region.toNat).toNat ≤ (s.prio r.rcd.region.toNat).toNat)
      ∧ Happens (.dispatch c) s ((s.modCore c (fun k => { k with
          aq := listSet k.aq i { q with loading := some t }, dispAt := some k.cycle })).modCtx c t
          (fun k => { k with mode := .loading, region := q.rcd.region, tiles := 0 })))
    ∧ (∀ c t l₁ q l₂, (s.core c).aq = l₁ ++ q :: l₂ → (∀ r ∈ l₁, r.loading ≠ some t) → q.loading = some t →
      (s.ctx c t).mode = .loading → t < 16 →
      (s.acquireDone c q.pair.toList = false → Happens (.loadComplete c t) s s)
      ∧ (s.acquireDone c q.pair.toList = true → (s.ctx c t).reap = true → ∃ u, exec (.loadComplete c t) s = .next u
        ∧ (u.ctx c t).mode = .off ∧ (u.core c).aq = l₁ ++ { q with loading := none } :: l₂)
      ∧ (s.acquireDone c q.pair.toList = true → (s.ctx c t).reap = false → ∃ u, exec (.loadComplete c t) s = .next u
        ∧ (u.core c).aq = l₁ ++ l₂ ∧ (u.core c).rbuf = []
        ∧ (let x := u.ctx c t
          x.mode = .running ∧ x.pc = q.rcd.pc ∧ x.region = q.rcd.region ∧ x.p = q.rcd.p ++ 0#1 ∧ x.wake = q.wake
          ∧ (∀ j, 1 ≤ j → j ≤ 6 → x.x.toList[j]? = q.rcd.xs.toList[j - 1]?) ∧ (∀ j, 6 < j → j < 32 → x.x.toList[j]? = some 0)
          ∧ x.v = Vector.replicate 32 0 ∧ x.m = Vector.replicate 8 0xFFFF ∧ x.qv = 0 ∧ x.lc = 0 ∧ x.tiles = 0
          ∧ bit x.status 31 = (s.region q.rcd.region.toNat).rm)))
    ∧ (∀ cluster, (s.cluster cluster).dispAt = some (s.core (8 * cluster)).cycle → Happens (.dispenserPlace cluster) s s)
    ∧ (∀ cluster l₁ q l₂ c, (s.cluster cluster).dispAt ≠ some (s.core (8 * cluster)).cycle → (s.cluster cluster).disp = l₁ ++ q :: l₂ → (∀ r ∈ l₁, s.place cluster r = none) → s.place cluster q = some c →
      let q' : Cont := { q with toCluster := false, rcd := { q.rcd with hop := if q.rcd.hop = 255 then 255 else q.rcd.hop + 1 } }
      let u := s.modCluster cluster (fun k => { k with disp := l₁ ++ l₂, dispAt := some (s.core (8 * cluster)).cycle })
      c / 8 = cluster ∧ s.acceptsRegion c q.rcd.region.toNat = true ∧ (q.rcd.ext = true → hasFp64 c = true)
      ∧ (∀ v, u.arrive c q' = some v → Happens (.dispenserPlace cluster) s v)
      ∧ (u.arrive c q' = none → Happens (.dispenserPlace cluster) s (u.fly (dstCluster cluster) (dstCore c) (.cont q'))))
    ∧ (∀ c t, (s.ctx c t).migrating = true → (s.ctx c t).mode = .running →
      let k := s.ctx c t
      let f := s.writeFrame c t k.pc 0
      (k.hasPending = true → Happens (.extensionMigrate c t) s s)
      ∧ (∀ x, k.hasPending = false → s.extTarget c k.region.toNat = some x → (s.core x).frames.length < 8 →
        Happens (.extensionMigrate c t) s (f.moveFrame c t x))
      ∧ (k.hasPending = false → (∀ x, s.extTarget c k.region.toNat = some x → 8 ≤ (s.core x).frames.length) →
        Happens (.extensionMigrate c t) s
          (f.modCtx c t (fun k => { k with mode := .stopped, fbuf := .empty, freq := none }))))
    ∧ (∀ c t, (s.ctx c t).migrating = true → (s.ctx c t).mode = .stopped →
      (∀ x, s.frameTarget c (s.ctx c t).region.toNat = some x → ∃ u, exec (.frameMoveRetry c t) s = .next u
        ∧ (x ≠ c → t < 16 → (u.core x).frames = (s.core x).frames ++ [{
            words := s.rdWords (s.frameSlot c t (s.ctx c t).region.toNat) 144, region := (s.ctx c t).region }])
        ∧ ((u.ctx c t).mode = .idle ∨ (u.ctx c t).mode = .off))
      ∧ (s.frameTarget c (s.ctx c t).region.toNat = none → Happens (.frameMoveRetry c t) s s))
    ∧ (∀ c t l₁ f l₂, (s.core c).freeze = 0 → (s.core c).dispAt ≠ some (s.core c).cycle →
      (s.core c).frames = l₁ ++ f :: l₂ → (∀ g ∈ l₁, s.frameFits c g = false) → s.frameFits c f = true →
      s.idleCtx c = some t → Happens (.frameRestoreDispatch c) s
        (((s.modCore c (fun k => { k with frames := l₁ ++ l₂, dispAt := some k.cycle, rbuf := [] })).modCtx c t
          (fun k => { k with region := f.region, onExt := true, gen := k.gen + 1 })).restoreFrame c t f.words))

/-- R206 to R211, R242: deadlock, pre-emption, resumption and placement points. -/
def Obligations.PreemptionEvents : Prop :=
  ∀ s : State, s.shut = false →
    (∀ r t, (s.region r).idleSince = some t →
      let due : Prop := t + 38550 ≤ s.time ∧ (s.region r).deadRaised = false ∧ (s.region r).dead = false ∧ s.quiet r = true
      (¬ due → Happens (.deadlockDetect r) s s)
      ∧ (due → ∃ xs : List Word, xs.length = 6 ∧ xs.head? = some 0x16
        ∧ (∀ j ch, (s.waitingChans r)[j]? = some ch → j < 5 → xs[j + 1]? = some (BitVec.ofNat 64 ch))
        ∧ (∀ j, (s.waitingChans r).length ≤ j → j < 5 → xs[j + 1]? = some (~~~0#64))
        ∧ Happens (.deadlockDetect r) s
          ((s.launchHandler (s.pathUp s.depth r) xs).modRegion r (fun g => { g with deadRaised := true }))))
    ∧ (∀ c, c < 4096 →
      (∀ r rest, s.haltsDue c = r :: rest → Happens (.preemptArrive c) s
        (s.modCore c (fun k => { k with halted := k.halted ++ [(r, k.cycle)] })))
      ∧ (s.haltsDue c = [] → Happens (.preemptArrive c) s s)
      ∧ (∀ r, (s.region r).preempted = true → (s.regions.get? r).isSome = true → (∀ h ∈ (s.core c).halted, h.1 ≠ r) → r ∈ s.haltsDue c))
    ∧ (∀ c,
      let here := (s.regions.map (·.1)).filter (fun r => s.frozenOn c r && s.present c r
        && !s.saved.any (fun v => decide (v.core = c) && decide (v.region = r) && decide (v.phase = 0)))
      (∀ l₁ r l₂, here = l₁ ++ r :: l₂ → (∀ q ∈ l₁, s.drained c q = false) → s.drained c r = true →
        Happens (.preemptSave c) s (s.saveRegion c r)
        ∧ ∃ v, (s.saveRegion c r).saved = s.saved.filter (fun v => !(decide (v.core = c) && decide (v.region = r))) ++ [v] ∧ v.core = c ∧ v.region = r ∧ v.phase = 0
          ∧ ∀ q ∈ ((s.saveRegion c r).core c).aq, q.rcd.region.toNat ≠ r)
      ∧ (here = [] → s.canLeave c = true → Happens (.preemptSave c) s (s.leave c) ∧ ((s.leave c).core c).root = 0
          ∧ ((s.leave c).core c).mail = [] ∧ ((s.leave c).core c).aq = [])
      ∧ (here = [] → s.canLeave c = false → Happens (.preemptSave c) s s))
    ∧ (∀ c i t, findIdx (s.mayReturn c) s.tenants = some i → s.tenants[i]? = some t →
      Happens (.resumeRestore c) s (({ s with tenants := listDel s.tenants i } : State).comeBack c t t.root))
    ∧ (∀ c, findIdx (s.mayReturn c) s.tenants = none →
      let k := s.core c
      let may (v : Saved) : Prop := v.core = c ∧ s.tagOf v.region = k.tag ∧ s.haltedHere c v.region = false
      let back (q : List Cont) : List Cont := (q.take (48 - k.aq.length)).map (fun q => { q with rcd := { q.rcd with s := false } }) ++ k.aq
      let left (q : List Cont) : List Cont := q.drop (48 - k.aq.length)
      (∀ l₁ v l₂, s.saved = l₁ ++ v :: l₂ → (∀ w ∈ l₁, s.restoreStage c w = none) → may v →
        (v.phase = 0 → ∃ u, exec (.resumeRestore c) s = .next u ∧ (u.core c).aq = back v.queue ∧ (u.core c).rings = v.rings
          ∧ (u.core c).mat = v.mat ++ k.mat ∧ (u.core c).epi = v.epi ++ k.epi ∧ (u.core c).ctxs = k.ctxs
          ∧ u.saved = l₁ ++ { v with phase := 1, queue := left v.queue } :: l₂)
        ∧ (v.phase = 1 → v.queue ≠ [] → k.aq.length < 48 → Happens (.resumeRestore c) s
            ({ (s.modCore c (fun k => { k with aq := back v.queue })) with saved := l₁ ++ { v with queue := left v.queue } :: l₂ } : State))
        ∧ (v.phase = 1 → v.queue = [] → v.ctxs = [] → (∀ e ∈ k.epi, e.region.toNat = v.region → e.reserved = true) →
          Happens (.resumeRestore c) s { s with saved := l₁ ++ l₂ }))
      ∧ (s.saved = [] → (∃ h ∈ k.halted, s.haltStays c h = false) →
        Happens (.resumeRestore c) s (s.modCore c (fun k => { k with halted := k.halted.filter (s.haltStays c) }))))
    ∧ (∀ r chg,
      let g := s.region r
      let ready : Prop := g.pq ≠ 0 ∧ g.pq.toNat ≤ g.placed ∧ ∀ x ∈ chg, s.placeWaits r x = false
      (¬ ready → Happens (.placementApply r chg) s s)
      ∧ (ready → Happens (.placementApply r chg) s ((chg.foldl (fun u c => u.placeOne r c) s).endPlacement r)
        ∧ (chg = [] → ∃ u, exec (.placementApply r chg) s = .next u ∧ u.mem = s.mem
          ∧ ∀ q ∈ u.cores, ∀ w ∈ q.2.waits, w.cont.rcd.region.toNat = r → ∃ v ∈ s.cores, w ∈ v.2.waits ∧ w.cond ≠ .place)))

/-! ### Counters, copies and channels -/

/-- R222, R252, R261 to R270, R366, R367: counters with their triggers and waiters, timeouts, table loads that take effect, elements
of patterns that are read ahead. -/
def Obligations.CounterTableEvents : Prop :=
  ∀ s : State, s.shut = false →
    (∀ c n, (s.core c).freeze = 0 →
      let k := s.core c
      let x := k.ctr n
      let value (m : Nat) : BitVec 32 := if m = n then x.val + BitVec.ofNat 32 x.inc else (k.ctr m).val
      let ends (w : WaitEntry) : Prop := ∃ m v d, w.cond = .counter m v d ∧ (reached (value m) v = true ∨ ∃ t, d = some t ∧ t ≤ s.time)
      (k.ctrDue n = false → Happens (.counterCycleUpdate c n) s s)
      ∧ ((∀ i, i < 4 → bit (x.slot i) 63 = false) → x.arms = [] → x.inc ≠ 0 → x.last ≠ some k.cycle →
        ∃ u, exec (.counterCycleUpdate c n) s = .next u
        ∧ (u.core c).ctr n = { x with val := x.val + BitVec.ofNat 32 x.inc, inc := 0, last := some k.cycle }
        ∧ (∀ w ∈ (u.core c).waits, w ∈ k.waits)
        ∧ ((∃ m, m ≠ n ∧ k.ctrPending m = true) → (u.core c).waits = k.waits)
        ∧ ((∀ m, m ≠ n → k.ctrPending m = false) → (∀ w ∈ k.waits, w ∈ (u.core c).waits ∨ ends w)
          ∧ ∀ w ∈ (u.core c).waits, ¬ ends w)
        ∧ (∀ d, d ≠ c → u.core d = s.core d) ∧ u.mem = s.mem)
      ∧ (∀ y i w r, x.steps = (y, [(i, w, r)]) → x.inc ≠ 0 → x.last ≠ some k.cycle → k.acts = [] → k.waits = [] →
        let base := s.setCore c ((k.modCtr n (fun _ => { y with last := some k.cycle })).perfAdd 0x12 none)
        (bitsN w 61 2 = 3 → Happens (.counterCycleUpdate c n) s
          (base.raiseUser c (bitsN w 48 4) r.toNat (BitVec.ofNat 64 (n + 256 * i + 2 ^ 32 * y.val.toNat))))
        ∧ (bitsN w 61 2 = 1 → k.mail.length < 64 → ∃ u, exec (.counterCycleUpdate c n) s = .next u
          ∧ (u.core c).mail = k.mail ++ [{
              kind := 2, ctx := field w 57 4, core := BitVec.ofNat 12 c, tag := (field w 32 16 : BitVec 16).setWidth 32
              val := (field w 0 32 : BitVec 32) ++ y.val }])
        ∧ (bitsN w 61 2 = 1 → 64 ≤ k.mail.length → ∃ u, exec (.counterCycleUpdate c n) s = .next u ∧ (u.core c).mail = k.mail
          ∧ (u.core c).acts = [{ ctr := n, slot := i, word := w, newVal := y.val, region := r, cyc := 64 * k.cycle }])))
    ∧ (∀ c a l u, (s.core c).acts = a :: l → s.trigger c a ≠ none →
      (s.modCore c (fun k => { k with acts := l })).trigger c a = some u → Happens (.triggerActionResume c) s u)
    ∧ (∀ c l₁ w l₂, (s.core c).waits = l₁ ++ w :: l₂ → (s.core c).freeze = 0 → (∀ n, (s.core c).ctrPending n = false) →
      let k := s.core c
      let reaches (w : WaitEntry) : Prop := ∃ n v d, w.cond = .counter n v d ∧ reached (k.ctr n).val v = true
      let late (w : WaitEntry) : Prop := ∃ n v d, w.cond = .counter n v (some d) ∧ d ≤ s.time
      (¬ reaches w → ¬ late w → Happens (.waitcTimeout c l₁.length) s s)
      ∧ ((∀ x ∈ l₁ ++ l₂, ¬ reaches x ∧ ¬ late x) → ∀ b : Bool, (b = true ∧ reaches w ∨ b = false ∧ ¬ reaches w ∧ late w) →
        Happens (.waitcTimeout c l₁.length) s ((s.modCore c (fun k => { k with waits := l₁ ++ l₂ })).fly c c
          (.cont { w.cont with wake := .status b, toCluster := false }))))
    ∧ (∀ i f tag n (r : BitVec 24), s.flight[i]? = some f → f.body = .ack tag n r → s.flightReady i = true →
      (tag = 0x3F → Happens (.packetAcknowledge i) s (s.land i))
      ∧ (tag ≠ 0x3F → s.tagOf r.toNat = (s.core f.dst).tag → s.saved = [] → ∃ u, exec (.packetAcknowledge i) s = .next u
        ∧ ((u.core f.dst).ctr tag.toNat).inc = ((s.core f.dst).ctr tag.toNat).inc + n ∧ u.flight = listDel s.flight i))
    ∧ (∀ c t l₁ x l₂, (s.core c).tload = l₁ ++ x :: l₂ → (∀ y ∈ l₁, y.ctx ≠ t) → x.ctx = t →
      let k := s.core c
      let waits : Prop := s.tableHeld c x = true ∨ ∃ y ∈ l₁, y.table = x.table
      (waits → Happens (.tableLoadEffect c t) s s)
      ∧ (¬ waits → ∃ u, exec (.tableLoadEffect c t) s = .next u ∧ (u.core c).tload = l₁ ++ l₂
        ∧ (∀ d, x.dec = some d → (u.core c).dec = k.dec.set x.table d) ∧ (x.dec = none → (u.core c).dec = k.dec)
        ∧ (∀ l, x.cur = some l → (u.core c).cur = k.cur.set (x.table - 4) l) ∧ (x.cur = none → (u.core c).cur = k.cur)
        ∧ ((s.ctx c t).gen = x.gen → (u.ctx c t).loaded = (s.ctx c t).loaded
            ++ [{ table := x.table, dec := k.dec.get? x.table, cur := k.cur.get? (x.table - 4) }])
        ∧ (∀ d, d ≠ c → u.core d = s.core d) ∧ u.mem = s.mem))
    ∧ (∀ c t r x, 24 ≤ r → r < 32 →
      let k := s.ctx c t
      let got := k.ahead.getD r []
      let desc := s.patDesc c t r
      let p := bindPos (k.rb (r - 24)) + got.length
      k.mode = .running → k.stop = none → k.bindKind r = 3 →
      let before (f : Flight) : Prop := f.ofThread c t = true ∧ f.gen = k.gen ∧ 0 < f.bun ∧ f.bun ≤ k.patAt.getD r 0
      (4 ≤ got.length ∨ patTotal desc ≤ p ∨ (∃ f ∈ s.flight, before f) → Happens (.patternReadahead c t r) s s)
      ∧ (got.length < 4 → p < patTotal desc → (∀ f ∈ s.flight, ¬ before f) → translateEngine s c k.prv .load (patAddr desc p).toNat = .ok x → s.serves x.pa = true →
        s.unitBusy c x.pa = false → s.ownHit c (leafL x.leaf) [lineOf x.pa] = none → s.ecc = [] →
        (s.poisoned x.pa 16 = none → Happens (.patternReadahead c t r) s (s.modCtx c t (fun k =>
          { k with ahead := k.ahead.set r (got ++ [BitVec.ofNat 128 (ofBytes (s.readPhys c x.pa 16))]) })))
        ∧ (s.poisoned x.pa 16 ≠ none → Happens (.patternReadahead c t r) s s)))

/-- R121, R130, R264, R265, R399 to R403: the packets of a copy land, its end and its completion objects, cancellation and
timeout. -/
def Obligations.CopyEvents : Prop :=
  ∀ (s : State) (c i : Nat) (x : Copy), s.shut = false → (s.core c).copies[i]? = some x →
    (∀ p,
      let src := s.enginePieces c x.ctx .load (x.srcOf p) (x.size p) x.tlbs
      let dst := s.enginePieces c x.ctx .store (x.dstOf p) (x.size p) x.tlbs
      let failed (st : BitVec 8) : Copy := { x with
        stat := if x.stat = 0 then st else x.stat, dropped := (List.range x.total).filter (fun q => !x.landed.contains q && !x.isHeld q) }
      (x.requested = false ∨ x.total ≤ p ∨ x.settled p = true → Happens (.copyPacketLand c i p) s s)
      ∧ (x.requested = true → p < x.total → x.settled p = false → x.isHeld p = false → s.ecc = [] →
        s.walked c x.tlbs (x.srcOf p) (x.size p) = some s →
        (∀ st, src = .error st → Happens (.copyPacketLand c i p) s (s.setCopy c i (failed st)))
        ∧ (∀ a n, src = .ok [(a, n)] → s.serves a.pa = true → kindOf a.pa ≤ 1 → s.streams (streamerAt a.pa) = true →
          (s.poisoned a.pa n = none → Happens (.copyPacketLand c i p) s (s.setCopy c i { x with
            tlbs := s.keeps c x.tlbs (x.srcOf p) (x.size p), held := (p, Mem.bytes s.mem a.pa n) :: x.held }))
          ∧ (∀ l, s.poisoned a.pa n = some l → Happens (.copyPacketLand c i p) s
            (s.setCopy c i { (failed stPoison) with tlbs := s.keeps c x.tlbs (x.srcOf p) (x.size p) })))
        ∧ (∀ l, src = .ok l → (∃ a ∈ l, s.serves a.1.pa = false ∨ s.streams (streamerAt a.1.pa) = false) →
          Happens (.copyPacketLand c i p) s s))
      ∧ (∀ l₁ bs l₂, x.requested = true → p < x.total → x.settled p = false → x.held = l₁ ++ (p, bs) :: l₂ → (∀ h ∈ l₁ ++ l₂, h.1 ≠ p) →
        (∀ b n, x.ring = none → dst = .ok [(b, n)] → n = bs.length → s.ecc = [] → s.walked c x.tlbs (x.dstOf p) (x.size p) = some s →
          s.serves b.pa = true → leafL b.leaf = false → kindOf b.pa ≤ 1 → Memory.wf s.mem = true →
          ∃ u, exec (.copyPacketLand c i p) s = .next u
            ∧ (u.core c).copies[i]? = some { x with
                landed := p :: x.landed, held := l₁ ++ l₂, tlbs := s.keeps c x.tlbs (x.dstOf p) (x.size p) }
            ∧ ∀ j, Mem.read u.mem j = if b.pa ≤ j ∧ j < b.pa + n then bs.getD (j - b.pa) 0 else Mem.read s.mem j)
        ∧ (∀ st, x.ring = none → dst = .error st → s.ecc = [] → s.walked c x.tlbs (x.dstOf p) (x.size p) = some s →
          Happens (.copyPacketLand c i p) s (s.setCopy c i (failed st)))
        ∧ (∀ l, x.ring = none → dst = .ok l → (∃ b ∈ l, leafL b.1.leaf = true) → (∃ q ∈ x.before p, x.settled q = false) →
          Happens (.copyPacketLand c i p) s s)
        ∧ (∀ r, x.ring = some r →
          let g := (s.core c).ring r
          Happens (.copyPacketLand c i p) s ((((s.wrBytes (g.addr c (x.entry.getD 0) + x.off p) bs).modCore c
            (fun k => k.modRing r (fun g => g.wrote (x.entry.getD 0) bs.length))).setCopy c i { x with
              landed := p :: x.landed, held := l₁ ++ l₂ }).bump c x.tag 1 x.region.toNat))))
    ∧ ((∃ p, p < x.total ∧ x.settled p = false ∧ x.isHeld p = false) → Happens (.copyEnd c i) s s)
    ∧ (x.requested = true → x.held = [] → (∀ p, p < x.total → x.settled p = true) →
      let n := x.landed.length
      let m : Msg :=
        { kind := 1, ctx := BitVec.ofNat 4 x.ctx, core := BitVec.ofNat 12 c, tag := x.opn.setWidth 32
          val := BitVec.ofNat 64 (x.stat.toNat * 2 ^ 56 + n) }
      let rest (u : State) : State :=
        (if x.cq = 0 then u else u.postRecord c x.region.toNat 1 x.stat x.opn.toNat n 0 (x.cq.toNat - 1) c x.ctx).modCore c
          (fun k => { k with copies := listDel k.copies i })
      (x.mb = false → x.stat = 0 → Happens (.copyEnd c i) s (rest s))
      ∧ (x.mb = true ∨ x.stat ≠ 0 →
        ((s.core c).mail.length < 64 → Happens (.copyEnd c i) s (rest (s.enterMail c m)))
        ∧ (64 ≤ (s.core c).mail.length → Happens (.copyEnd c i) s s)))
    ∧ (∀ pkts,
      (x.cancelling = none → Happens (.copyCancelArrive c i pkts) s s)
      ∧ (∀ st, x.cancelling = some st → ∃ gone : List Nat,
        (∀ p, p ∈ gone ↔ p < x.total ∧ x.settled p = false ∧ x.isHeld p = false ∧ p ∉ pkts)
        ∧ Happens (.copyCancelArrive c i pkts) s (s.setCopy c i { x with
            cancelling := none, dropped := gone ++ x.dropped, stat := if gone = [] ∨ x.stat ≠ 0 then x.stat else st })))
    ∧ (∀ d, x.deadline = some d → (s.core c).freeze = 0 →
      (s.time < d → Happens (.copyTimeout c i) s s)
      ∧ (d ≤ s.time → x.cancelling = none → Happens (.copyTimeout c i) s (s.setCopy c i { x with deadline := none, cancelling := some 5 }))
      ∧ (∀ st, d ≤ s.time → x.cancelling = some st → Happens (.copyTimeout c i) s (s.setCopy c i { x with deadline := none })))

/-- R59, R213 to R222, R227, R228, R264, R395, R404 to R408, R424, R456: what leaves the command queue, channel elements and credits,
receives, tree reduction, broadcasts, mailbox messages and completion records. -/
def Obligations.ChannelEvents : Prop :=
  ∀ s : State, s.shut = false →
    (∀ c q rest, (s.core c).cmdq = q :: rest → s.gatesOpen c = true →
      let u := s.modCore c (fun k => { k with cmdq := rest })
      (∀ r n, q = .rcd r n → Happens (.sendEngineInject c) s (u.fly c (if r.toCluster then dstCluster n else dstCore n) (.cont r)))
      ∧ (∀ m n t g tag, q = .post m n t g tag → Happens (.sendEngineInject c) s (u.fly c (dstCore n) (.mail m (some t) g tag)))
      ∧ (∀ id l₁ x l₂, q = .copy id → (s.core c).copies = l₁ ++ x :: l₂ → (∀ y ∈ l₁, y.id ≠ id) → x.id = id → x.ring = none →
        Happens (.sendEngineInject c) s (u.modCore c (fun k => { k with copies := l₁ ++ { x with requested := true } :: l₂ })))
      ∧ (∀ key i src ltag itag t r tlbs ch p, q = .send key i src true false ltag itag t r tlbs → s.chans.get? key = some ch → ch.eps[i]? = some p →
        ∃ v, Happens (.sendEngineInject c) s v ∧ v.flight = s.flight ++ [{
          src := c, dst := dstChan key i, body := .elem key i [] true ltag itag 1 p.sent }] ∧ v.mem = s.mem)
      ∧ (∀ key i src bcast ltag itag t r tlbs ch w st, q = .send key i src false bcast ltag itag t r tlbs → s.chans.get? key = some ch →
        u.walked c tlbs src.toNat ch.shape = some w → w.enginePieces c t .load src.toNat ch.shape tlbs = .error st →
        Happens (.sendEngineInject c) s (w.sendFails c key i r.toNat bcast st t))
      ∧ (∀ key i src ltag itag t r tlbs ch p w l v bs, q = .send key i src false false ltag itag t r tlbs → s.chans.get? key = some ch →
        ch.eps[i]? = some p → ch.ef4 = false → u.walked c tlbs src.toNat ch.shape = some w →
        w.enginePieces c t .load src.toNat ch.shape tlbs = .ok l → w.servesAll l = true →
        w.engineRead c l = (v, .ok bs) → Happens (.sendEngineInject c) s
          ((v.modChan key (fun ch => ch.modEp i (fun p => { p with sent := p.sent + 1 }))).fly c (dstChan key i)
            (.elem key i bs false ltag itag ((bs.length + 255) / 256) p.sent))))
    ∧ (∀ i f key ep bs token ltag itag n k, s.flight[i]? = some f → f.body = .elem key ep bs token ltag itag n k →
      (s.chans.get? key = none → Happens (.channelElementLand i) s (s.land i))
      ∧ (∀ ch, s.chans.get? key = some ch → s.flightReady i = true → ch.rpkg = s.pkg.toNat → s.serves (sliceAddr ch.rcore 0) = true →
        let u := (s.land i).acknowledge ch.rcore f.src itag n (key / 4096)
        let w := u.bump ch.rcore ltag n (key / 4096)
        (ch.live = false → Happens (.channelElementLand i) s u)
        ∧ (ch.live = true → token = true → ch.kind = 2 → ch.whole = true → Happens (.channelElementLand i) s s)
        ∧ (ch.live = true → token = true → ch.kind = 1 ∨ (ch.kind = 2 ∧ ch.whole = false) → ch.tokens + 1 < ch.eps.length → Happens (.channelElementLand i) s
            ((w.modChan key (fun ch => { ch with tokens := ch.tokens + 1 })).fly ch.rcore (dstChan key ep) (.credit key ep)))
        ∧ (ch.live = true → token = false → ch.kind = 2 → ∃ id, Happens (.channelElementLand i) s (u.modChan key (fun ch => { ch with
            parts := ch.parts ++ [{ set := k, node := ep, own := true, data := bs, ids := [id], tags := [(ltag, n)] }] })))
        ∧ (∀ slot, ch.live = true → token = false → ch.kind ≠ 2 → ch.freeSlot = some slot → s.ecc = [] → s.poison = [] → ch.cqe = false →
          let x : Elem := { src := if ch.kind = 1 then ep else 0, token := false, slot := slot, reserved := ch.rwaiter.isSome }
          let v := (w.wrBytes (ch.slotAddr slot) bs).modChan key (fun ch => { ch with
            elems := ch.elems ++ [x], used := slot :: ch.used, rwaiter := none })
          (ch.rwaiter = none → Happens (.channelElementLand i) s v)
          ∧ (∀ y, ch.rwaiter = some y → Happens (.channelElementLand i) s (v.wake y.core y.cont (.element y.a slot))))))
    ∧ (∀ i f key ep ch p, s.flight[i]? = some f → f.body = .credit key ep → s.flightReady i = true → s.chans.get? key = some ch →
      ch.eps[ep]? = some p →
      (p.waiter = none → Happens (.creditReturn i) s
        ((s.land i).modChan key (fun ch => ch.modEp ep (fun p => { p with credit := p.credit + 1 }))))
      ∧ (∀ w, p.waiter = some w → Happens (.creditReturn i) s
        (((s.land i).modChan key (fun ch => ch.modEp ep (fun p => { p with
          credit := p.credit + 1, reserved := p.reserved + 1, waiter := none }))).wake w.core w.cont (.credit w.a w.d))))
    ∧ (∀ i f t reg key x dst k ch, s.flight[i]? = some f → f.body = .recv t reg key x dst k → s.chans.get? key = some ch →
      s.flightReady i = true → s.serves (sliceAddr ch.rcore 0) = true → s.ecc = [] → s.poison = [] →
      let value : Vec := (BitVec.ofNat 64 ((if x.token then 2 ^ 63 else 0) + (if ch.kind = 1 then x.src else 0) * 2 ^ 32 + k.toNat)).setWidth 128
      let d := f.dest t false reg none
      (dst = none → Happens (.recvCopyComplete i) s (((s.land i).deliver d value none).freeElem key x))
      ∧ (∀ q, dst = some q → Happens (.recvCopyComplete i) s
          ((((s.land i).wrPieces q (Mem.bytes s.mem (ch.slotAddr x.slot) ch.shape)).deliver d value none).freeElem key x)))
    ∧ (∀ region chn node ch k part rest,
      let key := chanKey region chn
      let tree := s.treeOf ch
      s.chans.get? key = some ch → (∃ q ∈ ch.parts, q.set = k) → ch.inputs tree node k = some (part :: rest) →
      (∀ j l, (∃ q ∈ ch.parts, q.set = j) → ch.inputs tree node j = some l → l ≠ [] → k ≤ j) →
      let sum := rest.foldl (TreePart.join ch.op ch.fmt) part
      let left := ch.parts.filter (fun q => !(q.set == k && ((q.node == node && q.own) || (!q.own && (tree.getD node []).contains q.node))))
      sum.ids = ((part :: rest).map (·.ids)).flatten
      ∧ (node + 1 < tree.length → ∃ u, Happens (.treeNodeCombine region chn node) s u ∧ u.mem = s.mem ∧ u.flight = s.flight
        ∧ u.chans.get? key = some { ch with parts := left ++ [{ sum with node := node, own := false }] })
      ∧ (∀ slot, tree.length ≤ node + 1 → s.serves (sliceAddr ch.rcore 0) = true → ch.live = true → ch.freeSlot = some slot → s.ecc = [] → s.poison = [] →
        (∀ p ∈ sum.tags, p.1 = 0x3F) → ch.cqe = false → ch.rwaiter = none →
        ∃ u, Happens (.treeNodeCombine region chn node) s u ∧ u.mem = (s.wrBytes (ch.slotAddr slot) sum.data).mem
          ∧ u.chans.get? key = some { ch with
              parts := left, elems := ch.elems ++ [{ src := 0, token := false, slot := slot }], used := slot :: ch.used }))
    ∧ (∀ i f key j bs ltag n ch p, s.flight[i]? = some f → f.body = .bcast key j bs ltag 0x3F n → s.chans.get? key = some ch →
      ch.eps[j]? = some p → s.flightReady i = true → p.pkg = s.pkg.toNat → s.serves (sliceAddr p.core 0) = true →
      ∃ u, Happens (.broadcastLand i) s u ∧ u.flight = listDel s.flight i ∧ u.mem = (s.wrBytes (sliceAddr p.core p.efb) bs).mem
        ∧ u.chans.get? key = some { ch with bcastLeft := ch.bcastLeft - 1, bcast := decide (ch.bcastLeft ≤ 1) })
    ∧ (∀ i f m t r tag, s.flight[i]? = some f → f.body = .mail m t r tag → s.flightReady i = true →
      let k := s.core f.dst
      let hits (w : WaitEntry) : Prop := ∃ tag mask, w.cond = .mail tag mask ∧ m.tag &&& mask = tag &&& mask
      let home (x : SavedTenant) : Prop := x.core = f.dst ∧ x.tag = tag
      (k.mailAt = some k.cycle → Happens (.mailboxArrive i) s s)
      ∧ (k.mailAt ≠ some k.cycle → k.tag = tag →
        (64 ≤ k.mail.length → Happens (.mailboxArrive i) s s)
        ∧ (k.mail.length < 64 → (∀ w ∈ k.waits, ¬ hits w) →
          Happens (.mailboxArrive i) s ((s.land i).setCore f.dst { k with mail := k.mail ++ [m], mailAt := some k.cycle }))
        ∧ (∀ l₁ w l₂, k.mail.length < 64 → k.waits = l₁ ++ w :: l₂ → hits w → (∀ v ∈ l₁, ¬ hits v) → Happens (.mailboxArrive i) s
            (((s.land i).setCore f.dst { k with waits := l₁ ++ l₂, mailAt := some k.cycle }).wake f.dst w.cont (.message m.val))))
      ∧ (k.mailAt ≠ some k.cycle → k.tag ≠ tag →
        ((∀ x ∈ s.tenants, home x → 64 ≤ x.mail.length) → Happens (.mailboxArrive i) s s)
        ∧ ((∃ x ∈ s.tenants, home x ∧ x.mail.length < 64) → ∃ u, exec (.mailboxArrive i) s = .next u ∧ u.flight = listDel s.flight i
          ∧ ∀ (j : Nat) (x : SavedTenant), s.tenants[j]? = some x → (home x → u.tenants[j]? = some { x with mail := x.mail ++ [m] })
            ∧ (¬ home x → u.tenants[j]? = some x))))
    ∧ (∀ i f r w0 w1 w2 w3 note core ctx, s.flight[i]? = some f → f.body = .record r w0 w1 w2 w3 note core ctx →
      (∀ g ∈ s.flight.take i, g.dst ≠ f.dst) →
      (r = 2 ^ 24 →
        (s.hostq = none → Happens (.completionRecordPost i) s (s.land i))
        ∧ (∀ q, s.hostq = some q →
          ((s.rd64 q.base).toNat + 2 ^ q.n ≤ q.tail + 1 → Happens (.completionRecordPost i) s s)
          ∧ (q.tail + 1 < (s.rd64 q.base).toNat + 2 ^ q.n → Happens (.completionRecordPost i) s
            { ((s.land i).putRecord q.base q.n q.tail w0 w1 w2 w3) with hostq := some { q with tail := q.tail + 1 } })))
      ∧ (r ≠ 2 ^ 24 →
        let g := s.region r
        let n := g.cqn.toNat
        let phase : Word := if g.cqTail / 2 ^ n % 2 = 0 then 1#64 <<< 63 else 0
        (g.cq = 0 → Happens (.completionRecordPost i) s (s.land i))
        ∧ (∀ code, g.cq ≠ 0 → s.regionXl r g.cq.toNat = .error code → Happens (.completionRecordPost i) s ((s.land i).regionFault r code))
        ∧ (∀ cb slot, g.cq ≠ 0 → s.regionXl r g.cq.toNat = .ok cb → s.regionXl r (g.cq.toNat + 32 + 32 * (g.cqTail % 2 ^ n)) = .ok slot →
          ((s.rd64 cb.pa).toNat + 2 ^ n ≤ g.cqTail + 1 → Happens (.completionRecordPost i) s s)
          ∧ (g.cqTail + 1 < (s.rd64 cb.pa).toNat + 2 ^ n →
            let u := (((s.land i).wrWords slot.pa [w0 ||| phase, w1, w2, w3]).wr64 (cb.pa + 8) (BitVec.ofNat 64 (g.cqTail + 1))).modRegion r
              (fun g => { g with cqTail := g.cqTail + 1 })
            (note ≠ 1 → note ≠ 2 → Happens (.completionRecordPost i) s u)
            ∧ (note = 2 → Happens (.completionRecordPost i) s { u with msix := u.msix ++ [(g.tag, g.msix)] })))))

/-! ### Routing, the matrix unit and pairing -/

/-- R226, R237 to R241, R273, R409 to R413: routing jobs, permits and reservoirs, rows and bins, closing counts. -/
def Obligations.RouterEvents : Prop :=
  (∀ sc : List (BitVec 32), (rankExperts sc).Perm (List.range sc.length)
    ∧ (rankExperts sc).Pairwise (fun e f => scoreKey (sc.getD f 0) < scoreKey (sc.getD e 0)
        ∨ (scoreKey (sc.getD f 0) = scoreKey (sc.getD e 0) ∧ e < f)))
  ∧ ∀ s : State, s.shut = false →
    (∀ k j rest, (s.cluster k).routes = j :: rest →
      (j.close = false → j.started = false → s.gatesOpen j.core = true → ∀ v jv u ju, s.readEnts j j.nexp 0 = some (v, jv) →
        v.readScores jv j.ntok 0 = some (u, ju) →
        let ranks := ju.scoreBits.map rankExperts
        let job : Job := { ju with started := true, ranks := ranks }
        Happens (.routeJobStart k) s ((u.setJob k { job with choices := job.choose ranks }).runRounds k 8))
      ∧ (j.close = true ∨ j.started = true ∨ s.gatesOpen j.core = false → Happens (.routeJobStart k) s s)
      ∧ (j.close = false → j.started = true → j.done = true → j.rowsOut = 0 → ∀ u st, s.writeRecords j j.ntok 0 = some (u, st) →
        let granted := (j.choices.filter (fun c => c.st == 1)).length
        let dropped := (j.choices.filter (fun c => c.st == 2)).length
        let v := u.modCluster k (fun c => { c with routes := rest })
        let w := v.bump j.core j.cnt 1 j.region.toNat
        (st ≠ 0 → Happens (.routeJobEnd k) s (v.postRecord j.core j.region.toNat 8 st j.layer granted 0 0 j.core j.ctx))
        ∧ (st = 0 → j.cqr = false → Happens (.routeJobEnd k) s w)
        ∧ (st = 0 → j.cqr = true → Happens (.routeJobEnd k) s
            (w.postRecord j.core j.region.toNat 6 0 j.layer (dropped * 2 ^ 16 + granted) 0 0 j.core j.ctx)))
      ∧ (j.close = true ∨ j.started = false ∨ j.done = false ∨ j.rowsOut ≠ 0 → Happens (.routeJobEnd k) s s)
      ∧ (j.close = false ∨ s.gatesOpen j.core = false → Happens (.rcloseRun k) s s)
      ∧ (j.close = true → s.gatesOpen j.core = true → ∀ u ju r,
        s.jobRead j ((s.region j.region.toNat).expd.toNat + 32 * j.layer) 32 = some (u, ju, r) →
        let v := u.modCluster k (fun c => { c with routes := rest })
        (∀ st, r = .error st → Happens (.rcloseRun k) s (v.postRecord j.core j.region.toNat 8 st j.layer 0 0 0 j.core j.ctx))
        ∧ (∀ bs w jw, r = .ok bs → u.readEnts { ju with base := (DirEnt.ofWords (wordsOf bs)).base } (DirEnt.ofWords (wordsOf bs)).nexp 0 = some (w, jw) →
          ∃ x, Happens (.rcloseRun k) s x ∧ (x.cluster k).routes = rest
            ∧ x.flight = w.flight ++ (List.range (DirEnt.ofWords (wordsOf bs)).nexp).filterMap (fun e =>
              match w.jobEnt jw e with
              | .error _ => none
              | .ok y => some {
                  src := dstCluster k, dst := dstOwner y.pkg (resvKey jw.region.toNat jw.layer e jw.half)
                  body := .closing (chanKey jw.region.toNat y.binch) jw.half (w.pkg.toNat * 512 + k)
                    ((w.cluster k).grants.getD (grantKey jw.region.toNat jw.layer jw.half e) 0) false jw.layer e })
            ∧ ∀ e y, e < (DirEnt.ofWords (wordsOf bs)).nexp → w.jobEnt jw e = .ok y →
              (x.cluster k).grants.get? (grantKey jw.region.toNat jw.layer jw.half e) = none)))
    ∧ (∀ i f p, s.flight[i]? = some f → f.body = .permit p → s.flightReady i = true → f.dst = dstOwner s.pkg.toNat p.key →
      let come := (s.ownerCluster p).bind (fun k => (s.portNow f.src k).map (fun q => (k, q)))
      ((∃ a, come = some a ∧ portFollows (s.cluster a.1).permAt a.2 = false) → Happens (.permitRequestArrive i) s s)
      ∧ ((∀ a, come = some a → portFollows (s.cluster a.1).permAt a.2 = true) →
        let u := (match come with | some a => s.modCluster a.1 (fun k => { k with permAt := some a.2 }) | none => s).land i
        ((∃ q ∈ s.permits, q.key = p.key) → Happens (.permitRequestArrive i) s { u with permits := s.permits ++ [p] })
        ∧ ((∀ q ∈ s.permits, q.key ≠ p.key) →
          (u.servePermit p = none → Happens (.permitRequestArrive i) s { u with permits := s.permits ++ [p] })
          ∧ (∀ d r, u.ownerDir p.region p.layer = some d → s.resvs.get? p.key = some r → u.ownerWaits p r.entry.binch = false →
            (r.ord = false → r.left ≠ 0 → ∃ v, Happens (.permitRequestArrive i) s v
              ∧ v.resvs.get? p.key = some { r with left := r.left - 1 }
              ∧ v.flight = u.flight ++ [{ src := dstRouter s.pkg.toNat 512, dst := dstRouter p.pkg p.cluster
                                          body := .answer p true (r.entry.cap - r.left) ((r.entry.cap - r.left) % (r.entry.nrep + 1)) }])
            ∧ (r.ord = false → r.left = 0 → Happens (.permitRequestArrive i) s (u.refusePermit p r))
            ∧ (r.ord = true → (p.pkg, p.cluster) ∈ r.srcs →
              Happens (.permitRequestArrive i) s { u with resvs := u.resvs.set p.key { r with asks := r.asks ++ [p] } })
            ∧ (r.ord = true → (p.pkg, p.cluster) ∉ r.srcs → Happens (.permitRequestArrive i) s (u.refusePermit p r)))
          ∧ (∀ d w, u.ownerDir p.region p.layer = some d → s.resvs.get? p.key = none → u.regionWords p.region (d.entryVa p.expert) 4 = some w →
            let x := ExpEnt.ofWords w
            u.ownerWaits p x.binch = false → x.clus < 512 →
            ((u.cluster x.clus).freeResv = 0 → Happens (.permitRequestArrive i) s { u with permits := s.permits ++ [p] })
            ∧ ((u.cluster x.clus).freeResv ≠ 0 → d.ord = false → x.cap ≠ 0 → ∃ v, Happens (.permitRequestArrive i) s v
              ∧ (v.cluster x.clus).freeResv = (u.cluster x.clus).freeResv - 1
              ∧ v.resvs.get? p.key = some { ent := w, left := x.cap - 1, srcs := u.ownerSrcs p.region d, ord := false, cluster := x.clus }
              ∧ v.flight = u.flight ++ [{ src := dstRouter s.pkg.toNat 512, dst := dstRouter p.pkg p.cluster
                                          body := .answer p true 0 0 }])))))
    ∧ (∀ j p u, s.permits[j]? = some p → (∀ q ∈ s.permits.take j, q.key ≠ p.key) →
      ({ s with permits := listDel s.permits j } : State).servePermit p = some u → Happens (.permitRequestArrive (s.flight.length + j)) s u)
    ∧ (∀ i f region layer expert half round source d x n,
      s.flight[i]? = some f → f.body = .roundClose region layer expert half round source → s.flightReady i = true →
      let key := resvKey region layer expert half
      let p : Permit := { region := region, layer := layer, expert := expert, half := half, round := round, pkg := source / 512
                          cluster := source % 512, tok := 0, j := 0 }
      f.dst = dstOwner s.pkg.toNat key → (∀ q ∈ s.permits, q.key ≠ key) → s.ownerDir region layer = some d →
      s.ownerEnt region d layer expert half = some x →
      (s.ownerWaits p x.binch = true → Happens (.roundCloseArrive i) s s)
      ∧ (s.ownerWaits p x.binch = false →
        let srcs := match s.resvs.get? key with | some r => r.srcs | none => s.ownerSrcs region d
        let q := s.rounds.getD key (0, [])
        findIdx (fun q => q == (p.pkg, p.cluster)) srcs = some n → Happens (.roundCloseArrive i) s
          (({ (s.land i) with rounds := s.rounds.set key (q.1, (4 * n + round) :: q.2) } : State).grantRounds key srcs.length 4)))
    ∧ (∀ i f p granted slot copy j rest l₁ c l₂, s.flight[i]? = some f → f.body = .answer p granted slot copy → s.flightReady i = true →
      let k := p.cluster
      f.dst = dstRouter s.pkg.toNat k → (s.cluster k).routes = j :: rest → j.choices = l₁ ++ c :: l₂ →
      let mine (c : Choice) : Bool := c.asked && j.tokb + c.tok == p.tok && c.j == p.j && c.exp == p.expert
      (∀ d ∈ l₁, mine d = false) → mine c = true → ((l₁ ++ l₂).any (·.asked)) = true →
      (granted = false → Happens (.permitAnswer i) s
        ((s.land i).setJob k { j with choices := l₁ ++ { c with asked := false, refused := true } :: l₂ }))
      ∧ (granted = true →
        let c' := { c with st := 1, asked := false, slot := slot, copy := copy, round := if j.ord then j.round else c.reroutes }
        let gk := grantKey p.region p.layer p.half p.expert
        ∀ u j', (s.land i).sendRow k { j with choices := l₁ ++ c' :: l₂ } c' = some (u, j') →
          Happens (.permitAnswer i) s
            ((u.modCluster k (fun q => { q with grants := q.grants.set gk (q.grants.getD gk 0 + 1) })).setJob k j')))
    ∧ (∀ i f key h slot data cluster packets layer expert ch, s.flight[i]? = some f → f.body = .row key h slot data cluster packets layer expert →
      s.flightReady i = true → f.dst = dstBin s.pkg.toNat key → s.chans.get? key = some ch → s.serves (sliceAddr ch.rcore 0) = true →
      let half := ch.half h
      let u := (s.land i).modCluster cluster (fun k => { k with routes := match k.routes with
        | j :: l => { j with rowsOut := j.rowsOut - 1 } :: l
        | [] => [] })
      let bin : Prop := ch.kind = 3 ∧ ch.layer = layer ∧ ch.expert = expert
      let out : Prop := ¬ bin ∨ ch.live = false ∨ ch.depth / 2 ≤ slot ∨ (half.st = 2 ∧ half.size ≤ slot)
      (out → Happens (.binRowLand i) s (u.postRecord ch.rcore (key / 4096) 8 6 (key % 4096) slot 0 0 0 0))
      ∧ (¬ out → s.ecc = [] → s.poison = [] →
        let v := (u.wrBytes (ch.slotAddr (h * (ch.depth / 2) + slot)) data).modChan key (fun ch => ch.modHalf h (fun x =>
          { x with st := if x.st = 0 then 1 else x.st, landed := slot :: x.landed.filter (· != slot) }))
        Happens (.binRowLand i) s (v.bump ch.rcore ch.cntr packets (key / 4096))))
    ∧ (∀ i f key h source count replica layer expert ch, s.flight[i]? = some f → f.body = .closing key h source count replica layer expert →
      s.flightReady i = true → s.chans.get? key = some ch → (s.core ch.rcore).tag = (s.region (key / 4096)).tag →
      let half := ch.half h
      let u := s.land i
      let bin : Prop := ch.kind = 3 ∧ ch.layer = layer ∧ ch.expert = expert
      (replica = true → f.dst = dstBin s.pkg.toNat key →
        (bin → half.st ≠ 2 → u.isReplica key ch h = true → Happens (.closingCountArrive i) s (u.closeHalf key h count))
        ∧ (¬ bin ∨ half.st = 2 ∨ u.isReplica key ch h = false → Happens (.closingCountArrive i) s (u.binDiscard key count)))
      ∧ (∀ d x n, replica = false → (∃ q, q < 2 ^ 48 ∧ f.dst = dstOwner s.pkg.toNat q) → bin → half.st ≠ 2 →
        u.isReplica key ch h = false → u.ownerDir (key / 4096) layer = some d → u.ownerEnt (key / 4096) d layer expert h = some x →
        findIdx (fun q => q == (source / 512, source % 512)) (u.ownerSrcs (key / 4096) d) = some n →
        (half.counts.get? n ≠ none → Happens (.closingCountArrive i) s (u.binDiscard key count))
        ∧ (half.counts.get? n = none →
          let counts := half.counts.set n count
          let v := u.modChan key (fun ch => ch.modHalf h (fun y => { y with st := 1, counts := counts }))
          (counts.length ≠ d.nsrc → Happens (.closingCountArrive i) s v)
          ∧ (counts.length = d.nsrc → Happens (.closingCountArrive i) s (v.closePrimary key h ch d x counts)))))

/-- R57, R223 to R225, R370 to R373, R380 to R392: steps of the matrix unit, grouped operations, epilogues and tile loads. -/
def Obligations.MatrixEvents : Prop :=
  ∀ (s : State) (c : Nat), s.shut = false →
    let k := s.core c
    (4096 ≤ c ∨ k.run ≠ none ∨ k.freeze ≠ 0 ∨ s.gatesOpen c = false → Happens (.matrixStepStart c) s s)
    ∧ (∀ o n0, c < 4096 → k.run = none → k.freeze = 0 → s.gatesOpen c = true → s.chooseStep c = some (o, n0) →
      let u := s.modCore c (fun k => { k with n0 := n0 })
      (∀ v code tval, u.fetchStep c o = .fault v code tval → Happens (.matrixStepStart c) s (v.matFault c o code tval))
      ∧ (∀ v st, u.fetchStep c o = .fail v st →
        Happens (.matrixStepStart c) s ((v.endGroup c o).postRecord c o.region.toNat 8 st o.tile o.stored 0 0 c o.ctx))
      ∧ (∀ v i, u.fetchStep c o = .ok v i → k.arrErr = [] → ∃ w, Happens (.matrixStepStart c) s w
        ∧ (w.core c).run = some { op := o.id, left := 16
                                  result := i.run (match o.grp with | some _ => decide (o.step = 0) | none => o.z) (k.tile o.tile), bad := false }
        ∧ (∀ q ∈ (w.core c).mat, q.id = o.id → q.running = true) ∧ (w.core c).acc = (v.core c).acc ∧ w.mem = v.mem))
    ∧ (∀ r o, k.run = some r → k.freeze = 0 → k.mat.find? (fun o => o.id == r.op) = some o →
      (r.left ≠ 0 → Happens (.matrixStepRetire c) s s)
      ∧ (r.left = 0 → o.failed = false → r.bad = true → ∃ u, Happens (.matrixStepRetire c) s u ∧ (u.core c).acc = k.acc
        ∧ (∀ q ∈ (u.core c).mat, q.id = o.id → q.failed = true ∧ q.fault = some (cChecksum, BitVec.ofNat 64 o.tile)))
      ∧ (r.left = 0 → o.failed = false → r.bad = false → o.paired = false → ∃ u, Happens (.matrixStepRetire c) s u
        ∧ (u.core c).tile o.tile = r.result ∧ (u.core c).run = none
        ∧ (o.grp = none → (∀ q ∈ (u.core c).mat, q.id ≠ o.id) ∧ (o.epi = none → bit (u.core c).busy o.tile = false ∨ 32 ≤ o.tile))
        ∧ (∀ g, o.grp = some g → ∀ q ∈ (u.core c).mat, q.id = o.id → q.running = false ∧ ∃ p ∈ k.mat, p.id = o.id
            ∧ (p.step = g.ks → q.group = none ∧ q.epiWait = true ∧ q.out = p.out + 1) ∧ (p.step ≠ g.ks → q.step = p.step + 1))))
    ∧ (∀ idx o g ch, k.mat[idx]? = some o → o.grp = some g → s.chans.get? (chanKey o.region.toNat g.binch) = some ch →
      o.failed = false → o.group = none →
      (o.epiWait = false → k.freeze = 0 → s.frozenOn c o.region.toNat = false →
        (o.idled = true → o.out = 0 → Happens (.mmgGroupTake c idx) s
          ((s.endGroup c o).postRecord c o.region.toNat 8 6 o.tile o.stored 0 0 c o.ctx))
        ∧ (∀ n rows, o.idled = false → k.nextGroup o.region g ch = some (n, rows) → Happens (.mmgGroupTake c idx) s
          (s.modCore c (fun k => k.modOp o.id (fun o => { o with group := some n, rows := rows, step := 0 }))))
        ∧ (o.idled = false → k.nextGroup o.region g ch = none → Happens (.mmgGroupTake c idx) s s))
      ∧ (o.idled = false → o.out = 0 → (ch.half g.half).finished = true → Happens (.mmgComplete c idx) s
        ((if g.ret then (s.endGroup c o).idleHalf (chanKey o.region.toNat g.binch) g.half else s.endGroup c o).bump c g.cnt 1 o.region.toNat))
      ∧ (o.idled = false → o.out ≠ 0 ∨ (ch.half g.half).finished = false → Happens (.mmgComplete c idx) s s))
    ∧ (∀ e rest, k.epi = e :: rest → e.reserved = false → k.freeze = 0 → s.frozenOn c e.region.toNat = false →
      (e.kind ≠ 2 → e.data = none → e.op = none → e.desc.bi = false → e.desc.mode ≠ 2 → s.gatesOpen c = true → Happens (.epilogueStart c) s
        (s.modCore c (fun k => { (k.setBusy e.tile false) with
          epi := { e with data := some (k.tile e.tile), bias := [], scl := 0, dec := k.dec, cur := k.cur } :: rest })))
      ∧ (e.kind ≠ 2 → e.data ≠ none → e.progress < e.rows →
        let vs := e.values { k with dec := e.dec, cur := e.cur } e.progress
        let bs := e.rowBytes { k with dec := e.dec, cur := e.cur } vs
        (∀ st, s.emitRow c e bs = some (.error st) → Happens (.epilogueRowEmit c) s (s.failEpi c e st))
        ∧ (s.emitRow c e bs = none → Happens (.epilogueRowEmit c) s s)
        ∧ (∀ u, s.emitRow c e bs = some (.ok u) → e.paired = false → Happens (.epilogueRowEmit c) s (u.setEpi c { e with
            progress := e.progress + 1
            tlbs := if e.desc.mode.toNat = 3 ∨ e.desc.mode.toNat = 4 then e.tlbs else u.keeps c e.tlbs
              (e.desc.dst.setWidth 64 + BitVec.ofNat 64 (e.rowBase + e.progress) * e.desc.stride.setWidth 64).toNat bs.length
            amax := if e.desc.mode = 2 then BitVec.ofNat 32 (maxF32 e.amax.toNat (amaxF32 vs)) else e.amax })))
      ∧ (e.kind ≠ 2 → e.data ≠ none → e.rows ≤ e.progress → e.desc.mode ≠ 2 → e.op = none → Happens (.epilogueComplete c) s
        ((s.modCore c (fun k => { k with epi := rest })).bump c e.desc.cnt 1 e.region.toNat))
      ∧ (e.kind ≠ 2 → e.data ≠ none → e.rows ≤ e.progress → e.desc.mode = 2 → e.op = none →
        (∀ st, s.epiScale c e = .error st → Happens (.epilogueComplete c) s (s.failEpi c e st))
        ∧ (∀ x, s.epiScale c e = .ok x → s.serves x.pa = true → s.ecc = [] →
          ((s.poisoned x.pa 64).isSome = true → Happens (.epilogueComplete c) s (s.failEpi c e stPoison))
          ∧ (s.poisoned x.pa 64 = none → Happens (.epilogueComplete c) s
            (((s.scaleFold x.pa e.amax.toNat).modCore c (fun k => { k with epi := rest })).bump c e.desc.cnt 1 e.region.toNat))))
      ∧ (e.kind = 2 → ∀ (x : Nat → Xl), (s.ctx c e.ctx).pair = none → s.gatesOpen c = true → s.ecc = [] → s.poison = [] →
        (∀ r, r < 16 → let va := (e.src.setWidth 64 + BitVec.ofNat 64 r * e.desc.stride.setWidth 64).toNat
          s.walked c e.tlbs va 64 = some s ∧ s.enginePieces c e.ctx .load va 64 e.tlbs = .ok [(x r, 64)]
          ∧ s.serves (x r).pa = true ∧ kindOf (x r).pa ≤ 1) →
        Happens (.mtldComplete c) s ((s.modCore c (fun k => { ((k.setTile e.tile ((List.range 256).map (fun i =>
          BitVec.ofNat 32 (s.rdN ((x (i / 16)).pa + 4 * (i % 16)) 4)))).setBusy e.tile false) with epi := rest })).bump c e.desc.cnt 1 e.region.toNat)))

/-- R172, R276, R278, R434 to R441: at a compare point the twins agree, roll back, or call for a third run, whose result decides. -/
def Obligations.PairEvents : Prop :=
  ∀ (s : State) (c t : Nat) (p q : Pair), s.shut = false → (s.ctx c t).pair = some p → (s.ctx p.twinCore p.twinCtx).pair = some q →
    p.primary = true →
    (p.phase ≠ 2 →
      let due : Prop := p.ready = true ∧ q.ready = true ∧ s.matrixDone c t = true
      let same : Prop := p.fp = q.fp ∧ p.efp = q.efp
      (¬ due → Happens (.comparePoint c t) s s)
      ∧ (due → same → p.phase ≠ 1 → Happens (.comparePoint c t) s (s.agreement c t p))
      ∧ (due → same → p.phase = 1 → ∃ u, exec (.comparePoint c t) s = .next u ∧ (∃ n ∈ (u.core c).notices, n.evt = true ∧ n.code = cPairDiverge)
        ∧ u.lifePair.getD (c / 2) (0, 0) = (Nat.min ((s.lifePair.getD (c / 2) (0, 0)).1 + 1) (2 ^ 32 - 1), (s.lifePair.getD (c / 2) (0, 0)).2))
      ∧ (due → ¬ same → p.phase = 0 → Happens (.comparePoint c t) s (s.rollBack c t 1))
      ∧ (due → ¬ same → p.phase ≠ 0 → Happens (.comparePoint c t) s (s.thirdRun c t p)))
    ∧ (∀ tc tt x, p.phase = 2 → p.tie = some (tc, tt) → (s.ctx tc tt).pair = some x →
      (x.ready = false → Happens (.tieBreakResult c t) s s)
      ∧ (x.ready = true → ¬ (p.fp = x.fp ∧ p.efp = x.efp) → ¬ (q.fp = x.fp ∧ q.efp = x.efp) →
        Happens (.tieBreakResult c t) s (s.unresolved c t p))
      ∧ (x.ready = true → p.fp = x.fp → p.efp = x.efp → ∃ u v, Happens (.tieBreakResult c t) s ((u : State).rollBack c t 3)
        ∧ u = (v : State).modPair c t (fun p => { p with twinCore := tc, twinCtx := tt })
        ∧ (p.twinCore ≠ c → (v.core p.twinCore).suspect = some s.time))
      ∧ (x.ready = true → ¬ (p.fp = x.fp ∧ p.efp = x.efp) → q.fp = x.fp → q.efp = x.efp → ∃ u,
        Happens (.tieBreakResult c t) s ((u : State).swapPrimary c t p q tc tt) ∧ (u.core c).suspect = some s.time))
    ∧ (let u := s.agreement c t p
      (∀ r ∈ (u.core c).log.recs, r.ctx.toNat = t → r.held = false)
      ∧ (u.core c).log.recs.map (fun r => (r.seq, r.st, r.pa, r.data)) = (s.core c).log.recs.map (fun r => (r.seq, r.st, r.pa, r.data)))

/-! ### The machine as a whole -/

/-- R21, R102, R179, R279 to R282, R292: a step of a context whose turn it is runs the instruction that the words at its PC decode to; a
word that is no instruction, and a bundle that cannot be framed, trap; an event that the agenda names takes place. Every step answers. -/
def Obligations.StepRunsDecodedInstruction : Prop :=
  (∀ (s : State) (i : Instr) (line ws : List SlotWord), Issues s → (now s).fetched = some line → frameBundle line = .ok ws →
    decodeWords ws = .ok i → step s = noted (exec i s))
  ∧ (∀ (s : State) (line : List SlotWord) (w : SlotWord) (r : Reject), Issues s → Ready s → (now s).fetched = some line →
    frameBundle line = .ok [w] → decodeSlot none w = .error r → StepTraps s cIllegal 0 w.toNat)
  ∧ (∀ (s : State) (line : List SlotWord) (r : Nat × Nat), Issues s → (now s).pair = none → (now s).fetched = some line →
    frameBundle line = .error r → StepTraps s cIllegalBundle 0 (16 * r.1 + r.2))
  ∧ (∀ (s : State) (i : Instr) (rest : List Move), s.agenda = .event i :: rest → i.wellFormed = true → encode i = [] →
    step s = noted (exec i { s with agenda := rest }))
  ∧ (∀ s : State, ∃ t, step s = .next t) ∧ ∀ (i : Instr) (s : State), ∃ t, exec i s = .next t

/-- R286, R291, R292, R294 to R297: words written out from the encoding, several of them the spec's worked examples, decode to their
instructions, and words at reserved and held code points, or with an unused field that is not zero, to none. -/
def Obligations.DecodedWords : Prop :=
  decodeSlot none 0x000420C3 = .ok (.add ⟨none, 1, 2, 3, 3⟩)
  ∧ decodeWords [0xB01051B0] = .ok (.vadd ⟨none, 4, 5, 6, 6, 0⟩)
  ∧ decodeWords [0x985FFFF0] = .ok (.brn ⟨none, 2, 0xFFFF0⟩)
  ∧ decodeWords [0x7F0048D1, 0x951D6789] = .ok (.li ⟨some 0x0048D1, 7, 0x16789⟩)
  ∧ decodeWords [0x85083860] = .ok (.cmpltu ⟨none, 2, 3, 33, 0⟩)
  ∧ decodeWords [0x8B810FFA] = .ok (.addi ⟨none, 32, 16, 0x1FF, 2⟩)
  ∧ decodeWords [0x891431C1] = .ok (.fmaddF32 ⟨none, 5, 3, 7, 1⟩)
  ∧ decodeWords [0x9C009088] = .ok (.crw ⟨none, 9, 0x11, 0⟩)
  ∧ decodeWords [0xA1000000] = .ok (.tret ⟨none, 0⟩)
  ∧ decodeWords [0xAD004010] = .ok (.xinva ⟨none, 4, 0⟩)
  ∧ decodeWords [0xCC248010] = .ok (.vcurve ⟨none, 9, 8, 2, 0⟩)
  ∧ decodeWords [0xE01C8FF8] = .ok (.ldU64I ⟨none, 7, 8, 0x1FF, 0⟩)
  ∧ decodeWords [0xE6241010] = .ok (.vstI ⟨none, 9, 1, 2, 0⟩)
  ∧ decodeWords [0xE81461F0] = .ok (.radd ⟨none, 5, 6, 7, 6, 0⟩)
  ∧ decodeWords [0xF07C20C8] = .ok (.mmE4m3 ⟨none, 31, 2, 3, 0⟩)
  ∧ decodeWords [0xF6146320] = .ok (.recv ⟨none, 5, 6, 100, 0⟩)
  ∧ decodeWords [0xFB003274] = .ok (.waitc ⟨none, 3, 9, 4⟩)
  ∧ decodeWords [0x80000030] = .error .reservedPoint ∧ decodeWords [0xD0000000] = .error .heldBitOne
  ∧ decodeWords [0x83000060] = .error .unusedField ∧ decodeWords [0x7F000007, 0x80000000] = .ok (.add ⟨some 7, 0, 0, 0, 0⟩)

/-- R286, R287, R291, R294 to R297: for every instruction with words, decoding its encoding gives it back; and words that decode to an
instruction are its encoding, but for the `E` bits, which frame the bundle. -/
def Obligations.EncodeDecodeRoundTrip : Prop :=
  (∀ i : Instr, encode i ≠ [] → decodeWords (encode i) = .ok i)
  ∧ ∀ (ws : List SlotWord) (i : Instr), decodeWords ws = .ok i → encode i = framed ws

/-- R280, R282: a bundle is framed first, then its slots are checked in emitted order, and the first slot at which a reason holds is
reported with the lowest reason there. -/
def Obligations.BundleFramingChecks : Prop :=
  (∀ line : List SlotWord,
    (8 ≤ line.length → (∀ w ∈ line.take 8, fE w = false) → frameBundle line = .error (3, 7))
    ∧ (line.length < 8 → line ≠ [] → (∀ w ∈ line, fE w = false) → frameBundle line = .error (4, line.length - 1)))
  ∧ (∀ (l rest : List SlotWord) (w : SlotWord), l.length < 8 → (∀ x ∈ l, fE x = false) → fE w = true →
    let b := l ++ [w]
    ((∀ j r, j < b.length → ¬ Reason b j r) → frameBundle (b ++ rest) = .ok b)
    ∧ ∀ j r, j < b.length → Reason b j r → (∀ q, q < r → ¬ Reason b j q) → (∀ i q, i < j → ¬ Reason b i q) →
      frameBundle (b ++ rest) = .error (r, j))
  ∧ ∀ (s : State) (line : List SlotWord) (r : Nat × Nat), Issues s → (now s).pair = none → (now s).fetched = some line →
    frameBundle line = .error r → StepTraps s cIllegalBundle 0 (16 * r.1 + r.2)

/-- R71, R94, R279, R283, R285, R289: two slots of a bundle see the state before it, fill the latches in emitted order, and control goes
on behind the bundle; a double write is an illegal bundle; of several traps the lowest slot's is reported. -/
def Obligations.TwoSlotBundles : Prop :=
  ∀ (s : State) (v w : SlotWord) (rest : List SlotWord) (o q : OpDab), Issues s → Ready s → (now s).fetched = some (v :: w :: rest) →
    fE v = false → fE w = true → decodeSlot none v = .ok (.add o) → decodeSlot none w = .ok (.sub q) →
    let clash := dN o.d = false ∧ dN q.d = false ∧ dReg o.d = dReg q.d ∧ dReg o.d ≠ 0
    let put (k : Ctx) (d : BitVec 6) (x : Word) : Ctx := if dN d then k else k.wx (dReg d) x
    let D := X s o.a + X s o.b
    let E := X s q.a - X s q.b
    let leaves (k : Ctx) : Prop := ∃ t, step s = noted (.next t)
      ∧ After s (s.setCtx s.turn (nowCtx s) (goOn { k with pendQ := 0 } ((now s).pc + 8))) t
    let invalid (c : BitVec 6) (n : Nat) : Prop := n < 4 ∧ c.toNat = 32 + n ∧ bit (now s).qv n = false
    (clash → StepTraps s cIllegalBundle 0 0x11)
    ∧ (¬ clash → Readable s [o.a, o.b, q.a, q.b] →
      (Guard s o.g → Guard s q.g →
        leaves { (put (put (now s) o.d D) q.d E) with q := ((now s).q.set 0 (D.setWidth 128)).set 1 (E.setWidth 128), qv := 3 })
      ∧ (Guard s o.g → ¬ Guard s q.g → leaves { (put (now s) o.d D) with q := (now s).q.set 0 (D.setWidth 128), qv := 1 })
      ∧ (¬ Guard s o.g → Guard s q.g → leaves { (put (now s) q.d E) with q := (now s).q.set 1 (E.setWidth 128), qv := 2 }))
    ∧ (∀ n, ¬ clash → Guard s o.g → invalid o.a n → o.b.toNat < 32 → StepTraps s cLatchLost 0 n)
    ∧ (¬ clash → Readable s [o.a, o.b] → 36 ≤ q.a.toNat → StepTraps s cIllegal 1 (3 * 2 ^ 32 + w.toNat))
    ∧ (∀ n, ¬ clash → ¬ Guard s o.g → invalid o.a n → o.b.toNat < 32 → 36 ≤ q.a.toNat → StepTraps s cIllegal 1 (3 * 2 ^ 32 + w.toNat))

/-- R64, R71, R73, R76, R84, R200, R287, R289, R291, R292: what holds for every slot before its effect: it waits for pending registers
and busy tiles; an illegal field, a privilege too low, an extension that the core does not have and an invalid latch trap or migrate; a
false guard leaves the context as it was, but for the latches. -/
def Obligations.SlotChecks : Prop :=
  ∀ (s : State) (i : Instr), encode i ≠ [] → (∀ m, i ≠ .xPrefix m) → (now s).mode = .running → (now s).stop = none →
    (now s).pair = none → (now s).regErr = [] →
    let d := slotOf i
    let e := envOf i s
    let k := now s
    (d.waits k = true → Waits i s 1 s)
    ∧ (d.waits k = false → d.streamWait e = true → Waits i s 2 s)
    ∧ (d.waits k = false → d.streamWait e = false → d.tileBusy e = true → Waits i s 3 s)
    ∧ (d.waits k = false → d.streamWait e = false → d.tileBusy e = false →
      (∀ m, d.badMod = some m → Traps i s cIllegal (BitVec.ofNat 64 (0x7F000000 + m.toNat)))
      ∧ (d.badMod = none → d.bad = true → TrapsIllegal i s 0)
      ∧ (d.badMod = none → d.bad = false → (∃ c ∈ d.xs ++ d.vs, 36 ≤ c.toNat) → TrapsIllegal i s 3)
      ∧ (d.illegal e = none → k.prv < d.lvl → Traps i s cPrivilege ((slotWord i).setWidth 64))
      ∧ (d.illegal e = none → d.lvl ≤ k.prv →
        (k.rp d.g = false → d.streamReads k = [] → (d.fp64 = true → hasFp64 s.turn = true) → GivesCtx i s .none k)
        ∧ (k.rp d.g = true → (d.fp64 = true → hasFp64 s.turn = true) → ∀ n, d.lost k = some n → Traps i s cLatchLost (BitVec.ofNat 64 n))
        ∧ (d.fp64 = true → hasFp64 s.turn = false →
          let target := if nowCtx s = 0 then none else s.extTarget s.turn k.region.toNat
          (target = none → k.rp d.g = true → Traps i s cExtNone 0)
          ∧ (target = none → k.rp d.g = false → d.streamReads k = [] → GivesCtx i s .none k)
          ∧ (∀ c, target = some c → hasFp64 c = true ∧ Leaves i s (s.startMigrate s.turn (nowCtx s))))))

/-- R80, R95 to R97, R99: taking a trap. A worker's frame is written, it stops, and a notice is posted; the steward, and each context of
a service core, enters its handler with the saved registers written and keeps its other registers. -/
def Obligations.TrapEntry : Prop :=
  ∀ (s : State) (c t : Nat) (code : BitVec 8) (slot : BitVec 3) (tval : Word), t < 16 →
    let k := s.ctx c t
    let u := s.takeTrap c t code slot tval
    let x := u.ctx c t
    let entered (cause : Nat) : Prop :=
      x.epc = k.pc ∧ x.cause = BitVec.ofNat 64 cause ∧ x.tval = tval ∧ x.tframe = 0 ∧ x.npc = k.pc ∧ x.pc = k.tvec
      ∧ x.status = k.status ||| 8 ∧ x.qv = 0 ∧ x.mode = k.mode ∧ x.x = k.x ∧ x.v = k.v ∧ x.p = k.p ∧ x.m = k.m ∧ x.y = k.y
      ∧ x.bind = k.bind ∧ x.fflags = k.fflags ∧ x.frm = k.frm ∧ x.tiles = k.tiles ∧ x.lc = k.lc ∧ x.ls = k.ls ∧ x.le = k.le
      ∧ u.mem = s.mem ∧ (∀ d, d ≠ c → u.core d = s.core d) ∧ ∀ j, j < 16 → j ≠ t → u.ctx c j = s.ctx c j
    (4096 ≤ c → bit k.status 3 = false → entered (slot.toNat * 2 ^ 12 + t * 2 ^ 8 + code.toNat))
    ∧ (c < 4096 → t = 0 → bit k.status 3 = false → entered (slot.toNat * 2 ^ 12 + code.toNat))
    ∧ (4096 ≤ c → bit k.status 3 = true → x.mode = .stopped ∧ (u.body (bodyOf (c - 4096))).failed = true ∧ u.mem = s.mem
      ∧ ∀ j, j < 16 → j ≠ t → u.ctx c j = s.ctx c j)
    ∧ (c < 4096 → t ≠ 0 → k.hasPending = true → x.mode = k.mode ∧ u.mem = s.mem ∧ (u.core c).notices = (s.core c).notices
      ∧ x.stop = some { code := code, slot := slot, tval := tval, framePc := k.pc, npc := k.pc })
    ∧ (c < 4096 → t ≠ 0 → k.hasPending = false → Memory.wf s.mem = true →
      let pa := s.frameSlot c t k.region.toNat
      let word (j : Nat) : Word := u.rd64 (pa + 8 * j)
      x.mode = .stopped ∧ x.x = k.x ∧ x.v = k.v
      ∧ (∀ l₁ l₂, (s.core c).notices = l₁ ++ l₂ → (∀ q ∈ l₂, q.evt = true ∧ q.cyc = (s.core c).cycle) →
        (∀ q, l₁.getLast? = some q → ¬ (q.evt = true ∧ q.cyc = (s.core c).cycle)) →
        (u.core c).notices = l₁ ++ {
          code := code, evt := false, slot := slot, ctx := BitVec.ofNat 4 t, npc := k.pc, tval := tval
          tframe := s.frameVa c t k.region.toNat, cyc := (s.core c).cycle } :: l₂)
      ∧ (∀ j, 0 < j → j < 32 → some (word j) = k.x.toList[j]?) ∧ word 0 = 0
      ∧ (∀ j, j < 32 → word (32 + 2 * j) = (k.rv j).setWidth 64 ∧ word (33 + 2 * j) = (k.rv j).extractLsb' 64 64)
      ∧ bitsN (word 118) 0 60 = k.pc.toNat ∧ bitsN (word 119) 0 24 = k.region.toNat ∧ bitsN (word 119) 28 7 = k.p.toNat / 2
      ∧ word 121 = k.status ∧ word 123 = k.tiles ∧ word 127 = code.setWidth 64 ∧ word 128 = k.ulvec.setWidth 64
      ∧ (∀ a, a < pa ∨ pa + 0x480 ≤ a → Mem.read u.mem a = Mem.read s.mem a)
      ∧ (∀ d, d ≠ c → u.core d = s.core d) ∧ ∀ j, j < 16 → j ≠ t → u.ctx c j = s.ctx c j)

/-- R81, R98: a trap in context 0 while `TH` = 1 waits for the results that are still pending, then writes its frame with the cause in
`STOP`, stops it and reports the fault of its region to the scheduler; it leaves the notices queued. -/
def Obligations.DoubleTrap : Prop :=
  ∀ (s : State) (c : Nat) (code : BitVec 8) (slot : BitVec 3) (tval : Word), c < 4096 → bit (s.ctx c 0).status 3 = true →
    Memory.wf s.mem = true →
    let k := s.ctx c 0
    let u := s.takeTrap c 0 code slot tval
    (k.hasPending = true → (u.ctx c 0).mode = k.mode ∧ u.mem = s.mem ∧ u.faults = s.faults
      ∧ (u.ctx c 0).stop = some { code := code, slot := slot, tval := tval, framePc := k.pc, npc := k.pc })
    ∧ (k.hasPending = false → (u.ctx c 0).mode = .stopped ∧ u.faults = s.faults ++ [{ region := k.region.toNat, code := code }]
      ∧ (∀ j, j < 144 → u.rd64 (s.frameSlot c 0 k.region.toNat + 8 * j) = (s.image c 0 k.pc code).getD j 0)
      ∧ (s.image c 0 k.pc code).getD 127 0 = code.setWidth 64
      ∧ ∀ a, a < s.frameSlot c 0 k.region.toNat ∨ s.frameSlot c 0 k.region.toNat + 0x480 ≤ a → Mem.read u.mem a = Mem.read s.mem a)
    ∧ (u.core c).notices = (s.core c).notices
    ∧ ∀ j, 0 < j → j < 16 → u.ctx c j = s.ctx c j

/-- R62: x0 reads as zero; a write to x0 is discarded, and the latch of the writing slot still receives the result, as with `N`. -/
def Obligations.ZeroRegister : Prop :=
  (∀ k : Ctx, k.rx 0 = 0) ∧ (∀ (e : Env), e.xa 0 = 0 ∧ e.xOld 0 = 0) ∧ (∀ (k : Ctx) (v : Word), k.wx 0 v = k)
  ∧ (∀ (w : Work) (e : Env) (d : BitVec 6) (v : Word), d = 0 ∨ d = 32 →
    (w.outX e d v).s.ctx e.c e.t = w.s.ctx e.c e.t ∧ (w.outX e d v).lat = w.lat ++ [.val (v.setWidth 128)]
    ∧ (w.outE e d v).s.ctx e.c e.t = w.s.ctx e.c e.t)
  ∧ ∀ (s : State) (o : OpDab), Ready s → Guard s o.g → Unmodified o.p → Readable s [o.a, o.b] → o.d = 0 ∨ o.d = 32 →
    GivesCtx (.add o) s (.val ((X s o.a + X s o.b).setWidth 128)) (now s)

/-- R65, R69, R70, R74: p0 and m0 read as ones and discard writes; a write of another register reads back and changes no other; in a
user-level handler x1 to x4 are y0 to y3. -/
def Obligations.RegisterFiles : Prop :=
  ∀ k : Ctx,
    k.rp 0 = true ∧ k.rm 0 = 0xFFFF ∧ (∀ b, k.wp 0 b = k) ∧ (∀ m, k.wm 0 m = k)
    ∧ (∀ r v j, 0 < r → r < 32 → j < 32 → (k.wx r v).rx j = if j = r then v else k.rx j)
    ∧ (∀ r v j, r < 32 → j < 32 → (k.wv r v).rv j = if j = r then v else k.rv j)
    ∧ (∀ r b j, 0 < r → r < 8 → j < 8 → (k.wp r b).rp j = if j = r then b else k.rp j)
    ∧ (∀ r m j, 0 < r → r < 8 → j < 8 → (k.wm r m).rm j = if j = r then m else k.rm j)
    ∧ (bit k.status 4 = true → ∀ r v, 1 ≤ r → r ≤ 4 → some (k.rx r) = k.y.toList[r - 1]? ∧ (k.wx r v).x = k.x)
    ∧ (bit k.status 4 = false → ∀ r v, 1 ≤ r → r < 32 → some (k.rx r) = k.x.toList[r]? ∧ (k.wx r v).y = k.y)

/-- R77, R83, R86, R89, with logs 2 and 3 for what the spec leaves open: the values after reset that the spec gives, and the canonical
form of memory. -/
def Obligations.ResetValues : Prop :=
  (∀ c t, t < 16 →
    let k := State.reset.ctx c t
    (∀ r, r < 32 → k.rx r = 0 ∧ k.rv r = 0) ∧ (∀ r, 0 < r → r < 8 → k.rp r = false ∧ k.rm r = 0xFFFF)
    ∧ k.qv = 0 ∧ k.y = Vector.replicate 4 0 ∧ k.bind = Vector.replicate 8 0 ∧ k.fflags = 0 ∧ k.frm = 0 ∧ k.tiles = 0
    ∧ k.lc = 0 ∧ k.ls = 0 ∧ k.le = 0 ∧ k.region = 0 ∧ k.ulvec = 0 ∧ k.uepc = 0 ∧ k.uval = 0 ∧ k.cause = 0 ∧ k.epc = 0 ∧ k.tval = 0
    ∧ k.tframe = 0 ∧ k.tvec = 0 ∧ k.npc = 0 ∧ k.status = (if 4096 ≤ c then 3 else if t = 0 then 1 else 0))
  ∧ (∀ c, (State.reset.core c).cycle = 0 ∧ (State.reset.core c).notices = [] ∧ (State.reset.core c).log.recs = [])
  ∧ Memory.wf State.reset.mem = true

/-- Every step keeps the canonical form of memory, which is the model's own (log 2): addresses rise strictly, and no entry holds what an
unlisted byte reads as. -/
def Obligations.MemoryStaysCanonical : Prop :=
  ∀ s t : State, Memory.wf s.mem = true → step s = .next t → Memory.wf t.mem = true

/-- R469: a package that has shut down stays so until it is powered on: no step changes its cores, its memory with its poison, what was
in flight, or the Chronograph. -/
def Obligations.ShutPackageStaysAtRest : Prop :=
  ∀ s t : State, AtRest s → step s = .next t → AtRest t ∧ SameParts s t
end

