-- ==== Sys2Proof/Laws/State.lean ====
section
/-! SUPPORT. The fields of the state under each of its updates, one lemma per field per update, and the tables: what setting an
entry leaves of the others. -/

namespace Sys2Proof.Machine

set_option Elab.async false

/-! ### Tables -/

@[simp] theorem Tab.get?_set_self {α : Type} (t : Tab α) (k : Nat) (a : α) : (t.set k a).get? k = some a := by
  induction t with
  | nil => simp [Tab.set, Tab.get?]
  | cons e t ih =>
    obtain ⟨j, b⟩ := e
    by_cases h1 : k = j
    · simp [Tab.set, Tab.get?, h1]
    · by_cases h2 : k < j
      · simp [Tab.set, Tab.get?, h1, h2]
      · simp [Tab.set, Tab.get?, h1, h2, ih, Ne.symm h1]

theorem Tab.get?_set_ne {α : Type} (t : Tab α) {k n : Nat} (a : α) (h : n ≠ k) : (t.set k a).get? n = t.get? n := by
  induction t with
  | nil => simp [Tab.set, Tab.get?, Ne.symm h]
  | cons e t ih =>
    obtain ⟨j, b⟩ := e
    by_cases h1 : k = j
    · subst h1; simp [Tab.set, Tab.get?, Ne.symm h]
    · by_cases h2 : k < j
      · simp [Tab.set, Tab.get?, h1, h2, Ne.symm h]
      · simp [Tab.set, Tab.get?, h1, h2, ih]

@[simp] theorem Tab.getD_set_self {α : Type} (t : Tab α) (k : Nat) (a d : α) : (t.set k a).getD k d = a := by
  simp [Tab.getD]

theorem Tab.getD_set_ne {α : Type} (t : Tab α) {k n : Nat} (a d : α) (h : n ≠ k) : (t.set k a).getD n d = t.getD n d := by
  simp [Tab.getD, Tab.get?_set_ne t a h]

theorem Tab.set_set {α : Type} (t : Tab α) (k : Nat) (a b : α) : (t.set k a).set k b = t.set k b := by
  induction t with
  | nil => simp [Tab.set]
  | cons e t ih =>
    obtain ⟨j, c⟩ := e
    by_cases h1 : k = j
    · simp [Tab.set, h1]
    · by_cases h2 : k < j
      · simp [Tab.set, h1, h2]
      · simp [Tab.set, h1, h2, ih]

/-! ### Cores and contexts -/

@[simp] theorem State.core_setCore_self (s : State) (c : Nat) (k : Core) : (s.setCore c k).core c = k := by
  simp [State.core, State.setCore]

theorem State.core_setCore_ne (s : State) {c d : Nat} (k : Core) (h : d ≠ c) : (s.setCore c k).core d = s.core d := by
  simp [State.core, State.setCore, Tab.getD_set_ne _ _ _ h]

@[simp] theorem State.core_modCore_self (s : State) (c : Nat) (f : Core → Core) : (s.modCore c f).core c = f (s.core c) := by
  simp [State.modCore]

theorem State.core_modCore_ne (s : State) {c d : Nat} (f : Core → Core) (h : d ≠ c) : (s.modCore c f).core d = s.core d := by
  simp [State.modCore, State.core_setCore_ne _ _ h]

@[simp] theorem State.ctx_setCtx_self (s : State) (c t : Nat) (x : Ctx) : (s.setCtx c t x).ctx c t = x := by
  simp [State.ctx, State.setCtx]

@[simp] theorem State.ctx_modCtx_self (s : State) (c t : Nat) (f : Ctx → Ctx) : (s.modCtx c t f).ctx c t = f (s.ctx c t) := by
  simp [State.modCtx]

theorem State.ctx_setCtx_ne (s : State) (c : Nat) {t u : Nat} (x : Ctx) (h : u % 16 ≠ t % 16) :
    (s.setCtx c t x).ctx c u = s.ctx c u := by
  simp [State.ctx, State.setCtx, Vector.getElem_set_ne _ _ (Ne.symm h)]

theorem State.core_setCtx_ne (s : State) {c d : Nat} (t : Nat) (x : Ctx) (h : d ≠ c) : (s.setCtx c t x).core d = s.core d := by
  simp [State.setCtx, State.core_modCore_ne _ _ h]

theorem State.core_setCtx_self (s : State) (c t : Nat) (x : Ctx) :
    (s.setCtx c t x).core c = { (s.core c) with ctxs := (s.core c).ctxs.set (t % 16) x (Nat.mod_lt _ (by decide)) } := by
  simp [State.setCtx]

theorem State.core_modCtx_self (s : State) (c t : Nat) (f : Ctx → Ctx) :
    (s.modCtx c t f).core c
      = { (s.core c) with ctxs := (s.core c).ctxs.set (t % 16) (f (s.ctx c t)) (Nat.mod_lt _ (by decide)) } := by
  simp [State.modCtx, State.core_setCtx_self]

theorem State.core_modCtx_ne (s : State) {c d : Nat} (t : Nat) (f : Ctx → Ctx) (h : d ≠ c) :
    (s.modCtx c t f).core d = s.core d := by
  simp [State.modCtx, State.core_setCtx_ne _ _ _ h]

theorem State.ctx_modCtx_ne (s : State) (c : Nat) {t u : Nat} (f : Ctx → Ctx) (h : u % 16 ≠ t % 16) :
    (s.modCtx c t f).ctx c u = s.ctx c u := by
  simp [State.modCtx, State.ctx_setCtx_ne _ _ _ h]

/-- A change of a core that leaves its contexts leaves every context. -/
theorem State.ctx_modCore (s : State) (c t : Nat) (f : Core → Core) (h : (f (s.core c)).ctxs = (s.core c).ctxs) :
    (s.modCore c f).ctx c t = s.ctx c t := by
  simp [State.ctx, h]

theorem State.setCore_setCore (s : State) (c : Nat) (k h : Core) : (s.setCore c k).setCore c h = s.setCore c h := by
  simp [State.setCore, Tab.set_set]

theorem State.modCore_modCore (s : State) (c : Nat) (f g : Core → Core) :
    (s.modCore c f).modCore c g = s.modCore c (fun k => g (f k)) := by
  simp [State.modCore, State.setCore_setCore]

theorem State.setCtx_setCtx (s : State) (c t : Nat) (x y : Ctx) : (s.setCtx c t x).setCtx c t y = s.setCtx c t y := by
  simp only [State.setCtx, State.modCore_modCore, Vector.set_set]

theorem State.modCtx_modCtx (s : State) (c t : Nat) (f g : Ctx → Ctx) :
    (s.modCtx c t f).modCtx c t g = s.modCtx c t (fun k => g (f k)) := by
  simp only [State.modCtx, State.ctx_setCtx_self, State.setCtx_setCtx]

theorem State.modCtx_eq (s : State) (c t : Nat) (f : Ctx → Ctx) : s.modCtx c t f = s.setCtx c t (f (s.ctx c t)) := rfl

/-! ### Fields of the state under its updates -/

@[simp] theorem State.setCore_clusters (s : State) (c : Nat) (k : Core) : (s.setCore c k).clusters = s.clusters := rfl
@[simp] theorem State.setCore_mem (s : State) (c : Nat) (k : Core) : (s.setCore c k).mem = s.mem := rfl
@[simp] theorem State.setCore_poison (s : State) (c : Nat) (k : Core) : (s.setCore c k).poison = s.poison := rfl
@[simp] theorem State.setCore_ecc (s : State) (c : Nat) (k : Core) : (s.setCore c k).ecc = s.ecc := rfl
@[simp] theorem State.setCore_hostBuf (s : State) (c : Nat) (k : Core) : (s.setCore c k).hostBuf = s.hostBuf := rfl
@[simp] theorem State.setCore_flight (s : State) (c : Nat) (k : Core) : (s.setCore c k).flight = s.flight := rfl
@[simp] theorem State.setCore_invs (s : State) (c : Nat) (k : Core) : (s.setCore c k).invs = s.invs := rfl
@[simp] theorem State.setCore_nextInv (s : State) (c : Nat) (k : Core) : (s.setCore c k).nextInv = s.nextInv := rfl
@[simp] theorem State.setCore_walkTurn (s : State) (c : Nat) (k : Core) : (s.setCore c k).walkTurn = s.walkTurn := rfl
@[simp] theorem State.setCore_regions (s : State) (c : Nat) (k : Core) : (s.setCore c k).regions = s.regions := rfl
@[simp] theorem State.setCore_chans (s : State) (c : Nat) (k : Core) : (s.setCore c k).chans = s.chans := rfl
@[simp] theorem State.setCore_resvs (s : State) (c : Nat) (k : Core) : (s.setCore c k).resvs = s.resvs := rfl
@[simp] theorem State.setCore_rounds (s : State) (c : Nat) (k : Core) : (s.setCore c k).rounds = s.rounds := rfl
@[simp] theorem State.setCore_permits (s : State) (c : Nat) (k : Core) : (s.setCore c k).permits = s.permits := rfl
@[simp] theorem State.setCore_trees (s : State) (c : Nat) (k : Core) : (s.setCore c k).trees = s.trees := rfl
@[simp] theorem State.setCore_saved (s : State) (c : Nat) (k : Core) : (s.setCore c k).saved = s.saved := rfl
@[simp] theorem State.setCore_tenants (s : State) (c : Nat) (k : Core) : (s.setCore c k).tenants = s.tenants := rfl
@[simp] theorem State.setCore_cmds (s : State) (c : Nat) (k : Core) : (s.setCore c k).cmds = s.cmds := rfl
@[simp] theorem State.setCore_faults (s : State) (c : Nat) (k : Core) : (s.setCore c k).faults = s.faults := rfl
@[simp] theorem State.setCore_link (s : State) (c : Nat) (k : Core) : (s.setCore c k).link = s.link := rfl
@[simp] theorem State.setCore_ports (s : State) (c : Nat) (k : Core) : (s.setCore c k).ports = s.ports := rfl
@[simp] theorem State.setCore_windows (s : State) (c : Nat) (k : Core) : (s.setCore c k).windows = s.windows := rfl
@[simp] theorem State.setCore_pf (s : State) (c : Nat) (k : Core) : (s.setCore c k).pf = s.pf := rfl
@[simp] theorem State.setCore_hostWin (s : State) (c : Nat) (k : Core) : (s.setCore c k).hostWin = s.hostWin := rfl
@[simp] theorem State.setCore_hostq (s : State) (c : Nat) (k : Core) : (s.setCore c k).hostq = s.hostq := rfl
@[simp] theorem State.setCore_msix (s : State) (c : Nat) (k : Core) : (s.setCore c k).msix = s.msix := rfl
@[simp] theorem State.setCore_staging (s : State) (c : Nat) (k : Core) : (s.setCore c k).staging = s.staging := rfl
@[simp] theorem State.setCore_bodies (s : State) (c : Nat) (k : Core) : (s.setCore c k).bodies = s.bodies := rfl
@[simp] theorem State.setCore_meas (s : State) (c : Nat) (k : Core) : (s.setCore c k).meas = s.meas := rfl
@[simp] theorem State.setCore_leaf (s : State) (c : Nat) (k : Core) : (s.setCore c k).leaf = s.leaf := rfl
@[simp] theorem State.setCore_chrono (s : State) (c : Nat) (k : Core) : (s.setCore c k).chrono = s.chrono := rfl
@[simp] theorem State.setCore_chLeftOut (s : State) (c : Nat) (k : Core) : (s.setCore c k).chLeftOut = s.chLeftOut := rfl
@[simp] theorem State.setCore_lifeCorr (s : State) (c : Nat) (k : Core) : (s.setCore c k).lifeCorr = s.lifeCorr := rfl
@[simp] theorem State.setCore_lifeTemp (s : State) (c : Nat) (k : Core) : (s.setCore c k).lifeTemp = s.lifeTemp := rfl
@[simp] theorem State.setCore_lifeBin (s : State) (c : Nat) (k : Core) : (s.setCore c k).lifeBin = s.lifeBin := rfl
@[simp] theorem State.setCore_powered (s : State) (c : Nat) (k : Core) : (s.setCore c k).powered = s.powered := rfl
@[simp] theorem State.setCore_tempAt (s : State) (c : Nat) (k : Core) : (s.setCore c k).tempAt = s.tempAt := rfl
@[simp] theorem State.setCore_lifePair (s : State) (c : Nat) (k : Core) : (s.setCore c k).lifePair = s.lifePair := rfl
@[simp] theorem State.setCore_time (s : State) (c : Nat) (k : Core) : (s.setCore c k).time = s.time := rfl
@[simp] theorem State.setCore_ppm (s : State) (c : Nat) (k : Core) : (s.setCore c k).ppm = s.ppm := rfl
@[simp] theorem State.setCore_pkg (s : State) (c : Nat) (k : Core) : (s.setCore c k).pkg = s.pkg := rfl
@[simp] theorem State.setCore_shut (s : State) (c : Nat) (k : Core) : (s.setCore c k).shut = s.shut := rfl
@[simp] theorem State.setCore_turn (s : State) (c : Nat) (k : Core) : (s.setCore c k).turn = s.turn := rfl
@[simp] theorem State.setCore_agenda (s : State) (c : Nat) (k : Core) : (s.setCore c k).agenda = s.agenda := rfl
@[simp] theorem State.setCore_steps (s : State) (c : Nat) (k : Core) : (s.setCore c k).steps = s.steps := rfl

@[simp] theorem State.modCore_clusters (s : State) (c : Nat) (f : Core → Core) : (s.modCore c f).clusters = s.clusters := rfl
@[simp] theorem State.modCore_mem (s : State) (c : Nat) (f : Core → Core) : (s.modCore c f).mem = s.mem := rfl
@[simp] theorem State.modCore_poison (s : State) (c : Nat) (f : Core → Core) : (s.modCore c f).poison = s.poison := rfl
@[simp] theorem State.modCore_ecc (s : State) (c : Nat) (f : Core → Core) : (s.modCore c f).ecc = s.ecc := rfl
@[simp] theorem State.modCore_hostBuf (s : State) (c : Nat) (f : Core → Core) : (s.modCore c f).hostBuf = s.hostBuf := rfl
@[simp] theorem State.modCore_flight (s : State) (c : Nat) (f : Core → Core) : (s.modCore c f).flight = s.flight := rfl
@[simp] theorem State.modCore_invs (s : State) (c : Nat) (f : Core → Core) : (s.modCore c f).invs = s.invs := rfl
@[simp] theorem State.modCore_nextInv (s : State) (c : Nat) (f : Core → Core) : (s.modCore c f).nextInv = s.nextInv := rfl
@[simp] theorem State.modCore_walkTurn (s : State) (c : Nat) (f : Core → Core) : (s.modCore c f).walkTurn = s.walkTurn := rfl
@[simp] theorem State.modCore_regions (s : State) (c : Nat) (f : Core → Core) : (s.modCore c f).regions = s.regions := rfl
@[simp] theorem State.modCore_chans (s : State) (c : Nat) (f : Core → Core) : (s.modCore c f).chans = s.chans := rfl
@[simp] theorem State.modCore_resvs (s : State) (c : Nat) (f : Core → Core) : (s.modCore c f).resvs = s.resvs := rfl
@[simp] theorem State.modCore_rounds (s : State) (c : Nat) (f : Core → Core) : (s.modCore c f).rounds = s.rounds := rfl
@[simp] theorem State.modCore_permits (s : State) (c : Nat) (f : Core → Core) : (s.modCore c f).permits = s.permits := rfl
@[simp] theorem State.modCore_trees (s : State) (c : Nat) (f : Core → Core) : (s.modCore c f).trees = s.trees := rfl
@[simp] theorem State.modCore_saved (s : State) (c : Nat) (f : Core → Core) : (s.modCore c f).saved = s.saved := rfl
@[simp] theorem State.modCore_tenants (s : State) (c : Nat) (f : Core → Core) : (s.modCore c f).tenants = s.tenants := rfl
@[simp] theorem State.modCore_cmds (s : State) (c : Nat) (f : Core → Core) : (s.modCore c f).cmds = s.cmds := rfl
@[simp] theorem State.modCore_faults (s : State) (c : Nat) (f : Core → Core) : (s.modCore c f).faults = s.faults := rfl
@[simp] theorem State.modCore_link (s : State) (c : Nat) (f : Core → Core) : (s.modCore c f).link = s.link := rfl
@[simp] theorem State.modCore_ports (s : State) (c : Nat) (f : Core → Core) : (s.modCore c f).ports = s.ports := rfl
@[simp] theorem State.modCore_windows (s : State) (c : Nat) (f : Core → Core) : (s.modCore c f).windows = s.windows := rfl
@[simp] theorem State.modCore_pf (s : State) (c : Nat) (f : Core → Core) : (s.modCore c f).pf = s.pf := rfl
@[simp] theorem State.modCore_hostWin (s : State) (c : Nat) (f : Core → Core) : (s.modCore c f).hostWin = s.hostWin := rfl
@[simp] theorem State.modCore_hostq (s : State) (c : Nat) (f : Core → Core) : (s.modCore c f).hostq = s.hostq := rfl
@[simp] theorem State.modCore_msix (s : State) (c : Nat) (f : Core → Core) : (s.modCore c f).msix = s.msix := rfl
@[simp] theorem State.modCore_staging (s : State) (c : Nat) (f : Core → Core) : (s.modCore c f).staging = s.staging := rfl
@[simp] theorem State.modCore_bodies (s : State) (c : Nat) (f : Core → Core) : (s.modCore c f).bodies = s.bodies := rfl
@[simp] theorem State.modCore_meas (s : State) (c : Nat) (f : Core → Core) : (s.modCore c f).meas = s.meas := rfl
@[simp] theorem State.modCore_leaf (s : State) (c : Nat) (f : Core → Core) : (s.modCore c f).leaf = s.leaf := rfl
@[simp] theorem State.modCore_chrono (s : State) (c : Nat) (f : Core → Core) : (s.modCore c f).chrono = s.chrono := rfl
@[simp] theorem State.modCore_chLeftOut (s : State) (c : Nat) (f : Core → Core) : (s.modCore c f).chLeftOut = s.chLeftOut := rfl
@[simp] theorem State.modCore_lifeCorr (s : State) (c : Nat) (f : Core → Core) : (s.modCore c f).lifeCorr = s.lifeCorr := rfl
@[simp] theorem State.modCore_lifeTemp (s : State) (c : Nat) (f : Core → Core) : (s.modCore c f).lifeTemp = s.lifeTemp := rfl
@[simp] theorem State.modCore_lifeBin (s : State) (c : Nat) (f : Core → Core) : (s.modCore c f).lifeBin = s.lifeBin := rfl
@[simp] theorem State.modCore_powered (s : State) (c : Nat) (f : Core → Core) : (s.modCore c f).powered = s.powered := rfl
@[simp] theorem State.modCore_tempAt (s : State) (c : Nat) (f : Core → Core) : (s.modCore c f).tempAt = s.tempAt := rfl
@[simp] theorem State.modCore_lifePair (s : State) (c : Nat) (f : Core → Core) : (s.modCore c f).lifePair = s.lifePair := rfl
@[simp] theorem State.modCore_time (s : State) (c : Nat) (f : Core → Core) : (s.modCore c f).time = s.time := rfl
@[simp] theorem State.modCore_ppm (s : State) (c : Nat) (f : Core → Core) : (s.modCore c f).ppm = s.ppm := rfl
@[simp] theorem State.modCore_pkg (s : State) (c : Nat) (f : Core → Core) : (s.modCore c f).pkg = s.pkg := rfl
@[simp] theorem State.modCore_shut (s : State) (c : Nat) (f : Core → Core) : (s.modCore c f).shut = s.shut := rfl
@[simp] theorem State.modCore_turn (s : State) (c : Nat) (f : Core → Core) : (s.modCore c f).turn = s.turn := rfl
@[simp] theorem State.modCore_agenda (s : State) (c : Nat) (f : Core → Core) : (s.modCore c f).agenda = s.agenda := rfl
@[simp] theorem State.modCore_steps (s : State) (c : Nat) (f : Core → Core) : (s.modCore c f).steps = s.steps := rfl

@[simp] theorem State.setCtx_clusters (s : State) (c t : Nat) (x : Ctx) : (s.setCtx c t x).clusters = s.clusters := rfl
@[simp] theorem State.setCtx_mem (s : State) (c t : Nat) (x : Ctx) : (s.setCtx c t x).mem = s.mem := rfl
@[simp] theorem State.setCtx_poison (s : State) (c t : Nat) (x : Ctx) : (s.setCtx c t x).poison = s.poison := rfl
@[simp] theorem State.setCtx_ecc (s : State) (c t : Nat) (x : Ctx) : (s.setCtx c t x).ecc = s.ecc := rfl
@[simp] theorem State.setCtx_hostBuf (s : State) (c t : Nat) (x : Ctx) : (s.setCtx c t x).hostBuf = s.hostBuf := rfl
@[simp] theorem State.setCtx_flight (s : State) (c t : Nat) (x : Ctx) : (s.setCtx c t x).flight = s.flight := rfl
@[simp] theorem State.setCtx_invs (s : State) (c t : Nat) (x : Ctx) : (s.setCtx c t x).invs = s.invs := rfl
@[simp] theorem State.setCtx_nextInv (s : State) (c t : Nat) (x : Ctx) : (s.setCtx c t x).nextInv = s.nextInv := rfl
@[simp] theorem State.setCtx_walkTurn (s : State) (c t : Nat) (x : Ctx) : (s.setCtx c t x).walkTurn = s.walkTurn := rfl
@[simp] theorem State.setCtx_regions (s : State) (c t : Nat) (x : Ctx) : (s.setCtx c t x).regions = s.regions := rfl
@[simp] theorem State.setCtx_chans (s : State) (c t : Nat) (x : Ctx) : (s.setCtx c t x).chans = s.chans := rfl
@[simp] theorem State.setCtx_resvs (s : State) (c t : Nat) (x : Ctx) : (s.setCtx c t x).resvs = s.resvs := rfl
@[simp] theorem State.setCtx_rounds (s : State) (c t : Nat) (x : Ctx) : (s.setCtx c t x).rounds = s.rounds := rfl
@[simp] theorem State.setCtx_permits (s : State) (c t : Nat) (x : Ctx) : (s.setCtx c t x).permits = s.permits := rfl
@[simp] theorem State.setCtx_trees (s : State) (c t : Nat) (x : Ctx) : (s.setCtx c t x).trees = s.trees := rfl
@[simp] theorem State.setCtx_saved (s : State) (c t : Nat) (x : Ctx) : (s.setCtx c t x).saved = s.saved := rfl
@[simp] theorem State.setCtx_tenants (s : State) (c t : Nat) (x : Ctx) : (s.setCtx c t x).tenants = s.tenants := rfl
@[simp] theorem State.setCtx_cmds (s : State) (c t : Nat) (x : Ctx) : (s.setCtx c t x).cmds = s.cmds := rfl
@[simp] theorem State.setCtx_faults (s : State) (c t : Nat) (x : Ctx) : (s.setCtx c t x).faults = s.faults := rfl
@[simp] theorem State.setCtx_link (s : State) (c t : Nat) (x : Ctx) : (s.setCtx c t x).link = s.link := rfl
@[simp] theorem State.setCtx_ports (s : State) (c t : Nat) (x : Ctx) : (s.setCtx c t x).ports = s.ports := rfl
@[simp] theorem State.setCtx_windows (s : State) (c t : Nat) (x : Ctx) : (s.setCtx c t x).windows = s.windows := rfl
@[simp] theorem State.setCtx_pf (s : State) (c t : Nat) (x : Ctx) : (s.setCtx c t x).pf = s.pf := rfl
@[simp] theorem State.setCtx_hostWin (s : State) (c t : Nat) (x : Ctx) : (s.setCtx c t x).hostWin = s.hostWin := rfl
@[simp] theorem State.setCtx_hostq (s : State) (c t : Nat) (x : Ctx) : (s.setCtx c t x).hostq = s.hostq := rfl
@[simp] theorem State.setCtx_msix (s : State) (c t : Nat) (x : Ctx) : (s.setCtx c t x).msix = s.msix := rfl
@[simp] theorem State.setCtx_staging (s : State) (c t : Nat) (x : Ctx) : (s.setCtx c t x).staging = s.staging := rfl
@[simp] theorem State.setCtx_bodies (s : State) (c t : Nat) (x : Ctx) : (s.setCtx c t x).bodies = s.bodies := rfl
@[simp] theorem State.setCtx_meas (s : State) (c t : Nat) (x : Ctx) : (s.setCtx c t x).meas = s.meas := rfl
@[simp] theorem State.setCtx_leaf (s : State) (c t : Nat) (x : Ctx) : (s.setCtx c t x).leaf = s.leaf := rfl
@[simp] theorem State.setCtx_chrono (s : State) (c t : Nat) (x : Ctx) : (s.setCtx c t x).chrono = s.chrono := rfl
@[simp] theorem State.setCtx_chLeftOut (s : State) (c t : Nat) (x : Ctx) : (s.setCtx c t x).chLeftOut = s.chLeftOut := rfl
@[simp] theorem State.setCtx_lifeCorr (s : State) (c t : Nat) (x : Ctx) : (s.setCtx c t x).lifeCorr = s.lifeCorr := rfl
@[simp] theorem State.setCtx_lifeTemp (s : State) (c t : Nat) (x : Ctx) : (s.setCtx c t x).lifeTemp = s.lifeTemp := rfl
@[simp] theorem State.setCtx_lifeBin (s : State) (c t : Nat) (x : Ctx) : (s.setCtx c t x).lifeBin = s.lifeBin := rfl
@[simp] theorem State.setCtx_powered (s : State) (c t : Nat) (x : Ctx) : (s.setCtx c t x).powered = s.powered := rfl
@[simp] theorem State.setCtx_tempAt (s : State) (c t : Nat) (x : Ctx) : (s.setCtx c t x).tempAt = s.tempAt := rfl
@[simp] theorem State.setCtx_lifePair (s : State) (c t : Nat) (x : Ctx) : (s.setCtx c t x).lifePair = s.lifePair := rfl
@[simp] theorem State.setCtx_time (s : State) (c t : Nat) (x : Ctx) : (s.setCtx c t x).time = s.time := rfl
@[simp] theorem State.setCtx_ppm (s : State) (c t : Nat) (x : Ctx) : (s.setCtx c t x).ppm = s.ppm := rfl
@[simp] theorem State.setCtx_pkg (s : State) (c t : Nat) (x : Ctx) : (s.setCtx c t x).pkg = s.pkg := rfl
@[simp] theorem State.setCtx_shut (s : State) (c t : Nat) (x : Ctx) : (s.setCtx c t x).shut = s.shut := rfl
@[simp] theorem State.setCtx_turn (s : State) (c t : Nat) (x : Ctx) : (s.setCtx c t x).turn = s.turn := rfl
@[simp] theorem State.setCtx_agenda (s : State) (c t : Nat) (x : Ctx) : (s.setCtx c t x).agenda = s.agenda := rfl
@[simp] theorem State.setCtx_steps (s : State) (c t : Nat) (x : Ctx) : (s.setCtx c t x).steps = s.steps := rfl

@[simp] theorem State.modCtx_clusters (s : State) (c t : Nat) (f : Ctx → Ctx) : (s.modCtx c t f).clusters = s.clusters := rfl
@[simp] theorem State.modCtx_mem (s : State) (c t : Nat) (f : Ctx → Ctx) : (s.modCtx c t f).mem = s.mem := rfl
@[simp] theorem State.modCtx_poison (s : State) (c t : Nat) (f : Ctx → Ctx) : (s.modCtx c t f).poison = s.poison := rfl
@[simp] theorem State.modCtx_ecc (s : State) (c t : Nat) (f : Ctx → Ctx) : (s.modCtx c t f).ecc = s.ecc := rfl
@[simp] theorem State.modCtx_hostBuf (s : State) (c t : Nat) (f : Ctx → Ctx) : (s.modCtx c t f).hostBuf = s.hostBuf := rfl
@[simp] theorem State.modCtx_flight (s : State) (c t : Nat) (f : Ctx → Ctx) : (s.modCtx c t f).flight = s.flight := rfl
@[simp] theorem State.modCtx_invs (s : State) (c t : Nat) (f : Ctx → Ctx) : (s.modCtx c t f).invs = s.invs := rfl
@[simp] theorem State.modCtx_nextInv (s : State) (c t : Nat) (f : Ctx → Ctx) : (s.modCtx c t f).nextInv = s.nextInv := rfl
@[simp] theorem State.modCtx_walkTurn (s : State) (c t : Nat) (f : Ctx → Ctx) : (s.modCtx c t f).walkTurn = s.walkTurn := rfl
@[simp] theorem State.modCtx_regions (s : State) (c t : Nat) (f : Ctx → Ctx) : (s.modCtx c t f).regions = s.regions := rfl
@[simp] theorem State.modCtx_chans (s : State) (c t : Nat) (f : Ctx → Ctx) : (s.modCtx c t f).chans = s.chans := rfl
@[simp] theorem State.modCtx_resvs (s : State) (c t : Nat) (f : Ctx → Ctx) : (s.modCtx c t f).resvs = s.resvs := rfl
@[simp] theorem State.modCtx_rounds (s : State) (c t : Nat) (f : Ctx → Ctx) : (s.modCtx c t f).rounds = s.rounds := rfl
@[simp] theorem State.modCtx_permits (s : State) (c t : Nat) (f : Ctx → Ctx) : (s.modCtx c t f).permits = s.permits := rfl
@[simp] theorem State.modCtx_trees (s : State) (c t : Nat) (f : Ctx → Ctx) : (s.modCtx c t f).trees = s.trees := rfl
@[simp] theorem State.modCtx_saved (s : State) (c t : Nat) (f : Ctx → Ctx) : (s.modCtx c t f).saved = s.saved := rfl
@[simp] theorem State.modCtx_tenants (s : State) (c t : Nat) (f : Ctx → Ctx) : (s.modCtx c t f).tenants = s.tenants := rfl
@[simp] theorem State.modCtx_cmds (s : State) (c t : Nat) (f : Ctx → Ctx) : (s.modCtx c t f).cmds = s.cmds := rfl
@[simp] theorem State.modCtx_faults (s : State) (c t : Nat) (f : Ctx → Ctx) : (s.modCtx c t f).faults = s.faults := rfl
@[simp] theorem State.modCtx_link (s : State) (c t : Nat) (f : Ctx → Ctx) : (s.modCtx c t f).link = s.link := rfl
@[simp] theorem State.modCtx_ports (s : State) (c t : Nat) (f : Ctx → Ctx) : (s.modCtx c t f).ports = s.ports := rfl
@[simp] theorem State.modCtx_windows (s : State) (c t : Nat) (f : Ctx → Ctx) : (s.modCtx c t f).windows = s.windows := rfl
@[simp] theorem State.modCtx_pf (s : State) (c t : Nat) (f : Ctx → Ctx) : (s.modCtx c t f).pf = s.pf := rfl
@[simp] theorem State.modCtx_hostWin (s : State) (c t : Nat) (f : Ctx → Ctx) : (s.modCtx c t f).hostWin = s.hostWin := rfl
@[simp] theorem State.modCtx_hostq (s : State) (c t : Nat) (f : Ctx → Ctx) : (s.modCtx c t f).hostq = s.hostq := rfl
@[simp] theorem State.modCtx_msix (s : State) (c t : Nat) (f : Ctx → Ctx) : (s.modCtx c t f).msix = s.msix := rfl
@[simp] theorem State.modCtx_staging (s : State) (c t : Nat) (f : Ctx → Ctx) : (s.modCtx c t f).staging = s.staging := rfl
@[simp] theorem State.modCtx_bodies (s : State) (c t : Nat) (f : Ctx → Ctx) : (s.modCtx c t f).bodies = s.bodies := rfl
@[simp] theorem State.modCtx_meas (s : State) (c t : Nat) (f : Ctx → Ctx) : (s.modCtx c t f).meas = s.meas := rfl
@[simp] theorem State.modCtx_leaf (s : State) (c t : Nat) (f : Ctx → Ctx) : (s.modCtx c t f).leaf = s.leaf := rfl
@[simp] theorem State.modCtx_chrono (s : State) (c t : Nat) (f : Ctx → Ctx) : (s.modCtx c t f).chrono = s.chrono := rfl
@[simp] theorem State.modCtx_chLeftOut (s : State) (c t : Nat) (f : Ctx → Ctx) : (s.modCtx c t f).chLeftOut = s.chLeftOut := rfl
@[simp] theorem State.modCtx_lifeCorr (s : State) (c t : Nat) (f : Ctx → Ctx) : (s.modCtx c t f).lifeCorr = s.lifeCorr := rfl
@[simp] theorem State.modCtx_lifeTemp (s : State) (c t : Nat) (f : Ctx → Ctx) : (s.modCtx c t f).lifeTemp = s.lifeTemp := rfl
@[simp] theorem State.modCtx_lifeBin (s : State) (c t : Nat) (f : Ctx → Ctx) : (s.modCtx c t f).lifeBin = s.lifeBin := rfl
@[simp] theorem State.modCtx_powered (s : State) (c t : Nat) (f : Ctx → Ctx) : (s.modCtx c t f).powered = s.powered := rfl
@[simp] theorem State.modCtx_tempAt (s : State) (c t : Nat) (f : Ctx → Ctx) : (s.modCtx c t f).tempAt = s.tempAt := rfl
@[simp] theorem State.modCtx_lifePair (s : State) (c t : Nat) (f : Ctx → Ctx) : (s.modCtx c t f).lifePair = s.lifePair := rfl
@[simp] theorem State.modCtx_time (s : State) (c t : Nat) (f : Ctx → Ctx) : (s.modCtx c t f).time = s.time := rfl
@[simp] theorem State.modCtx_ppm (s : State) (c t : Nat) (f : Ctx → Ctx) : (s.modCtx c t f).ppm = s.ppm := rfl
@[simp] theorem State.modCtx_pkg (s : State) (c t : Nat) (f : Ctx → Ctx) : (s.modCtx c t f).pkg = s.pkg := rfl
@[simp] theorem State.modCtx_shut (s : State) (c t : Nat) (f : Ctx → Ctx) : (s.modCtx c t f).shut = s.shut := rfl
@[simp] theorem State.modCtx_turn (s : State) (c t : Nat) (f : Ctx → Ctx) : (s.modCtx c t f).turn = s.turn := rfl
@[simp] theorem State.modCtx_agenda (s : State) (c t : Nat) (f : Ctx → Ctx) : (s.modCtx c t f).agenda = s.agenda := rfl
@[simp] theorem State.modCtx_steps (s : State) (c t : Nat) (f : Ctx → Ctx) : (s.modCtx c t f).steps = s.steps := rfl

@[simp] theorem State.modCluster_cores (s : State) (k : Nat) (f : Cluster → Cluster) : (s.modCluster k f).cores = s.cores := rfl
@[simp] theorem State.modCluster_mem (s : State) (k : Nat) (f : Cluster → Cluster) : (s.modCluster k f).mem = s.mem := rfl
@[simp] theorem State.modCluster_poison (s : State) (k : Nat) (f : Cluster → Cluster) : (s.modCluster k f).poison = s.poison := rfl
@[simp] theorem State.modCluster_ecc (s : State) (k : Nat) (f : Cluster → Cluster) : (s.modCluster k f).ecc = s.ecc := rfl
@[simp] theorem State.modCluster_hostBuf (s : State) (k : Nat) (f : Cluster → Cluster) : (s.modCluster k f).hostBuf = s.hostBuf := rfl
@[simp] theorem State.modCluster_flight (s : State) (k : Nat) (f : Cluster → Cluster) : (s.modCluster k f).flight = s.flight := rfl
@[simp] theorem State.modCluster_invs (s : State) (k : Nat) (f : Cluster → Cluster) : (s.modCluster k f).invs = s.invs := rfl
@[simp] theorem State.modCluster_nextInv (s : State) (k : Nat) (f : Cluster → Cluster) : (s.modCluster k f).nextInv = s.nextInv := rfl
@[simp] theorem State.modCluster_walkTurn (s : State) (k : Nat) (f : Cluster → Cluster) : (s.modCluster k f).walkTurn = s.walkTurn := rfl
@[simp] theorem State.modCluster_regions (s : State) (k : Nat) (f : Cluster → Cluster) : (s.modCluster k f).regions = s.regions := rfl
@[simp] theorem State.modCluster_chans (s : State) (k : Nat) (f : Cluster → Cluster) : (s.modCluster k f).chans = s.chans := rfl
@[simp] theorem State.modCluster_resvs (s : State) (k : Nat) (f : Cluster → Cluster) : (s.modCluster k f).resvs = s.resvs := rfl
@[simp] theorem State.modCluster_rounds (s : State) (k : Nat) (f : Cluster → Cluster) : (s.modCluster k f).rounds = s.rounds := rfl
@[simp] theorem State.modCluster_permits (s : State) (k : Nat) (f : Cluster → Cluster) : (s.modCluster k f).permits = s.permits := rfl
@[simp] theorem State.modCluster_trees (s : State) (k : Nat) (f : Cluster → Cluster) : (s.modCluster k f).trees = s.trees := rfl
@[simp] theorem State.modCluster_saved (s : State) (k : Nat) (f : Cluster → Cluster) : (s.modCluster k f).saved = s.saved := rfl
@[simp] theorem State.modCluster_tenants (s : State) (k : Nat) (f : Cluster → Cluster) : (s.modCluster k f).tenants = s.tenants := rfl
@[simp] theorem State.modCluster_cmds (s : State) (k : Nat) (f : Cluster → Cluster) : (s.modCluster k f).cmds = s.cmds := rfl
@[simp] theorem State.modCluster_faults (s : State) (k : Nat) (f : Cluster → Cluster) : (s.modCluster k f).faults = s.faults := rfl
@[simp] theorem State.modCluster_link (s : State) (k : Nat) (f : Cluster → Cluster) : (s.modCluster k f).link = s.link := rfl
@[simp] theorem State.modCluster_ports (s : State) (k : Nat) (f : Cluster → Cluster) : (s.modCluster k f).ports = s.ports := rfl
@[simp] theorem State.modCluster_windows (s : State) (k : Nat) (f : Cluster → Cluster) : (s.modCluster k f).windows = s.windows := rfl
@[simp] theorem State.modCluster_pf (s : State) (k : Nat) (f : Cluster → Cluster) : (s.modCluster k f).pf = s.pf := rfl
@[simp] theorem State.modCluster_hostWin (s : State) (k : Nat) (f : Cluster → Cluster) : (s.modCluster k f).hostWin = s.hostWin := rfl
@[simp] theorem State.modCluster_hostq (s : State) (k : Nat) (f : Cluster → Cluster) : (s.modCluster k f).hostq = s.hostq := rfl
@[simp] theorem State.modCluster_msix (s : State) (k : Nat) (f : Cluster → Cluster) : (s.modCluster k f).msix = s.msix := rfl
@[simp] theorem State.modCluster_staging (s : State) (k : Nat) (f : Cluster → Cluster) : (s.modCluster k f).staging = s.staging := rfl
@[simp] theorem State.modCluster_bodies (s : State) (k : Nat) (f : Cluster → Cluster) : (s.modCluster k f).bodies = s.bodies := rfl
@[simp] theorem State.modCluster_meas (s : State) (k : Nat) (f : Cluster → Cluster) : (s.modCluster k f).meas = s.meas := rfl
@[simp] theorem State.modCluster_leaf (s : State) (k : Nat) (f : Cluster → Cluster) : (s.modCluster k f).leaf = s.leaf := rfl
@[simp] theorem State.modCluster_chrono (s : State) (k : Nat) (f : Cluster → Cluster) : (s.modCluster k f).chrono = s.chrono := rfl
@[simp] theorem State.modCluster_chLeftOut (s : State) (k : Nat) (f : Cluster → Cluster) : (s.modCluster k f).chLeftOut = s.chLeftOut := rfl
@[simp] theorem State.modCluster_lifeCorr (s : State) (k : Nat) (f : Cluster → Cluster) : (s.modCluster k f).lifeCorr = s.lifeCorr := rfl
@[simp] theorem State.modCluster_lifeTemp (s : State) (k : Nat) (f : Cluster → Cluster) : (s.modCluster k f).lifeTemp = s.lifeTemp := rfl
@[simp] theorem State.modCluster_lifeBin (s : State) (k : Nat) (f : Cluster → Cluster) : (s.modCluster k f).lifeBin = s.lifeBin := rfl
@[simp] theorem State.modCluster_powered (s : State) (k : Nat) (f : Cluster → Cluster) : (s.modCluster k f).powered = s.powered := rfl
@[simp] theorem State.modCluster_tempAt (s : State) (k : Nat) (f : Cluster → Cluster) : (s.modCluster k f).tempAt = s.tempAt := rfl
@[simp] theorem State.modCluster_lifePair (s : State) (k : Nat) (f : Cluster → Cluster) : (s.modCluster k f).lifePair = s.lifePair := rfl
@[simp] theorem State.modCluster_time (s : State) (k : Nat) (f : Cluster → Cluster) : (s.modCluster k f).time = s.time := rfl
@[simp] theorem State.modCluster_ppm (s : State) (k : Nat) (f : Cluster → Cluster) : (s.modCluster k f).ppm = s.ppm := rfl
@[simp] theorem State.modCluster_pkg (s : State) (k : Nat) (f : Cluster → Cluster) : (s.modCluster k f).pkg = s.pkg := rfl
@[simp] theorem State.modCluster_shut (s : State) (k : Nat) (f : Cluster → Cluster) : (s.modCluster k f).shut = s.shut := rfl
@[simp] theorem State.modCluster_turn (s : State) (k : Nat) (f : Cluster → Cluster) : (s.modCluster k f).turn = s.turn := rfl
@[simp] theorem State.modCluster_agenda (s : State) (k : Nat) (f : Cluster → Cluster) : (s.modCluster k f).agenda = s.agenda := rfl
@[simp] theorem State.modCluster_steps (s : State) (k : Nat) (f : Cluster → Cluster) : (s.modCluster k f).steps = s.steps := rfl

@[simp] theorem State.wrBytes_cores (s : State) (pa : Nat) (bs : List Byte) : (s.wrBytes pa bs).cores = s.cores := rfl
@[simp] theorem State.wrBytes_clusters (s : State) (pa : Nat) (bs : List Byte) : (s.wrBytes pa bs).clusters = s.clusters := rfl
@[simp] theorem State.wrBytes_ecc (s : State) (pa : Nat) (bs : List Byte) : (s.wrBytes pa bs).ecc = s.ecc := rfl
@[simp] theorem State.wrBytes_hostBuf (s : State) (pa : Nat) (bs : List Byte) : (s.wrBytes pa bs).hostBuf = s.hostBuf := rfl
@[simp] theorem State.wrBytes_flight (s : State) (pa : Nat) (bs : List Byte) : (s.wrBytes pa bs).flight = s.flight := rfl
@[simp] theorem State.wrBytes_invs (s : State) (pa : Nat) (bs : List Byte) : (s.wrBytes pa bs).invs = s.invs := rfl
@[simp] theorem State.wrBytes_nextInv (s : State) (pa : Nat) (bs : List Byte) : (s.wrBytes pa bs).nextInv = s.nextInv := rfl
@[simp] theorem State.wrBytes_walkTurn (s : State) (pa : Nat) (bs : List Byte) : (s.wrBytes pa bs).walkTurn = s.walkTurn := rfl
@[simp] theorem State.wrBytes_regions (s : State) (pa : Nat) (bs : List Byte) : (s.wrBytes pa bs).regions = s.regions := rfl
@[simp] theorem State.wrBytes_chans (s : State) (pa : Nat) (bs : List Byte) : (s.wrBytes pa bs).chans = s.chans := rfl
@[simp] theorem State.wrBytes_resvs (s : State) (pa : Nat) (bs : List Byte) : (s.wrBytes pa bs).resvs = s.resvs := rfl
@[simp] theorem State.wrBytes_rounds (s : State) (pa : Nat) (bs : List Byte) : (s.wrBytes pa bs).rounds = s.rounds := rfl
@[simp] theorem State.wrBytes_permits (s : State) (pa : Nat) (bs : List Byte) : (s.wrBytes pa bs).permits = s.permits := rfl
@[simp] theorem State.wrBytes_trees (s : State) (pa : Nat) (bs : List Byte) : (s.wrBytes pa bs).trees = s.trees := rfl
@[simp] theorem State.wrBytes_saved (s : State) (pa : Nat) (bs : List Byte) : (s.wrBytes pa bs).saved = s.saved := rfl
@[simp] theorem State.wrBytes_tenants (s : State) (pa : Nat) (bs : List Byte) : (s.wrBytes pa bs).tenants = s.tenants := rfl
@[simp] theorem State.wrBytes_cmds (s : State) (pa : Nat) (bs : List Byte) : (s.wrBytes pa bs).cmds = s.cmds := rfl
@[simp] theorem State.wrBytes_faults (s : State) (pa : Nat) (bs : List Byte) : (s.wrBytes pa bs).faults = s.faults := rfl
@[simp] theorem State.wrBytes_link (s : State) (pa : Nat) (bs : List Byte) : (s.wrBytes pa bs).link = s.link := rfl
@[simp] theorem State.wrBytes_ports (s : State) (pa : Nat) (bs : List Byte) : (s.wrBytes pa bs).ports = s.ports := rfl
@[simp] theorem State.wrBytes_windows (s : State) (pa : Nat) (bs : List Byte) : (s.wrBytes pa bs).windows = s.windows := rfl
@[simp] theorem State.wrBytes_pf (s : State) (pa : Nat) (bs : List Byte) : (s.wrBytes pa bs).pf = s.pf := rfl
@[simp] theorem State.wrBytes_hostWin (s : State) (pa : Nat) (bs : List Byte) : (s.wrBytes pa bs).hostWin = s.hostWin := rfl
@[simp] theorem State.wrBytes_hostq (s : State) (pa : Nat) (bs : List Byte) : (s.wrBytes pa bs).hostq = s.hostq := rfl
@[simp] theorem State.wrBytes_msix (s : State) (pa : Nat) (bs : List Byte) : (s.wrBytes pa bs).msix = s.msix := rfl
@[simp] theorem State.wrBytes_staging (s : State) (pa : Nat) (bs : List Byte) : (s.wrBytes pa bs).staging = s.staging := rfl
@[simp] theorem State.wrBytes_bodies (s : State) (pa : Nat) (bs : List Byte) : (s.wrBytes pa bs).bodies = s.bodies := rfl
@[simp] theorem State.wrBytes_meas (s : State) (pa : Nat) (bs : List Byte) : (s.wrBytes pa bs).meas = s.meas := rfl
@[simp] theorem State.wrBytes_leaf (s : State) (pa : Nat) (bs : List Byte) : (s.wrBytes pa bs).leaf = s.leaf := rfl
@[simp] theorem State.wrBytes_chrono (s : State) (pa : Nat) (bs : List Byte) : (s.wrBytes pa bs).chrono = s.chrono := rfl
@[simp] theorem State.wrBytes_chLeftOut (s : State) (pa : Nat) (bs : List Byte) : (s.wrBytes pa bs).chLeftOut = s.chLeftOut := rfl
@[simp] theorem State.wrBytes_lifeCorr (s : State) (pa : Nat) (bs : List Byte) : (s.wrBytes pa bs).lifeCorr = s.lifeCorr := rfl
@[simp] theorem State.wrBytes_lifeTemp (s : State) (pa : Nat) (bs : List Byte) : (s.wrBytes pa bs).lifeTemp = s.lifeTemp := rfl
@[simp] theorem State.wrBytes_lifeBin (s : State) (pa : Nat) (bs : List Byte) : (s.wrBytes pa bs).lifeBin = s.lifeBin := rfl
@[simp] theorem State.wrBytes_powered (s : State) (pa : Nat) (bs : List Byte) : (s.wrBytes pa bs).powered = s.powered := rfl
@[simp] theorem State.wrBytes_tempAt (s : State) (pa : Nat) (bs : List Byte) : (s.wrBytes pa bs).tempAt = s.tempAt := rfl
@[simp] theorem State.wrBytes_lifePair (s : State) (pa : Nat) (bs : List Byte) : (s.wrBytes pa bs).lifePair = s.lifePair := rfl
@[simp] theorem State.wrBytes_time (s : State) (pa : Nat) (bs : List Byte) : (s.wrBytes pa bs).time = s.time := rfl
@[simp] theorem State.wrBytes_ppm (s : State) (pa : Nat) (bs : List Byte) : (s.wrBytes pa bs).ppm = s.ppm := rfl
@[simp] theorem State.wrBytes_pkg (s : State) (pa : Nat) (bs : List Byte) : (s.wrBytes pa bs).pkg = s.pkg := rfl
@[simp] theorem State.wrBytes_shut (s : State) (pa : Nat) (bs : List Byte) : (s.wrBytes pa bs).shut = s.shut := rfl
@[simp] theorem State.wrBytes_turn (s : State) (pa : Nat) (bs : List Byte) : (s.wrBytes pa bs).turn = s.turn := rfl
@[simp] theorem State.wrBytes_agenda (s : State) (pa : Nat) (bs : List Byte) : (s.wrBytes pa bs).agenda = s.agenda := rfl
@[simp] theorem State.wrBytes_steps (s : State) (pa : Nat) (bs : List Byte) : (s.wrBytes pa bs).steps = s.steps := rfl

@[simp] theorem State.fly_cores (s : State) (a b : Nat) (y : Body) (r : Option Nat) (p : BitVec 60) : (s.fly a b y r p).cores = s.cores := rfl
@[simp] theorem State.fly_clusters (s : State) (a b : Nat) (y : Body) (r : Option Nat) (p : BitVec 60) : (s.fly a b y r p).clusters = s.clusters := rfl
@[simp] theorem State.fly_mem (s : State) (a b : Nat) (y : Body) (r : Option Nat) (p : BitVec 60) : (s.fly a b y r p).mem = s.mem := rfl
@[simp] theorem State.fly_poison (s : State) (a b : Nat) (y : Body) (r : Option Nat) (p : BitVec 60) : (s.fly a b y r p).poison = s.poison := rfl
@[simp] theorem State.fly_ecc (s : State) (a b : Nat) (y : Body) (r : Option Nat) (p : BitVec 60) : (s.fly a b y r p).ecc = s.ecc := rfl
@[simp] theorem State.fly_hostBuf (s : State) (a b : Nat) (y : Body) (r : Option Nat) (p : BitVec 60) : (s.fly a b y r p).hostBuf = s.hostBuf := rfl
@[simp] theorem State.fly_invs (s : State) (a b : Nat) (y : Body) (r : Option Nat) (p : BitVec 60) : (s.fly a b y r p).invs = s.invs := rfl
@[simp] theorem State.fly_nextInv (s : State) (a b : Nat) (y : Body) (r : Option Nat) (p : BitVec 60) : (s.fly a b y r p).nextInv = s.nextInv := rfl
@[simp] theorem State.fly_walkTurn (s : State) (a b : Nat) (y : Body) (r : Option Nat) (p : BitVec 60) : (s.fly a b y r p).walkTurn = s.walkTurn := rfl
@[simp] theorem State.fly_regions (s : State) (a b : Nat) (y : Body) (r : Option Nat) (p : BitVec 60) : (s.fly a b y r p).regions = s.regions := rfl
@[simp] theorem State.fly_chans (s : State) (a b : Nat) (y : Body) (r : Option Nat) (p : BitVec 60) : (s.fly a b y r p).chans = s.chans := rfl
@[simp] theorem State.fly_resvs (s : State) (a b : Nat) (y : Body) (r : Option Nat) (p : BitVec 60) : (s.fly a b y r p).resvs = s.resvs := rfl
@[simp] theorem State.fly_rounds (s : State) (a b : Nat) (y : Body) (r : Option Nat) (p : BitVec 60) : (s.fly a b y r p).rounds = s.rounds := rfl
@[simp] theorem State.fly_permits (s : State) (a b : Nat) (y : Body) (r : Option Nat) (p : BitVec 60) : (s.fly a b y r p).permits = s.permits := rfl
@[simp] theorem State.fly_trees (s : State) (a b : Nat) (y : Body) (r : Option Nat) (p : BitVec 60) : (s.fly a b y r p).trees = s.trees := rfl
@[simp] theorem State.fly_saved (s : State) (a b : Nat) (y : Body) (r : Option Nat) (p : BitVec 60) : (s.fly a b y r p).saved = s.saved := rfl
@[simp] theorem State.fly_tenants (s : State) (a b : Nat) (y : Body) (r : Option Nat) (p : BitVec 60) : (s.fly a b y r p).tenants = s.tenants := rfl
@[simp] theorem State.fly_cmds (s : State) (a b : Nat) (y : Body) (r : Option Nat) (p : BitVec 60) : (s.fly a b y r p).cmds = s.cmds := rfl
@[simp] theorem State.fly_faults (s : State) (a b : Nat) (y : Body) (r : Option Nat) (p : BitVec 60) : (s.fly a b y r p).faults = s.faults := rfl
@[simp] theorem State.fly_link (s : State) (a b : Nat) (y : Body) (r : Option Nat) (p : BitVec 60) : (s.fly a b y r p).link = s.link := rfl
@[simp] theorem State.fly_ports (s : State) (a b : Nat) (y : Body) (r : Option Nat) (p : BitVec 60) : (s.fly a b y r p).ports = s.ports := rfl
@[simp] theorem State.fly_windows (s : State) (a b : Nat) (y : Body) (r : Option Nat) (p : BitVec 60) : (s.fly a b y r p).windows = s.windows := rfl
@[simp] theorem State.fly_pf (s : State) (a b : Nat) (y : Body) (r : Option Nat) (p : BitVec 60) : (s.fly a b y r p).pf = s.pf := rfl
@[simp] theorem State.fly_hostWin (s : State) (a b : Nat) (y : Body) (r : Option Nat) (p : BitVec 60) : (s.fly a b y r p).hostWin = s.hostWin := rfl
@[simp] theorem State.fly_hostq (s : State) (a b : Nat) (y : Body) (r : Option Nat) (p : BitVec 60) : (s.fly a b y r p).hostq = s.hostq := rfl
@[simp] theorem State.fly_msix (s : State) (a b : Nat) (y : Body) (r : Option Nat) (p : BitVec 60) : (s.fly a b y r p).msix = s.msix := rfl
@[simp] theorem State.fly_staging (s : State) (a b : Nat) (y : Body) (r : Option Nat) (p : BitVec 60) : (s.fly a b y r p).staging = s.staging := rfl
@[simp] theorem State.fly_bodies (s : State) (a b : Nat) (y : Body) (r : Option Nat) (p : BitVec 60) : (s.fly a b y r p).bodies = s.bodies := rfl
@[simp] theorem State.fly_meas (s : State) (a b : Nat) (y : Body) (r : Option Nat) (p : BitVec 60) : (s.fly a b y r p).meas = s.meas := rfl
@[simp] theorem State.fly_leaf (s : State) (a b : Nat) (y : Body) (r : Option Nat) (p : BitVec 60) : (s.fly a b y r p).leaf = s.leaf := rfl
@[simp] theorem State.fly_chrono (s : State) (a b : Nat) (y : Body) (r : Option Nat) (p : BitVec 60) : (s.fly a b y r p).chrono = s.chrono := rfl
@[simp] theorem State.fly_chLeftOut (s : State) (a b : Nat) (y : Body) (r : Option Nat) (p : BitVec 60) : (s.fly a b y r p).chLeftOut = s.chLeftOut := rfl
@[simp] theorem State.fly_lifeCorr (s : State) (a b : Nat) (y : Body) (r : Option Nat) (p : BitVec 60) : (s.fly a b y r p).lifeCorr = s.lifeCorr := rfl
@[simp] theorem State.fly_lifeTemp (s : State) (a b : Nat) (y : Body) (r : Option Nat) (p : BitVec 60) : (s.fly a b y r p).lifeTemp = s.lifeTemp := rfl
@[simp] theorem State.fly_lifeBin (s : State) (a b : Nat) (y : Body) (r : Option Nat) (p : BitVec 60) : (s.fly a b y r p).lifeBin = s.lifeBin := rfl
@[simp] theorem State.fly_powered (s : State) (a b : Nat) (y : Body) (r : Option Nat) (p : BitVec 60) : (s.fly a b y r p).powered = s.powered := rfl
@[simp] theorem State.fly_tempAt (s : State) (a b : Nat) (y : Body) (r : Option Nat) (p : BitVec 60) : (s.fly a b y r p).tempAt = s.tempAt := rfl
@[simp] theorem State.fly_lifePair (s : State) (a b : Nat) (y : Body) (r : Option Nat) (p : BitVec 60) : (s.fly a b y r p).lifePair = s.lifePair := rfl
@[simp] theorem State.fly_time (s : State) (a b : Nat) (y : Body) (r : Option Nat) (p : BitVec 60) : (s.fly a b y r p).time = s.time := rfl
@[simp] theorem State.fly_ppm (s : State) (a b : Nat) (y : Body) (r : Option Nat) (p : BitVec 60) : (s.fly a b y r p).ppm = s.ppm := rfl
@[simp] theorem State.fly_pkg (s : State) (a b : Nat) (y : Body) (r : Option Nat) (p : BitVec 60) : (s.fly a b y r p).pkg = s.pkg := rfl
@[simp] theorem State.fly_shut (s : State) (a b : Nat) (y : Body) (r : Option Nat) (p : BitVec 60) : (s.fly a b y r p).shut = s.shut := rfl
@[simp] theorem State.fly_turn (s : State) (a b : Nat) (y : Body) (r : Option Nat) (p : BitVec 60) : (s.fly a b y r p).turn = s.turn := rfl
@[simp] theorem State.fly_agenda (s : State) (a b : Nat) (y : Body) (r : Option Nat) (p : BitVec 60) : (s.fly a b y r p).agenda = s.agenda := rfl
@[simp] theorem State.fly_steps (s : State) (a b : Nat) (y : Body) (r : Option Nat) (p : BitVec 60) : (s.fly a b y r p).steps = s.steps := rfl

@[simp] theorem State.land_cores (s : State) (i : Nat) : (s.land i).cores = s.cores := rfl
@[simp] theorem State.land_clusters (s : State) (i : Nat) : (s.land i).clusters = s.clusters := rfl
@[simp] theorem State.land_mem (s : State) (i : Nat) : (s.land i).mem = s.mem := rfl
@[simp] theorem State.land_poison (s : State) (i : Nat) : (s.land i).poison = s.poison := rfl
@[simp] theorem State.land_ecc (s : State) (i : Nat) : (s.land i).ecc = s.ecc := rfl
@[simp] theorem State.land_hostBuf (s : State) (i : Nat) : (s.land i).hostBuf = s.hostBuf := rfl
@[simp] theorem State.land_invs (s : State) (i : Nat) : (s.land i).invs = s.invs := rfl
@[simp] theorem State.land_nextInv (s : State) (i : Nat) : (s.land i).nextInv = s.nextInv := rfl
@[simp] theorem State.land_walkTurn (s : State) (i : Nat) : (s.land i).walkTurn = s.walkTurn := rfl
@[simp] theorem State.land_regions (s : State) (i : Nat) : (s.land i).regions = s.regions := rfl
@[simp] theorem State.land_chans (s : State) (i : Nat) : (s.land i).chans = s.chans := rfl
@[simp] theorem State.land_resvs (s : State) (i : Nat) : (s.land i).resvs = s.resvs := rfl
@[simp] theorem State.land_rounds (s : State) (i : Nat) : (s.land i).rounds = s.rounds := rfl
@[simp] theorem State.land_permits (s : State) (i : Nat) : (s.land i).permits = s.permits := rfl
@[simp] theorem State.land_trees (s : State) (i : Nat) : (s.land i).trees = s.trees := rfl
@[simp] theorem State.land_saved (s : State) (i : Nat) : (s.land i).saved = s.saved := rfl
@[simp] theorem State.land_tenants (s : State) (i : Nat) : (s.land i).tenants = s.tenants := rfl
@[simp] theorem State.land_cmds (s : State) (i : Nat) : (s.land i).cmds = s.cmds := rfl
@[simp] theorem State.land_faults (s : State) (i : Nat) : (s.land i).faults = s.faults := rfl
@[simp] theorem State.land_link (s : State) (i : Nat) : (s.land i).link = s.link := rfl
@[simp] theorem State.land_ports (s : State) (i : Nat) : (s.land i).ports = s.ports := rfl
@[simp] theorem State.land_windows (s : State) (i : Nat) : (s.land i).windows = s.windows := rfl
@[simp] theorem State.land_pf (s : State) (i : Nat) : (s.land i).pf = s.pf := rfl
@[simp] theorem State.land_hostWin (s : State) (i : Nat) : (s.land i).hostWin = s.hostWin := rfl
@[simp] theorem State.land_hostq (s : State) (i : Nat) : (s.land i).hostq = s.hostq := rfl
@[simp] theorem State.land_msix (s : State) (i : Nat) : (s.land i).msix = s.msix := rfl
@[simp] theorem State.land_staging (s : State) (i : Nat) : (s.land i).staging = s.staging := rfl
@[simp] theorem State.land_bodies (s : State) (i : Nat) : (s.land i).bodies = s.bodies := rfl
@[simp] theorem State.land_meas (s : State) (i : Nat) : (s.land i).meas = s.meas := rfl
@[simp] theorem State.land_leaf (s : State) (i : Nat) : (s.land i).leaf = s.leaf := rfl
@[simp] theorem State.land_chrono (s : State) (i : Nat) : (s.land i).chrono = s.chrono := rfl
@[simp] theorem State.land_chLeftOut (s : State) (i : Nat) : (s.land i).chLeftOut = s.chLeftOut := rfl
@[simp] theorem State.land_lifeCorr (s : State) (i : Nat) : (s.land i).lifeCorr = s.lifeCorr := rfl
@[simp] theorem State.land_lifeTemp (s : State) (i : Nat) : (s.land i).lifeTemp = s.lifeTemp := rfl
@[simp] theorem State.land_lifeBin (s : State) (i : Nat) : (s.land i).lifeBin = s.lifeBin := rfl
@[simp] theorem State.land_powered (s : State) (i : Nat) : (s.land i).powered = s.powered := rfl
@[simp] theorem State.land_tempAt (s : State) (i : Nat) : (s.land i).tempAt = s.tempAt := rfl
@[simp] theorem State.land_lifePair (s : State) (i : Nat) : (s.land i).lifePair = s.lifePair := rfl
@[simp] theorem State.land_time (s : State) (i : Nat) : (s.land i).time = s.time := rfl
@[simp] theorem State.land_ppm (s : State) (i : Nat) : (s.land i).ppm = s.ppm := rfl
@[simp] theorem State.land_pkg (s : State) (i : Nat) : (s.land i).pkg = s.pkg := rfl
@[simp] theorem State.land_shut (s : State) (i : Nat) : (s.land i).shut = s.shut := rfl
@[simp] theorem State.land_turn (s : State) (i : Nat) : (s.land i).turn = s.turn := rfl
@[simp] theorem State.land_agenda (s : State) (i : Nat) : (s.land i).agenda = s.agenda := rfl
@[simp] theorem State.land_steps (s : State) (i : Nat) : (s.land i).steps = s.steps := rfl

/-! ### Fields of a core under its updates -/

@[simp] theorem Core.modRing_ctxs (k : Core) (r : Nat) (f : Ring → Ring) : (k.modRing r f).ctxs = k.ctxs := rfl
@[simp] theorem Core.modRing_cycle (k : Core) (r : Nat) (f : Ring → Ring) : (k.modRing r f).cycle = k.cycle := rfl
@[simp] theorem Core.modRing_freeze (k : Core) (r : Nat) (f : Ring → Ring) : (k.modRing r f).freeze = k.freeze := rfl
@[simp] theorem Core.modRing_root (k : Core) (r : Nat) (f : Ring → Ring) : (k.modRing r f).root = k.root := rfl
@[simp] theorem Core.modRing_utlb (k : Core) (r : Nat) (f : Ring → Ring) : (k.modRing r f).utlb = k.utlb := rfl
@[simp] theorem Core.modRing_log (k : Core) (r : Nat) (f : Ring → Ring) : (k.modRing r f).log = k.log := rfl
@[simp] theorem Core.modRing_home (k : Core) (r : Nat) (f : Ring → Ring) : (k.modRing r f).home = k.home := rfl
@[simp] theorem Core.modRing_rbuf (k : Core) (r : Nat) (f : Ring → Ring) : (k.modRing r f).rbuf = k.rbuf := rfl
@[simp] theorem Core.modRing_aq (k : Core) (r : Nat) (f : Ring → Ring) : (k.modRing r f).aq = k.aq := rfl
@[simp] theorem Core.modRing_aspill (k : Core) (r : Nat) (f : Ring → Ring) : (k.modRing r f).aspill = k.aspill := rfl
@[simp] theorem Core.modRing_spilled (k : Core) (r : Nat) (f : Ring → Ring) : (k.modRing r f).spilled = k.spilled := rfl
@[simp] theorem Core.modRing_spillTail (k : Core) (r : Nat) (f : Ring → Ring) : (k.modRing r f).spillTail = k.spillTail := rfl
@[simp] theorem Core.modRing_dispAt (k : Core) (r : Nat) (f : Ring → Ring) : (k.modRing r f).dispAt = k.dispAt := rfl
@[simp] theorem Core.modRing_refAt (k : Core) (r : Nat) (f : Ring → Ring) : (k.modRing r f).refAt = k.refAt := rfl
@[simp] theorem Core.modRing_arrAt (k : Core) (r : Nat) (f : Ring → Ring) : (k.modRing r f).arrAt = k.arrAt := rfl
@[simp] theorem Core.modRing_mailAt (k : Core) (r : Nat) (f : Ring → Ring) : (k.modRing r f).mailAt = k.mailAt := rfl
@[simp] theorem Core.modRing_waits (k : Core) (r : Nat) (f : Ring → Ring) : (k.modRing r f).waits = k.waits := rfl
@[simp] theorem Core.modRing_notices (k : Core) (r : Nat) (f : Ring → Ring) : (k.modRing r f).notices = k.notices := rfl
@[simp] theorem Core.modRing_mail (k : Core) (r : Nat) (f : Ring → Ring) : (k.modRing r f).mail = k.mail := rfl
@[simp] theorem Core.modRing_ctrs (k : Core) (r : Nat) (f : Ring → Ring) : (k.modRing r f).ctrs = k.ctrs := rfl
@[simp] theorem Core.modRing_acts (k : Core) (r : Nat) (f : Ring → Ring) : (k.modRing r f).acts = k.acts := rfl
@[simp] theorem Core.modRing_staged (k : Core) (r : Nat) (f : Ring → Ring) : (k.modRing r f).staged = k.staged := rfl
@[simp] theorem Core.modRing_perf (k : Core) (r : Nat) (f : Ring → Ring) : (k.modRing r f).perf = k.perf := rfl
@[simp] theorem Core.modRing_dec (k : Core) (r : Nat) (f : Ring → Ring) : (k.modRing r f).dec = k.dec := rfl
@[simp] theorem Core.modRing_cur (k : Core) (r : Nat) (f : Ring → Ring) : (k.modRing r f).cur = k.cur := rfl
@[simp] theorem Core.modRing_curOwner (k : Core) (r : Nat) (f : Ring → Ring) : (k.modRing r f).curOwner = k.curOwner := rfl
@[simp] theorem Core.modRing_tload (k : Core) (r : Nat) (f : Ring → Ring) : (k.modRing r f).tload = k.tload := rfl
@[simp] theorem Core.modRing_acc (k : Core) (r : Nat) (f : Ring → Ring) : (k.modRing r f).acc = k.acc := rfl
@[simp] theorem Core.modRing_busy (k : Core) (r : Nat) (f : Ring → Ring) : (k.modRing r f).busy = k.busy := rfl
@[simp] theorem Core.modRing_mat (k : Core) (r : Nat) (f : Ring → Ring) : (k.modRing r f).mat = k.mat := rfl
@[simp] theorem Core.modRing_n0 (k : Core) (r : Nat) (f : Ring → Ring) : (k.modRing r f).n0 = k.n0 := rfl
@[simp] theorem Core.modRing_run (k : Core) (r : Nat) (f : Ring → Ring) : (k.modRing r f).run = k.run := rfl
@[simp] theorem Core.modRing_epi (k : Core) (r : Nat) (f : Ring → Ring) : (k.modRing r f).epi = k.epi := rfl
@[simp] theorem Core.modRing_cmdq (k : Core) (r : Nat) (f : Ring → Ring) : (k.modRing r f).cmdq = k.cmdq := rfl
@[simp] theorem Core.modRing_copies (k : Core) (r : Nat) (f : Ring → Ring) : (k.modRing r f).copies = k.copies := rfl
@[simp] theorem Core.modRing_gates (k : Core) (r : Nat) (f : Ring → Ring) : (k.modRing r f).gates = k.gates := rfl
@[simp] theorem Core.modRing_frames (k : Core) (r : Nat) (f : Ring → Ring) : (k.modRing r f).frames = k.frames := rfl
@[simp] theorem Core.modRing_chReq (k : Core) (r : Nat) (f : Ring → Ring) : (k.modRing r f).chReq = k.chReq := rfl
@[simp] theorem Core.modRing_chStat (k : Core) (r : Nat) (f : Ring → Ring) : (k.modRing r f).chStat = k.chStat := rfl
@[simp] theorem Core.modRing_chRecs (k : Core) (r : Nat) (f : Ring → Ring) : (k.modRing r f).chRecs = k.chRecs := rfl
@[simp] theorem Core.modRing_bin (k : Core) (r : Nat) (f : Ring → Ring) : (k.modRing r f).bin = k.bin := rfl
@[simp] theorem Core.modRing_oos (k : Core) (r : Nat) (f : Ring → Ring) : (k.modRing r f).oos = k.oos := rfl
@[simp] theorem Core.modRing_suspect (k : Core) (r : Nat) (f : Ring → Ring) : (k.modRing r f).suspect = k.suspect := rfl
@[simp] theorem Core.modRing_arrErr (k : Core) (r : Nat) (f : Ring → Ring) : (k.modRing r f).arrErr = k.arrErr := rfl
@[simp] theorem Core.modRing_halted (k : Core) (r : Nat) (f : Ring → Ring) : (k.modRing r f).halted = k.halted := rfl
@[simp] theorem Core.modRing_nextId (k : Core) (r : Nat) (f : Ring → Ring) : (k.modRing r f).nextId = k.nextId := rfl
@[simp] theorem Core.modRing_bankErrs (k : Core) (r : Nat) (f : Ring → Ring) : (k.modRing r f).bankErrs = k.bankErrs := rfl
@[simp] theorem Core.modRing_binNext (k : Core) (r : Nat) (f : Ring → Ring) : (k.modRing r f).binNext = k.binNext := rfl

@[simp] theorem Core.modCtr_ctxs (k : Core) (n : Nat) (f : Counter → Counter) : (k.modCtr n f).ctxs = k.ctxs := rfl
@[simp] theorem Core.modCtr_cycle (k : Core) (n : Nat) (f : Counter → Counter) : (k.modCtr n f).cycle = k.cycle := rfl
@[simp] theorem Core.modCtr_freeze (k : Core) (n : Nat) (f : Counter → Counter) : (k.modCtr n f).freeze = k.freeze := rfl
@[simp] theorem Core.modCtr_root (k : Core) (n : Nat) (f : Counter → Counter) : (k.modCtr n f).root = k.root := rfl
@[simp] theorem Core.modCtr_utlb (k : Core) (n : Nat) (f : Counter → Counter) : (k.modCtr n f).utlb = k.utlb := rfl
@[simp] theorem Core.modCtr_log (k : Core) (n : Nat) (f : Counter → Counter) : (k.modCtr n f).log = k.log := rfl
@[simp] theorem Core.modCtr_home (k : Core) (n : Nat) (f : Counter → Counter) : (k.modCtr n f).home = k.home := rfl
@[simp] theorem Core.modCtr_rbuf (k : Core) (n : Nat) (f : Counter → Counter) : (k.modCtr n f).rbuf = k.rbuf := rfl
@[simp] theorem Core.modCtr_aq (k : Core) (n : Nat) (f : Counter → Counter) : (k.modCtr n f).aq = k.aq := rfl
@[simp] theorem Core.modCtr_aspill (k : Core) (n : Nat) (f : Counter → Counter) : (k.modCtr n f).aspill = k.aspill := rfl
@[simp] theorem Core.modCtr_spilled (k : Core) (n : Nat) (f : Counter → Counter) : (k.modCtr n f).spilled = k.spilled := rfl
@[simp] theorem Core.modCtr_spillTail (k : Core) (n : Nat) (f : Counter → Counter) : (k.modCtr n f).spillTail = k.spillTail := rfl
@[simp] theorem Core.modCtr_dispAt (k : Core) (n : Nat) (f : Counter → Counter) : (k.modCtr n f).dispAt = k.dispAt := rfl
@[simp] theorem Core.modCtr_refAt (k : Core) (n : Nat) (f : Counter → Counter) : (k.modCtr n f).refAt = k.refAt := rfl
@[simp] theorem Core.modCtr_arrAt (k : Core) (n : Nat) (f : Counter → Counter) : (k.modCtr n f).arrAt = k.arrAt := rfl
@[simp] theorem Core.modCtr_mailAt (k : Core) (n : Nat) (f : Counter → Counter) : (k.modCtr n f).mailAt = k.mailAt := rfl
@[simp] theorem Core.modCtr_waits (k : Core) (n : Nat) (f : Counter → Counter) : (k.modCtr n f).waits = k.waits := rfl
@[simp] theorem Core.modCtr_notices (k : Core) (n : Nat) (f : Counter → Counter) : (k.modCtr n f).notices = k.notices := rfl
@[simp] theorem Core.modCtr_mail (k : Core) (n : Nat) (f : Counter → Counter) : (k.modCtr n f).mail = k.mail := rfl
@[simp] theorem Core.modCtr_rings (k : Core) (n : Nat) (f : Counter → Counter) : (k.modCtr n f).rings = k.rings := rfl
@[simp] theorem Core.modCtr_acts (k : Core) (n : Nat) (f : Counter → Counter) : (k.modCtr n f).acts = k.acts := rfl
@[simp] theorem Core.modCtr_staged (k : Core) (n : Nat) (f : Counter → Counter) : (k.modCtr n f).staged = k.staged := rfl
@[simp] theorem Core.modCtr_perf (k : Core) (n : Nat) (f : Counter → Counter) : (k.modCtr n f).perf = k.perf := rfl
@[simp] theorem Core.modCtr_dec (k : Core) (n : Nat) (f : Counter → Counter) : (k.modCtr n f).dec = k.dec := rfl
@[simp] theorem Core.modCtr_cur (k : Core) (n : Nat) (f : Counter → Counter) : (k.modCtr n f).cur = k.cur := rfl
@[simp] theorem Core.modCtr_curOwner (k : Core) (n : Nat) (f : Counter → Counter) : (k.modCtr n f).curOwner = k.curOwner := rfl
@[simp] theorem Core.modCtr_tload (k : Core) (n : Nat) (f : Counter → Counter) : (k.modCtr n f).tload = k.tload := rfl
@[simp] theorem Core.modCtr_acc (k : Core) (n : Nat) (f : Counter → Counter) : (k.modCtr n f).acc = k.acc := rfl
@[simp] theorem Core.modCtr_busy (k : Core) (n : Nat) (f : Counter → Counter) : (k.modCtr n f).busy = k.busy := rfl
@[simp] theorem Core.modCtr_mat (k : Core) (n : Nat) (f : Counter → Counter) : (k.modCtr n f).mat = k.mat := rfl
@[simp] theorem Core.modCtr_n0 (k : Core) (n : Nat) (f : Counter → Counter) : (k.modCtr n f).n0 = k.n0 := rfl
@[simp] theorem Core.modCtr_run (k : Core) (n : Nat) (f : Counter → Counter) : (k.modCtr n f).run = k.run := rfl
@[simp] theorem Core.modCtr_epi (k : Core) (n : Nat) (f : Counter → Counter) : (k.modCtr n f).epi = k.epi := rfl
@[simp] theorem Core.modCtr_cmdq (k : Core) (n : Nat) (f : Counter → Counter) : (k.modCtr n f).cmdq = k.cmdq := rfl
@[simp] theorem Core.modCtr_copies (k : Core) (n : Nat) (f : Counter → Counter) : (k.modCtr n f).copies = k.copies := rfl
@[simp] theorem Core.modCtr_gates (k : Core) (n : Nat) (f : Counter → Counter) : (k.modCtr n f).gates = k.gates := rfl
@[simp] theorem Core.modCtr_frames (k : Core) (n : Nat) (f : Counter → Counter) : (k.modCtr n f).frames = k.frames := rfl
@[simp] theorem Core.modCtr_chReq (k : Core) (n : Nat) (f : Counter → Counter) : (k.modCtr n f).chReq = k.chReq := rfl
@[simp] theorem Core.modCtr_chStat (k : Core) (n : Nat) (f : Counter → Counter) : (k.modCtr n f).chStat = k.chStat := rfl
@[simp] theorem Core.modCtr_chRecs (k : Core) (n : Nat) (f : Counter → Counter) : (k.modCtr n f).chRecs = k.chRecs := rfl
@[simp] theorem Core.modCtr_bin (k : Core) (n : Nat) (f : Counter → Counter) : (k.modCtr n f).bin = k.bin := rfl
@[simp] theorem Core.modCtr_oos (k : Core) (n : Nat) (f : Counter → Counter) : (k.modCtr n f).oos = k.oos := rfl
@[simp] theorem Core.modCtr_suspect (k : Core) (n : Nat) (f : Counter → Counter) : (k.modCtr n f).suspect = k.suspect := rfl
@[simp] theorem Core.modCtr_arrErr (k : Core) (n : Nat) (f : Counter → Counter) : (k.modCtr n f).arrErr = k.arrErr := rfl
@[simp] theorem Core.modCtr_halted (k : Core) (n : Nat) (f : Counter → Counter) : (k.modCtr n f).halted = k.halted := rfl
@[simp] theorem Core.modCtr_nextId (k : Core) (n : Nat) (f : Counter → Counter) : (k.modCtr n f).nextId = k.nextId := rfl
@[simp] theorem Core.modCtr_bankErrs (k : Core) (n : Nat) (f : Counter → Counter) : (k.modCtr n f).bankErrs = k.bankErrs := rfl
@[simp] theorem Core.modCtr_binNext (k : Core) (n : Nat) (f : Counter → Counter) : (k.modCtr n f).binNext = k.binNext := rfl

@[simp] theorem Core.perfAdd_ctxs (k : Core) (ev : Nat) (t : Option Nat) : (k.perfAdd ev t).ctxs = k.ctxs := rfl
@[simp] theorem Core.perfAdd_cycle (k : Core) (ev : Nat) (t : Option Nat) : (k.perfAdd ev t).cycle = k.cycle := rfl
@[simp] theorem Core.perfAdd_freeze (k : Core) (ev : Nat) (t : Option Nat) : (k.perfAdd ev t).freeze = k.freeze := rfl
@[simp] theorem Core.perfAdd_root (k : Core) (ev : Nat) (t : Option Nat) : (k.perfAdd ev t).root = k.root := rfl
@[simp] theorem Core.perfAdd_utlb (k : Core) (ev : Nat) (t : Option Nat) : (k.perfAdd ev t).utlb = k.utlb := rfl
@[simp] theorem Core.perfAdd_log (k : Core) (ev : Nat) (t : Option Nat) : (k.perfAdd ev t).log = k.log := rfl
@[simp] theorem Core.perfAdd_home (k : Core) (ev : Nat) (t : Option Nat) : (k.perfAdd ev t).home = k.home := rfl
@[simp] theorem Core.perfAdd_rbuf (k : Core) (ev : Nat) (t : Option Nat) : (k.perfAdd ev t).rbuf = k.rbuf := rfl
@[simp] theorem Core.perfAdd_aq (k : Core) (ev : Nat) (t : Option Nat) : (k.perfAdd ev t).aq = k.aq := rfl
@[simp] theorem Core.perfAdd_aspill (k : Core) (ev : Nat) (t : Option Nat) : (k.perfAdd ev t).aspill = k.aspill := rfl
@[simp] theorem Core.perfAdd_spilled (k : Core) (ev : Nat) (t : Option Nat) : (k.perfAdd ev t).spilled = k.spilled := rfl
@[simp] theorem Core.perfAdd_spillTail (k : Core) (ev : Nat) (t : Option Nat) : (k.perfAdd ev t).spillTail = k.spillTail := rfl
@[simp] theorem Core.perfAdd_dispAt (k : Core) (ev : Nat) (t : Option Nat) : (k.perfAdd ev t).dispAt = k.dispAt := rfl
@[simp] theorem Core.perfAdd_refAt (k : Core) (ev : Nat) (t : Option Nat) : (k.perfAdd ev t).refAt = k.refAt := rfl
@[simp] theorem Core.perfAdd_arrAt (k : Core) (ev : Nat) (t : Option Nat) : (k.perfAdd ev t).arrAt = k.arrAt := rfl
@[simp] theorem Core.perfAdd_mailAt (k : Core) (ev : Nat) (t : Option Nat) : (k.perfAdd ev t).mailAt = k.mailAt := rfl
@[simp] theorem Core.perfAdd_waits (k : Core) (ev : Nat) (t : Option Nat) : (k.perfAdd ev t).waits = k.waits := rfl
@[simp] theorem Core.perfAdd_notices (k : Core) (ev : Nat) (t : Option Nat) : (k.perfAdd ev t).notices = k.notices := rfl
@[simp] theorem Core.perfAdd_mail (k : Core) (ev : Nat) (t : Option Nat) : (k.perfAdd ev t).mail = k.mail := rfl
@[simp] theorem Core.perfAdd_rings (k : Core) (ev : Nat) (t : Option Nat) : (k.perfAdd ev t).rings = k.rings := rfl
@[simp] theorem Core.perfAdd_ctrs (k : Core) (ev : Nat) (t : Option Nat) : (k.perfAdd ev t).ctrs = k.ctrs := rfl
@[simp] theorem Core.perfAdd_acts (k : Core) (ev : Nat) (t : Option Nat) : (k.perfAdd ev t).acts = k.acts := rfl
@[simp] theorem Core.perfAdd_staged (k : Core) (ev : Nat) (t : Option Nat) : (k.perfAdd ev t).staged = k.staged := rfl
@[simp] theorem Core.perfAdd_dec (k : Core) (ev : Nat) (t : Option Nat) : (k.perfAdd ev t).dec = k.dec := rfl
@[simp] theorem Core.perfAdd_cur (k : Core) (ev : Nat) (t : Option Nat) : (k.perfAdd ev t).cur = k.cur := rfl
@[simp] theorem Core.perfAdd_curOwner (k : Core) (ev : Nat) (t : Option Nat) : (k.perfAdd ev t).curOwner = k.curOwner := rfl
@[simp] theorem Core.perfAdd_tload (k : Core) (ev : Nat) (t : Option Nat) : (k.perfAdd ev t).tload = k.tload := rfl
@[simp] theorem Core.perfAdd_acc (k : Core) (ev : Nat) (t : Option Nat) : (k.perfAdd ev t).acc = k.acc := rfl
@[simp] theorem Core.perfAdd_busy (k : Core) (ev : Nat) (t : Option Nat) : (k.perfAdd ev t).busy = k.busy := rfl
@[simp] theorem Core.perfAdd_mat (k : Core) (ev : Nat) (t : Option Nat) : (k.perfAdd ev t).mat = k.mat := rfl
@[simp] theorem Core.perfAdd_n0 (k : Core) (ev : Nat) (t : Option Nat) : (k.perfAdd ev t).n0 = k.n0 := rfl
@[simp] theorem Core.perfAdd_run (k : Core) (ev : Nat) (t : Option Nat) : (k.perfAdd ev t).run = k.run := rfl
@[simp] theorem Core.perfAdd_epi (k : Core) (ev : Nat) (t : Option Nat) : (k.perfAdd ev t).epi = k.epi := rfl
@[simp] theorem Core.perfAdd_cmdq (k : Core) (ev : Nat) (t : Option Nat) : (k.perfAdd ev t).cmdq = k.cmdq := rfl
@[simp] theorem Core.perfAdd_copies (k : Core) (ev : Nat) (t : Option Nat) : (k.perfAdd ev t).copies = k.copies := rfl
@[simp] theorem Core.perfAdd_gates (k : Core) (ev : Nat) (t : Option Nat) : (k.perfAdd ev t).gates = k.gates := rfl
@[simp] theorem Core.perfAdd_frames (k : Core) (ev : Nat) (t : Option Nat) : (k.perfAdd ev t).frames = k.frames := rfl
@[simp] theorem Core.perfAdd_chReq (k : Core) (ev : Nat) (t : Option Nat) : (k.perfAdd ev t).chReq = k.chReq := rfl
@[simp] theorem Core.perfAdd_chStat (k : Core) (ev : Nat) (t : Option Nat) : (k.perfAdd ev t).chStat = k.chStat := rfl
@[simp] theorem Core.perfAdd_chRecs (k : Core) (ev : Nat) (t : Option Nat) : (k.perfAdd ev t).chRecs = k.chRecs := rfl
@[simp] theorem Core.perfAdd_bin (k : Core) (ev : Nat) (t : Option Nat) : (k.perfAdd ev t).bin = k.bin := rfl
@[simp] theorem Core.perfAdd_oos (k : Core) (ev : Nat) (t : Option Nat) : (k.perfAdd ev t).oos = k.oos := rfl
@[simp] theorem Core.perfAdd_suspect (k : Core) (ev : Nat) (t : Option Nat) : (k.perfAdd ev t).suspect = k.suspect := rfl
@[simp] theorem Core.perfAdd_arrErr (k : Core) (ev : Nat) (t : Option Nat) : (k.perfAdd ev t).arrErr = k.arrErr := rfl
@[simp] theorem Core.perfAdd_halted (k : Core) (ev : Nat) (t : Option Nat) : (k.perfAdd ev t).halted = k.halted := rfl
@[simp] theorem Core.perfAdd_nextId (k : Core) (ev : Nat) (t : Option Nat) : (k.perfAdd ev t).nextId = k.nextId := rfl
@[simp] theorem Core.perfAdd_bankErrs (k : Core) (ev : Nat) (t : Option Nat) : (k.perfAdd ev t).bankErrs = k.bankErrs := rfl
@[simp] theorem Core.perfAdd_binNext (k : Core) (ev : Nat) (t : Option Nat) : (k.perfAdd ev t).binNext = k.binNext := rfl

@[simp] theorem Core.setTile_ctxs (k : Core) (n : Nat) (d : List (BitVec 32)) : (k.setTile n d).ctxs = k.ctxs := rfl
@[simp] theorem Core.setTile_cycle (k : Core) (n : Nat) (d : List (BitVec 32)) : (k.setTile n d).cycle = k.cycle := rfl
@[simp] theorem Core.setTile_freeze (k : Core) (n : Nat) (d : List (BitVec 32)) : (k.setTile n d).freeze = k.freeze := rfl
@[simp] theorem Core.setTile_root (k : Core) (n : Nat) (d : List (BitVec 32)) : (k.setTile n d).root = k.root := rfl
@[simp] theorem Core.setTile_utlb (k : Core) (n : Nat) (d : List (BitVec 32)) : (k.setTile n d).utlb = k.utlb := rfl
@[simp] theorem Core.setTile_log (k : Core) (n : Nat) (d : List (BitVec 32)) : (k.setTile n d).log = k.log := rfl
@[simp] theorem Core.setTile_home (k : Core) (n : Nat) (d : List (BitVec 32)) : (k.setTile n d).home = k.home := rfl
@[simp] theorem Core.setTile_rbuf (k : Core) (n : Nat) (d : List (BitVec 32)) : (k.setTile n d).rbuf = k.rbuf := rfl
@[simp] theorem Core.setTile_aq (k : Core) (n : Nat) (d : List (BitVec 32)) : (k.setTile n d).aq = k.aq := rfl
@[simp] theorem Core.setTile_aspill (k : Core) (n : Nat) (d : List (BitVec 32)) : (k.setTile n d).aspill = k.aspill := rfl
@[simp] theorem Core.setTile_spilled (k : Core) (n : Nat) (d : List (BitVec 32)) : (k.setTile n d).spilled = k.spilled := rfl
@[simp] theorem Core.setTile_spillTail (k : Core) (n : Nat) (d : List (BitVec 32)) : (k.setTile n d).spillTail = k.spillTail := rfl
@[simp] theorem Core.setTile_dispAt (k : Core) (n : Nat) (d : List (BitVec 32)) : (k.setTile n d).dispAt = k.dispAt := rfl
@[simp] theorem Core.setTile_refAt (k : Core) (n : Nat) (d : List (BitVec 32)) : (k.setTile n d).refAt = k.refAt := rfl
@[simp] theorem Core.setTile_arrAt (k : Core) (n : Nat) (d : List (BitVec 32)) : (k.setTile n d).arrAt = k.arrAt := rfl
@[simp] theorem Core.setTile_mailAt (k : Core) (n : Nat) (d : List (BitVec 32)) : (k.setTile n d).mailAt = k.mailAt := rfl
@[simp] theorem Core.setTile_waits (k : Core) (n : Nat) (d : List (BitVec 32)) : (k.setTile n d).waits = k.waits := rfl
@[simp] theorem Core.setTile_notices (k : Core) (n : Nat) (d : List (BitVec 32)) : (k.setTile n d).notices = k.notices := rfl
@[simp] theorem Core.setTile_mail (k : Core) (n : Nat) (d : List (BitVec 32)) : (k.setTile n d).mail = k.mail := rfl
@[simp] theorem Core.setTile_rings (k : Core) (n : Nat) (d : List (BitVec 32)) : (k.setTile n d).rings = k.rings := rfl
@[simp] theorem Core.setTile_ctrs (k : Core) (n : Nat) (d : List (BitVec 32)) : (k.setTile n d).ctrs = k.ctrs := rfl
@[simp] theorem Core.setTile_acts (k : Core) (n : Nat) (d : List (BitVec 32)) : (k.setTile n d).acts = k.acts := rfl
@[simp] theorem Core.setTile_staged (k : Core) (n : Nat) (d : List (BitVec 32)) : (k.setTile n d).staged = k.staged := rfl
@[simp] theorem Core.setTile_perf (k : Core) (n : Nat) (d : List (BitVec 32)) : (k.setTile n d).perf = k.perf := rfl
@[simp] theorem Core.setTile_dec (k : Core) (n : Nat) (d : List (BitVec 32)) : (k.setTile n d).dec = k.dec := rfl
@[simp] theorem Core.setTile_cur (k : Core) (n : Nat) (d : List (BitVec 32)) : (k.setTile n d).cur = k.cur := rfl
@[simp] theorem Core.setTile_curOwner (k : Core) (n : Nat) (d : List (BitVec 32)) : (k.setTile n d).curOwner = k.curOwner := rfl
@[simp] theorem Core.setTile_tload (k : Core) (n : Nat) (d : List (BitVec 32)) : (k.setTile n d).tload = k.tload := rfl
@[simp] theorem Core.setTile_busy (k : Core) (n : Nat) (d : List (BitVec 32)) : (k.setTile n d).busy = k.busy := rfl
@[simp] theorem Core.setTile_mat (k : Core) (n : Nat) (d : List (BitVec 32)) : (k.setTile n d).mat = k.mat := rfl
@[simp] theorem Core.setTile_n0 (k : Core) (n : Nat) (d : List (BitVec 32)) : (k.setTile n d).n0 = k.n0 := rfl
@[simp] theorem Core.setTile_run (k : Core) (n : Nat) (d : List (BitVec 32)) : (k.setTile n d).run = k.run := rfl
@[simp] theorem Core.setTile_epi (k : Core) (n : Nat) (d : List (BitVec 32)) : (k.setTile n d).epi = k.epi := rfl
@[simp] theorem Core.setTile_cmdq (k : Core) (n : Nat) (d : List (BitVec 32)) : (k.setTile n d).cmdq = k.cmdq := rfl
@[simp] theorem Core.setTile_copies (k : Core) (n : Nat) (d : List (BitVec 32)) : (k.setTile n d).copies = k.copies := rfl
@[simp] theorem Core.setTile_gates (k : Core) (n : Nat) (d : List (BitVec 32)) : (k.setTile n d).gates = k.gates := rfl
@[simp] theorem Core.setTile_frames (k : Core) (n : Nat) (d : List (BitVec 32)) : (k.setTile n d).frames = k.frames := rfl
@[simp] theorem Core.setTile_chReq (k : Core) (n : Nat) (d : List (BitVec 32)) : (k.setTile n d).chReq = k.chReq := rfl
@[simp] theorem Core.setTile_chStat (k : Core) (n : Nat) (d : List (BitVec 32)) : (k.setTile n d).chStat = k.chStat := rfl
@[simp] theorem Core.setTile_chRecs (k : Core) (n : Nat) (d : List (BitVec 32)) : (k.setTile n d).chRecs = k.chRecs := rfl
@[simp] theorem Core.setTile_bin (k : Core) (n : Nat) (d : List (BitVec 32)) : (k.setTile n d).bin = k.bin := rfl
@[simp] theorem Core.setTile_oos (k : Core) (n : Nat) (d : List (BitVec 32)) : (k.setTile n d).oos = k.oos := rfl
@[simp] theorem Core.setTile_suspect (k : Core) (n : Nat) (d : List (BitVec 32)) : (k.setTile n d).suspect = k.suspect := rfl
@[simp] theorem Core.setTile_arrErr (k : Core) (n : Nat) (d : List (BitVec 32)) : (k.setTile n d).arrErr = k.arrErr := rfl
@[simp] theorem Core.setTile_halted (k : Core) (n : Nat) (d : List (BitVec 32)) : (k.setTile n d).halted = k.halted := rfl
@[simp] theorem Core.setTile_nextId (k : Core) (n : Nat) (d : List (BitVec 32)) : (k.setTile n d).nextId = k.nextId := rfl
@[simp] theorem Core.setTile_bankErrs (k : Core) (n : Nat) (d : List (BitVec 32)) : (k.setTile n d).bankErrs = k.bankErrs := rfl
@[simp] theorem Core.setTile_binNext (k : Core) (n : Nat) (d : List (BitVec 32)) : (k.setTile n d).binNext = k.binNext := rfl

@[simp] theorem Core.setBusy_ctxs (k : Core) (n : Nat) (b : Bool) : (k.setBusy n b).ctxs = k.ctxs := rfl
@[simp] theorem Core.setBusy_cycle (k : Core) (n : Nat) (b : Bool) : (k.setBusy n b).cycle = k.cycle := rfl
@[simp] theorem Core.setBusy_freeze (k : Core) (n : Nat) (b : Bool) : (k.setBusy n b).freeze = k.freeze := rfl
@[simp] theorem Core.setBusy_root (k : Core) (n : Nat) (b : Bool) : (k.setBusy n b).root = k.root := rfl
@[simp] theorem Core.setBusy_utlb (k : Core) (n : Nat) (b : Bool) : (k.setBusy n b).utlb = k.utlb := rfl
@[simp] theorem Core.setBusy_log (k : Core) (n : Nat) (b : Bool) : (k.setBusy n b).log = k.log := rfl
@[simp] theorem Core.setBusy_home (k : Core) (n : Nat) (b : Bool) : (k.setBusy n b).home = k.home := rfl
@[simp] theorem Core.setBusy_rbuf (k : Core) (n : Nat) (b : Bool) : (k.setBusy n b).rbuf = k.rbuf := rfl
@[simp] theorem Core.setBusy_aq (k : Core) (n : Nat) (b : Bool) : (k.setBusy n b).aq = k.aq := rfl
@[simp] theorem Core.setBusy_aspill (k : Core) (n : Nat) (b : Bool) : (k.setBusy n b).aspill = k.aspill := rfl
@[simp] theorem Core.setBusy_spilled (k : Core) (n : Nat) (b : Bool) : (k.setBusy n b).spilled = k.spilled := rfl
@[simp] theorem Core.setBusy_spillTail (k : Core) (n : Nat) (b : Bool) : (k.setBusy n b).spillTail = k.spillTail := rfl
@[simp] theorem Core.setBusy_dispAt (k : Core) (n : Nat) (b : Bool) : (k.setBusy n b).dispAt = k.dispAt := rfl
@[simp] theorem Core.setBusy_refAt (k : Core) (n : Nat) (b : Bool) : (k.setBusy n b).refAt = k.refAt := rfl
@[simp] theorem Core.setBusy_arrAt (k : Core) (n : Nat) (b : Bool) : (k.setBusy n b).arrAt = k.arrAt := rfl
@[simp] theorem Core.setBusy_mailAt (k : Core) (n : Nat) (b : Bool) : (k.setBusy n b).mailAt = k.mailAt := rfl
@[simp] theorem Core.setBusy_waits (k : Core) (n : Nat) (b : Bool) : (k.setBusy n b).waits = k.waits := rfl
@[simp] theorem Core.setBusy_notices (k : Core) (n : Nat) (b : Bool) : (k.setBusy n b).notices = k.notices := rfl
@[simp] theorem Core.setBusy_mail (k : Core) (n : Nat) (b : Bool) : (k.setBusy n b).mail = k.mail := rfl
@[simp] theorem Core.setBusy_rings (k : Core) (n : Nat) (b : Bool) : (k.setBusy n b).rings = k.rings := rfl
@[simp] theorem Core.setBusy_ctrs (k : Core) (n : Nat) (b : Bool) : (k.setBusy n b).ctrs = k.ctrs := rfl
@[simp] theorem Core.setBusy_acts (k : Core) (n : Nat) (b : Bool) : (k.setBusy n b).acts = k.acts := rfl
@[simp] theorem Core.setBusy_staged (k : Core) (n : Nat) (b : Bool) : (k.setBusy n b).staged = k.staged := rfl
@[simp] theorem Core.setBusy_perf (k : Core) (n : Nat) (b : Bool) : (k.setBusy n b).perf = k.perf := rfl
@[simp] theorem Core.setBusy_dec (k : Core) (n : Nat) (b : Bool) : (k.setBusy n b).dec = k.dec := rfl
@[simp] theorem Core.setBusy_cur (k : Core) (n : Nat) (b : Bool) : (k.setBusy n b).cur = k.cur := rfl
@[simp] theorem Core.setBusy_curOwner (k : Core) (n : Nat) (b : Bool) : (k.setBusy n b).curOwner = k.curOwner := rfl
@[simp] theorem Core.setBusy_tload (k : Core) (n : Nat) (b : Bool) : (k.setBusy n b).tload = k.tload := rfl
@[simp] theorem Core.setBusy_acc (k : Core) (n : Nat) (b : Bool) : (k.setBusy n b).acc = k.acc := rfl
@[simp] theorem Core.setBusy_mat (k : Core) (n : Nat) (b : Bool) : (k.setBusy n b).mat = k.mat := rfl
@[simp] theorem Core.setBusy_n0 (k : Core) (n : Nat) (b : Bool) : (k.setBusy n b).n0 = k.n0 := rfl
@[simp] theorem Core.setBusy_run (k : Core) (n : Nat) (b : Bool) : (k.setBusy n b).run = k.run := rfl
@[simp] theorem Core.setBusy_epi (k : Core) (n : Nat) (b : Bool) : (k.setBusy n b).epi = k.epi := rfl
@[simp] theorem Core.setBusy_cmdq (k : Core) (n : Nat) (b : Bool) : (k.setBusy n b).cmdq = k.cmdq := rfl
@[simp] theorem Core.setBusy_copies (k : Core) (n : Nat) (b : Bool) : (k.setBusy n b).copies = k.copies := rfl
@[simp] theorem Core.setBusy_gates (k : Core) (n : Nat) (b : Bool) : (k.setBusy n b).gates = k.gates := rfl
@[simp] theorem Core.setBusy_frames (k : Core) (n : Nat) (b : Bool) : (k.setBusy n b).frames = k.frames := rfl
@[simp] theorem Core.setBusy_chReq (k : Core) (n : Nat) (b : Bool) : (k.setBusy n b).chReq = k.chReq := rfl
@[simp] theorem Core.setBusy_chStat (k : Core) (n : Nat) (b : Bool) : (k.setBusy n b).chStat = k.chStat := rfl
@[simp] theorem Core.setBusy_chRecs (k : Core) (n : Nat) (b : Bool) : (k.setBusy n b).chRecs = k.chRecs := rfl
@[simp] theorem Core.setBusy_bin (k : Core) (n : Nat) (b : Bool) : (k.setBusy n b).bin = k.bin := rfl
@[simp] theorem Core.setBusy_oos (k : Core) (n : Nat) (b : Bool) : (k.setBusy n b).oos = k.oos := rfl
@[simp] theorem Core.setBusy_suspect (k : Core) (n : Nat) (b : Bool) : (k.setBusy n b).suspect = k.suspect := rfl
@[simp] theorem Core.setBusy_arrErr (k : Core) (n : Nat) (b : Bool) : (k.setBusy n b).arrErr = k.arrErr := rfl
@[simp] theorem Core.setBusy_halted (k : Core) (n : Nat) (b : Bool) : (k.setBusy n b).halted = k.halted := rfl
@[simp] theorem Core.setBusy_nextId (k : Core) (n : Nat) (b : Bool) : (k.setBusy n b).nextId = k.nextId := rfl
@[simp] theorem Core.setBusy_bankErrs (k : Core) (n : Nat) (b : Bool) : (k.setBusy n b).bankErrs = k.bankErrs := rfl
@[simp] theorem Core.setBusy_binNext (k : Core) (n : Nat) (b : Bool) : (k.setBusy n b).binNext = k.binNext := rfl

/-! ### Fields of a context under writes of its registers -/

@[simp] theorem Ctx.wx_mode (k : Ctx) (r : Nat) (v : Word) : (k.wx r v).mode = k.mode := by
  unfold Ctx.wx; split
  · rfl
  · split <;> rfl
@[simp] theorem Ctx.wx_reap (k : Ctx) (r : Nat) (v : Word) : (k.wx r v).reap = k.reap := by
  unfold Ctx.wx; split
  · rfl
  · split <;> rfl
@[simp] theorem Ctx.wx_pc (k : Ctx) (r : Nat) (v : Word) : (k.wx r v).pc = k.pc := by
  unfold Ctx.wx; split
  · rfl
  · split <;> rfl
@[simp] theorem Ctx.wx_v (k : Ctx) (r : Nat) (v : Word) : (k.wx r v).v = k.v := by
  unfold Ctx.wx; split
  · rfl
  · split <;> rfl
@[simp] theorem Ctx.wx_p (k : Ctx) (r : Nat) (v : Word) : (k.wx r v).p = k.p := by
  unfold Ctx.wx; split
  · rfl
  · split <;> rfl
@[simp] theorem Ctx.wx_m (k : Ctx) (r : Nat) (v : Word) : (k.wx r v).m = k.m := by
  unfold Ctx.wx; split
  · rfl
  · split <;> rfl
@[simp] theorem Ctx.wx_q (k : Ctx) (r : Nat) (v : Word) : (k.wx r v).q = k.q := by
  unfold Ctx.wx; split
  · rfl
  · split <;> rfl
@[simp] theorem Ctx.wx_qv (k : Ctx) (r : Nat) (v : Word) : (k.wx r v).qv = k.qv := by
  unfold Ctx.wx; split
  · rfl
  · split <;> rfl
@[simp] theorem Ctx.wx_bind (k : Ctx) (r : Nat) (v : Word) : (k.wx r v).bind = k.bind := by
  unfold Ctx.wx; split
  · rfl
  · split <;> rfl
@[simp] theorem Ctx.wx_region (k : Ctx) (r : Nat) (v : Word) : (k.wx r v).region = k.region := by
  unfold Ctx.wx; split
  · rfl
  · split <;> rfl
@[simp] theorem Ctx.wx_status (k : Ctx) (r : Nat) (v : Word) : (k.wx r v).status = k.status := by
  unfold Ctx.wx; split
  · rfl
  · split <;> rfl
@[simp] theorem Ctx.wx_fflags (k : Ctx) (r : Nat) (v : Word) : (k.wx r v).fflags = k.fflags := by
  unfold Ctx.wx; split
  · rfl
  · split <;> rfl
@[simp] theorem Ctx.wx_frm (k : Ctx) (r : Nat) (v : Word) : (k.wx r v).frm = k.frm := by
  unfold Ctx.wx; split
  · rfl
  · split <;> rfl
@[simp] theorem Ctx.wx_tiles (k : Ctx) (r : Nat) (v : Word) : (k.wx r v).tiles = k.tiles := by
  unfold Ctx.wx; split
  · rfl
  · split <;> rfl
@[simp] theorem Ctx.wx_lc (k : Ctx) (r : Nat) (v : Word) : (k.wx r v).lc = k.lc := by
  unfold Ctx.wx; split
  · rfl
  · split <;> rfl
@[simp] theorem Ctx.wx_pat (k : Ctx) (r : Nat) (v : Word) : (k.wx r v).pat = k.pat := by
  unfold Ctx.wx; split
  · rfl
  · split <;> rfl
@[simp] theorem Ctx.wx_patAt (k : Ctx) (r : Nat) (v : Word) : (k.wx r v).patAt = k.patAt := by
  unfold Ctx.wx; split
  · rfl
  · split <;> rfl
@[simp] theorem Ctx.wx_ls (k : Ctx) (r : Nat) (v : Word) : (k.wx r v).ls = k.ls := by
  unfold Ctx.wx; split
  · rfl
  · split <;> rfl
@[simp] theorem Ctx.wx_le (k : Ctx) (r : Nat) (v : Word) : (k.wx r v).le = k.le := by
  unfold Ctx.wx; split
  · rfl
  · split <;> rfl
@[simp] theorem Ctx.wx_ulvec (k : Ctx) (r : Nat) (v : Word) : (k.wx r v).ulvec = k.ulvec := by
  unfold Ctx.wx; split
  · rfl
  · split <;> rfl
@[simp] theorem Ctx.wx_uepc (k : Ctx) (r : Nat) (v : Word) : (k.wx r v).uepc = k.uepc := by
  unfold Ctx.wx; split
  · rfl
  · split <;> rfl
@[simp] theorem Ctx.wx_uval (k : Ctx) (r : Nat) (v : Word) : (k.wx r v).uval = k.uval := by
  unfold Ctx.wx; split
  · rfl
  · split <;> rfl
@[simp] theorem Ctx.wx_cause (k : Ctx) (r : Nat) (v : Word) : (k.wx r v).cause = k.cause := by
  unfold Ctx.wx; split
  · rfl
  · split <;> rfl
@[simp] theorem Ctx.wx_epc (k : Ctx) (r : Nat) (v : Word) : (k.wx r v).epc = k.epc := by
  unfold Ctx.wx; split
  · rfl
  · split <;> rfl
@[simp] theorem Ctx.wx_tval (k : Ctx) (r : Nat) (v : Word) : (k.wx r v).tval = k.tval := by
  unfold Ctx.wx; split
  · rfl
  · split <;> rfl
@[simp] theorem Ctx.wx_tframe (k : Ctx) (r : Nat) (v : Word) : (k.wx r v).tframe = k.tframe := by
  unfold Ctx.wx; split
  · rfl
  · split <;> rfl
@[simp] theorem Ctx.wx_tvec (k : Ctx) (r : Nat) (v : Word) : (k.wx r v).tvec = k.tvec := by
  unfold Ctx.wx; split
  · rfl
  · split <;> rfl
@[simp] theorem Ctx.wx_npc (k : Ctx) (r : Nat) (v : Word) : (k.wx r v).npc = k.npc := by
  unfold Ctx.wx; split
  · rfl
  · split <;> rfl
@[simp] theorem Ctx.wx_mhb (k : Ctx) (r : Nat) (v : Word) : (k.wx r v).mhb = k.mhb := by
  unfold Ctx.wx; split
  · rfl
  · split <;> rfl
@[simp] theorem Ctx.wx_newImage (k : Ctx) (r : Nat) (v : Word) : (k.wx r v).newImage = k.newImage := by
  unfold Ctx.wx; split
  · rfl
  · split <;> rfl
@[simp] theorem Ctx.wx_recM (k : Ctx) (r : Nat) (v : Word) : (k.wx r v).recM = k.recM := by
  unfold Ctx.wx; split
  · rfl
  · split <;> rfl
@[simp] theorem Ctx.wx_recX (k : Ctx) (r : Nat) (v : Word) : (k.wx r v).recX = k.recX := by
  unfold Ctx.wx; split
  · rfl
  · split <;> rfl
@[simp] theorem Ctx.wx_hop (k : Ctx) (r : Nat) (v : Word) : (k.wx r v).hop = k.hop := by
  unfold Ctx.wx; split
  · rfl
  · split <;> rfl
@[simp] theorem Ctx.wx_onExt (k : Ctx) (r : Nat) (v : Word) : (k.wx r v).onExt = k.onExt := by
  unfold Ctx.wx; split
  · rfl
  · split <;> rfl
@[simp] theorem Ctx.wx_pendX (k : Ctx) (r : Nat) (v : Word) : (k.wx r v).pendX = k.pendX := by
  unfold Ctx.wx; split
  · rfl
  · split <;> rfl
@[simp] theorem Ctx.wx_pendV (k : Ctx) (r : Nat) (v : Word) : (k.wx r v).pendV = k.pendV := by
  unfold Ctx.wx; split
  · rfl
  · split <;> rfl
@[simp] theorem Ctx.wx_pendY (k : Ctx) (r : Nat) (v : Word) : (k.wx r v).pendY = k.pendY := by
  unfold Ctx.wx; split
  · rfl
  · split <;> rfl
@[simp] theorem Ctx.wx_pendQ (k : Ctx) (r : Nat) (v : Word) : (k.wx r v).pendQ = k.pendQ := by
  unfold Ctx.wx; split
  · rfl
  · split <;> rfl
@[simp] theorem Ctx.wx_latSeq (k : Ctx) (r : Nat) (v : Word) : (k.wx r v).latSeq = k.latSeq := by
  unfold Ctx.wx; split
  · rfl
  · split <;> rfl
@[simp] theorem Ctx.wx_fbuf (k : Ctx) (r : Nat) (v : Word) : (k.wx r v).fbuf = k.fbuf := by
  unfold Ctx.wx; split
  · rfl
  · split <;> rfl
@[simp] theorem Ctx.wx_freq (k : Ctx) (r : Nat) (v : Word) : (k.wx r v).freq = k.freq := by
  unfold Ctx.wx; split
  · rfl
  · split <;> rfl
@[simp] theorem Ctx.wx_tlb (k : Ctx) (r : Nat) (v : Word) : (k.wx r v).tlb = k.tlb := by
  unfold Ctx.wx; split
  · rfl
  · split <;> rfl
@[simp] theorem Ctx.wx_acq (k : Ctx) (r : Nat) (v : Word) : (k.wx r v).acq = k.acq := by
  unfold Ctx.wx; split
  · rfl
  · split <;> rfl
@[simp] theorem Ctx.wx_ownLine (k : Ctx) (r : Nat) (v : Word) : (k.wx r v).ownLine = k.ownLine := by
  unfold Ctx.wx; split
  · rfl
  · split <;> rfl
@[simp] theorem Ctx.wx_wake (k : Ctx) (r : Nat) (v : Word) : (k.wx r v).wake = k.wake := by
  unfold Ctx.wx; split
  · rfl
  · split <;> rfl
@[simp] theorem Ctx.wx_realign (k : Ctx) (r : Nat) (v : Word) : (k.wx r v).realign = k.realign := by
  unfold Ctx.wx; split
  · rfl
  · split <;> rfl
@[simp] theorem Ctx.wx_realigned (k : Ctx) (r : Nat) (v : Word) : (k.wx r v).realigned = k.realigned := by
  unfold Ctx.wx; split
  · rfl
  · split <;> rfl
@[simp] theorem Ctx.wx_realignN (k : Ctx) (r : Nat) (v : Word) : (k.wx r v).realignN = k.realignN := by
  unfold Ctx.wx; split
  · rfl
  · split <;> rfl
@[simp] theorem Ctx.wx_stop (k : Ctx) (r : Nat) (v : Word) : (k.wx r v).stop = k.stop := by
  unfold Ctx.wx; split
  · rfl
  · split <;> rfl
@[simp] theorem Ctx.wx_susp (k : Ctx) (r : Nat) (v : Word) : (k.wx r v).susp = k.susp := by
  unfold Ctx.wx; split
  · rfl
  · split <;> rfl
@[simp] theorem Ctx.wx_ahead (k : Ctx) (r : Nat) (v : Word) : (k.wx r v).ahead = k.ahead := by
  unfold Ctx.wx; split
  · rfl
  · split <;> rfl
@[simp] theorem Ctx.wx_regErr (k : Ctx) (r : Nat) (v : Word) : (k.wx r v).regErr = k.regErr := by
  unfold Ctx.wx; split
  · rfl
  · split <;> rfl
@[simp] theorem Ctx.wx_pair (k : Ctx) (r : Nat) (v : Word) : (k.wx r v).pair = k.pair := by
  unfold Ctx.wx; split
  · rfl
  · split <;> rfl
@[simp] theorem Ctx.wx_gen (k : Ctx) (r : Nat) (v : Word) : (k.wx r v).gen = k.gen := by
  unfold Ctx.wx; split
  · rfl
  · split <;> rfl
@[simp] theorem Ctx.wx_loaded (k : Ctx) (r : Nat) (v : Word) : (k.wx r v).loaded = k.loaded := by
  unfold Ctx.wx; split
  · rfl
  · split <;> rfl
@[simp] theorem Ctx.wx_inv (k : Ctx) (r : Nat) (v : Word) : (k.wx r v).inv = k.inv := by
  unfold Ctx.wx; split
  · rfl
  · split <;> rfl
@[simp] theorem Ctx.wx_dues (k : Ctx) (r : Nat) (v : Word) : (k.wx r v).dues = k.dues := by
  unfold Ctx.wx; split
  · rfl
  · split <;> rfl

@[simp] theorem Ctx.wp_mode (k : Ctx) (r : Nat) (b : Bool) : (k.wp r b).mode = k.mode := by
  unfold Ctx.wp; split <;> rfl
@[simp] theorem Ctx.wp_reap (k : Ctx) (r : Nat) (b : Bool) : (k.wp r b).reap = k.reap := by
  unfold Ctx.wp; split <;> rfl
@[simp] theorem Ctx.wp_pc (k : Ctx) (r : Nat) (b : Bool) : (k.wp r b).pc = k.pc := by
  unfold Ctx.wp; split <;> rfl
@[simp] theorem Ctx.wp_x (k : Ctx) (r : Nat) (b : Bool) : (k.wp r b).x = k.x := by
  unfold Ctx.wp; split <;> rfl
@[simp] theorem Ctx.wp_v (k : Ctx) (r : Nat) (b : Bool) : (k.wp r b).v = k.v := by
  unfold Ctx.wp; split <;> rfl
@[simp] theorem Ctx.wp_m (k : Ctx) (r : Nat) (b : Bool) : (k.wp r b).m = k.m := by
  unfold Ctx.wp; split <;> rfl
@[simp] theorem Ctx.wp_q (k : Ctx) (r : Nat) (b : Bool) : (k.wp r b).q = k.q := by
  unfold Ctx.wp; split <;> rfl
@[simp] theorem Ctx.wp_qv (k : Ctx) (r : Nat) (b : Bool) : (k.wp r b).qv = k.qv := by
  unfold Ctx.wp; split <;> rfl
@[simp] theorem Ctx.wp_y (k : Ctx) (r : Nat) (b : Bool) : (k.wp r b).y = k.y := by
  unfold Ctx.wp; split <;> rfl
@[simp] theorem Ctx.wp_bind (k : Ctx) (r : Nat) (b : Bool) : (k.wp r b).bind = k.bind := by
  unfold Ctx.wp; split <;> rfl
@[simp] theorem Ctx.wp_region (k : Ctx) (r : Nat) (b : Bool) : (k.wp r b).region = k.region := by
  unfold Ctx.wp; split <;> rfl
@[simp] theorem Ctx.wp_status (k : Ctx) (r : Nat) (b : Bool) : (k.wp r b).status = k.status := by
  unfold Ctx.wp; split <;> rfl
@[simp] theorem Ctx.wp_fflags (k : Ctx) (r : Nat) (b : Bool) : (k.wp r b).fflags = k.fflags := by
  unfold Ctx.wp; split <;> rfl
@[simp] theorem Ctx.wp_frm (k : Ctx) (r : Nat) (b : Bool) : (k.wp r b).frm = k.frm := by
  unfold Ctx.wp; split <;> rfl
@[simp] theorem Ctx.wp_tiles (k : Ctx) (r : Nat) (b : Bool) : (k.wp r b).tiles = k.tiles := by
  unfold Ctx.wp; split <;> rfl
@[simp] theorem Ctx.wp_lc (k : Ctx) (r : Nat) (b : Bool) : (k.wp r b).lc = k.lc := by
  unfold Ctx.wp; split <;> rfl
@[simp] theorem Ctx.wp_pat (k : Ctx) (r : Nat) (b : Bool) : (k.wp r b).pat = k.pat := by
  unfold Ctx.wp; split <;> rfl
@[simp] theorem Ctx.wp_patAt (k : Ctx) (r : Nat) (b : Bool) : (k.wp r b).patAt = k.patAt := by
  unfold Ctx.wp; split <;> rfl
@[simp] theorem Ctx.wp_ls (k : Ctx) (r : Nat) (b : Bool) : (k.wp r b).ls = k.ls := by
  unfold Ctx.wp; split <;> rfl
@[simp] theorem Ctx.wp_le (k : Ctx) (r : Nat) (b : Bool) : (k.wp r b).le = k.le := by
  unfold Ctx.wp; split <;> rfl
@[simp] theorem Ctx.wp_ulvec (k : Ctx) (r : Nat) (b : Bool) : (k.wp r b).ulvec = k.ulvec := by
  unfold Ctx.wp; split <;> rfl
@[simp] theorem Ctx.wp_uepc (k : Ctx) (r : Nat) (b : Bool) : (k.wp r b).uepc = k.uepc := by
  unfold Ctx.wp; split <;> rfl
@[simp] theorem Ctx.wp_uval (k : Ctx) (r : Nat) (b : Bool) : (k.wp r b).uval = k.uval := by
  unfold Ctx.wp; split <;> rfl
@[simp] theorem Ctx.wp_cause (k : Ctx) (r : Nat) (b : Bool) : (k.wp r b).cause = k.cause := by
  unfold Ctx.wp; split <;> rfl
@[simp] theorem Ctx.wp_epc (k : Ctx) (r : Nat) (b : Bool) : (k.wp r b).epc = k.epc := by
  unfold Ctx.wp; split <;> rfl
@[simp] theorem Ctx.wp_tval (k : Ctx) (r : Nat) (b : Bool) : (k.wp r b).tval = k.tval := by
  unfold Ctx.wp; split <;> rfl
@[simp] theorem Ctx.wp_tframe (k : Ctx) (r : Nat) (b : Bool) : (k.wp r b).tframe = k.tframe := by
  unfold Ctx.wp; split <;> rfl
@[simp] theorem Ctx.wp_tvec (k : Ctx) (r : Nat) (b : Bool) : (k.wp r b).tvec = k.tvec := by
  unfold Ctx.wp; split <;> rfl
@[simp] theorem Ctx.wp_npc (k : Ctx) (r : Nat) (b : Bool) : (k.wp r b).npc = k.npc := by
  unfold Ctx.wp; split <;> rfl
@[simp] theorem Ctx.wp_mhb (k : Ctx) (r : Nat) (b : Bool) : (k.wp r b).mhb = k.mhb := by
  unfold Ctx.wp; split <;> rfl
@[simp] theorem Ctx.wp_newImage (k : Ctx) (r : Nat) (b : Bool) : (k.wp r b).newImage = k.newImage := by
  unfold Ctx.wp; split <;> rfl
@[simp] theorem Ctx.wp_recM (k : Ctx) (r : Nat) (b : Bool) : (k.wp r b).recM = k.recM := by
  unfold Ctx.wp; split <;> rfl
@[simp] theorem Ctx.wp_recX (k : Ctx) (r : Nat) (b : Bool) : (k.wp r b).recX = k.recX := by
  unfold Ctx.wp; split <;> rfl
@[simp] theorem Ctx.wp_hop (k : Ctx) (r : Nat) (b : Bool) : (k.wp r b).hop = k.hop := by
  unfold Ctx.wp; split <;> rfl
@[simp] theorem Ctx.wp_onExt (k : Ctx) (r : Nat) (b : Bool) : (k.wp r b).onExt = k.onExt := by
  unfold Ctx.wp; split <;> rfl
@[simp] theorem Ctx.wp_pendX (k : Ctx) (r : Nat) (b : Bool) : (k.wp r b).pendX = k.pendX := by
  unfold Ctx.wp; split <;> rfl
@[simp] theorem Ctx.wp_pendV (k : Ctx) (r : Nat) (b : Bool) : (k.wp r b).pendV = k.pendV := by
  unfold Ctx.wp; split <;> rfl
@[simp] theorem Ctx.wp_pendY (k : Ctx) (r : Nat) (b : Bool) : (k.wp r b).pendY = k.pendY := by
  unfold Ctx.wp; split <;> rfl
@[simp] theorem Ctx.wp_pendQ (k : Ctx) (r : Nat) (b : Bool) : (k.wp r b).pendQ = k.pendQ := by
  unfold Ctx.wp; split <;> rfl
@[simp] theorem Ctx.wp_latSeq (k : Ctx) (r : Nat) (b : Bool) : (k.wp r b).latSeq = k.latSeq := by
  unfold Ctx.wp; split <;> rfl
@[simp] theorem Ctx.wp_fbuf (k : Ctx) (r : Nat) (b : Bool) : (k.wp r b).fbuf = k.fbuf := by
  unfold Ctx.wp; split <;> rfl
@[simp] theorem Ctx.wp_freq (k : Ctx) (r : Nat) (b : Bool) : (k.wp r b).freq = k.freq := by
  unfold Ctx.wp; split <;> rfl
@[simp] theorem Ctx.wp_tlb (k : Ctx) (r : Nat) (b : Bool) : (k.wp r b).tlb = k.tlb := by
  unfold Ctx.wp; split <;> rfl
@[simp] theorem Ctx.wp_acq (k : Ctx) (r : Nat) (b : Bool) : (k.wp r b).acq = k.acq := by
  unfold Ctx.wp; split <;> rfl
@[simp] theorem Ctx.wp_ownLine (k : Ctx) (r : Nat) (b : Bool) : (k.wp r b).ownLine = k.ownLine := by
  unfold Ctx.wp; split <;> rfl
@[simp] theorem Ctx.wp_wake (k : Ctx) (r : Nat) (b : Bool) : (k.wp r b).wake = k.wake := by
  unfold Ctx.wp; split <;> rfl
@[simp] theorem Ctx.wp_realign (k : Ctx) (r : Nat) (b : Bool) : (k.wp r b).realign = k.realign := by
  unfold Ctx.wp; split <;> rfl
@[simp] theorem Ctx.wp_realigned (k : Ctx) (r : Nat) (b : Bool) : (k.wp r b).realigned = k.realigned := by
  unfold Ctx.wp; split <;> rfl
@[simp] theorem Ctx.wp_realignN (k : Ctx) (r : Nat) (b : Bool) : (k.wp r b).realignN = k.realignN := by
  unfold Ctx.wp; split <;> rfl
@[simp] theorem Ctx.wp_stop (k : Ctx) (r : Nat) (b : Bool) : (k.wp r b).stop = k.stop := by
  unfold Ctx.wp; split <;> rfl
@[simp] theorem Ctx.wp_susp (k : Ctx) (r : Nat) (b : Bool) : (k.wp r b).susp = k.susp := by
  unfold Ctx.wp; split <;> rfl
@[simp] theorem Ctx.wp_ahead (k : Ctx) (r : Nat) (b : Bool) : (k.wp r b).ahead = k.ahead := by
  unfold Ctx.wp; split <;> rfl
@[simp] theorem Ctx.wp_regErr (k : Ctx) (r : Nat) (b : Bool) : (k.wp r b).regErr = k.regErr := by
  unfold Ctx.wp; split <;> rfl
@[simp] theorem Ctx.wp_pair (k : Ctx) (r : Nat) (b : Bool) : (k.wp r b).pair = k.pair := by
  unfold Ctx.wp; split <;> rfl
@[simp] theorem Ctx.wp_gen (k : Ctx) (r : Nat) (b : Bool) : (k.wp r b).gen = k.gen := by
  unfold Ctx.wp; split <;> rfl
@[simp] theorem Ctx.wp_loaded (k : Ctx) (r : Nat) (b : Bool) : (k.wp r b).loaded = k.loaded := by
  unfold Ctx.wp; split <;> rfl
@[simp] theorem Ctx.wp_inv (k : Ctx) (r : Nat) (b : Bool) : (k.wp r b).inv = k.inv := by
  unfold Ctx.wp; split <;> rfl
@[simp] theorem Ctx.wp_dues (k : Ctx) (r : Nat) (b : Bool) : (k.wp r b).dues = k.dues := by
  unfold Ctx.wp; split <;> rfl

@[simp] theorem Ctx.wm_mode (k : Ctx) (r : Nat) (v : BitVec 16) : (k.wm r v).mode = k.mode := by
  unfold Ctx.wm; split <;> rfl
@[simp] theorem Ctx.wm_reap (k : Ctx) (r : Nat) (v : BitVec 16) : (k.wm r v).reap = k.reap := by
  unfold Ctx.wm; split <;> rfl
@[simp] theorem Ctx.wm_pc (k : Ctx) (r : Nat) (v : BitVec 16) : (k.wm r v).pc = k.pc := by
  unfold Ctx.wm; split <;> rfl
@[simp] theorem Ctx.wm_x (k : Ctx) (r : Nat) (v : BitVec 16) : (k.wm r v).x = k.x := by
  unfold Ctx.wm; split <;> rfl
@[simp] theorem Ctx.wm_v (k : Ctx) (r : Nat) (v : BitVec 16) : (k.wm r v).v = k.v := by
  unfold Ctx.wm; split <;> rfl
@[simp] theorem Ctx.wm_p (k : Ctx) (r : Nat) (v : BitVec 16) : (k.wm r v).p = k.p := by
  unfold Ctx.wm; split <;> rfl
@[simp] theorem Ctx.wm_q (k : Ctx) (r : Nat) (v : BitVec 16) : (k.wm r v).q = k.q := by
  unfold Ctx.wm; split <;> rfl
@[simp] theorem Ctx.wm_qv (k : Ctx) (r : Nat) (v : BitVec 16) : (k.wm r v).qv = k.qv := by
  unfold Ctx.wm; split <;> rfl
@[simp] theorem Ctx.wm_y (k : Ctx) (r : Nat) (v : BitVec 16) : (k.wm r v).y = k.y := by
  unfold Ctx.wm; split <;> rfl
@[simp] theorem Ctx.wm_bind (k : Ctx) (r : Nat) (v : BitVec 16) : (k.wm r v).bind = k.bind := by
  unfold Ctx.wm; split <;> rfl
@[simp] theorem Ctx.wm_region (k : Ctx) (r : Nat) (v : BitVec 16) : (k.wm r v).region = k.region := by
  unfold Ctx.wm; split <;> rfl
@[simp] theorem Ctx.wm_status (k : Ctx) (r : Nat) (v : BitVec 16) : (k.wm r v).status = k.status := by
  unfold Ctx.wm; split <;> rfl
@[simp] theorem Ctx.wm_fflags (k : Ctx) (r : Nat) (v : BitVec 16) : (k.wm r v).fflags = k.fflags := by
  unfold Ctx.wm; split <;> rfl
@[simp] theorem Ctx.wm_frm (k : Ctx) (r : Nat) (v : BitVec 16) : (k.wm r v).frm = k.frm := by
  unfold Ctx.wm; split <;> rfl
@[simp] theorem Ctx.wm_tiles (k : Ctx) (r : Nat) (v : BitVec 16) : (k.wm r v).tiles = k.tiles := by
  unfold Ctx.wm; split <;> rfl
@[simp] theorem Ctx.wm_lc (k : Ctx) (r : Nat) (v : BitVec 16) : (k.wm r v).lc = k.lc := by
  unfold Ctx.wm; split <;> rfl
@[simp] theorem Ctx.wm_pat (k : Ctx) (r : Nat) (v : BitVec 16) : (k.wm r v).pat = k.pat := by
  unfold Ctx.wm; split <;> rfl
@[simp] theorem Ctx.wm_patAt (k : Ctx) (r : Nat) (v : BitVec 16) : (k.wm r v).patAt = k.patAt := by
  unfold Ctx.wm; split <;> rfl
@[simp] theorem Ctx.wm_ls (k : Ctx) (r : Nat) (v : BitVec 16) : (k.wm r v).ls = k.ls := by
  unfold Ctx.wm; split <;> rfl
@[simp] theorem Ctx.wm_le (k : Ctx) (r : Nat) (v : BitVec 16) : (k.wm r v).le = k.le := by
  unfold Ctx.wm; split <;> rfl
@[simp] theorem Ctx.wm_ulvec (k : Ctx) (r : Nat) (v : BitVec 16) : (k.wm r v).ulvec = k.ulvec := by
  unfold Ctx.wm; split <;> rfl
@[simp] theorem Ctx.wm_uepc (k : Ctx) (r : Nat) (v : BitVec 16) : (k.wm r v).uepc = k.uepc := by
  unfold Ctx.wm; split <;> rfl
@[simp] theorem Ctx.wm_uval (k : Ctx) (r : Nat) (v : BitVec 16) : (k.wm r v).uval = k.uval := by
  unfold Ctx.wm; split <;> rfl
@[simp] theorem Ctx.wm_cause (k : Ctx) (r : Nat) (v : BitVec 16) : (k.wm r v).cause = k.cause := by
  unfold Ctx.wm; split <;> rfl
@[simp] theorem Ctx.wm_epc (k : Ctx) (r : Nat) (v : BitVec 16) : (k.wm r v).epc = k.epc := by
  unfold Ctx.wm; split <;> rfl
@[simp] theorem Ctx.wm_tval (k : Ctx) (r : Nat) (v : BitVec 16) : (k.wm r v).tval = k.tval := by
  unfold Ctx.wm; split <;> rfl
@[simp] theorem Ctx.wm_tframe (k : Ctx) (r : Nat) (v : BitVec 16) : (k.wm r v).tframe = k.tframe := by
  unfold Ctx.wm; split <;> rfl
@[simp] theorem Ctx.wm_tvec (k : Ctx) (r : Nat) (v : BitVec 16) : (k.wm r v).tvec = k.tvec := by
  unfold Ctx.wm; split <;> rfl
@[simp] theorem Ctx.wm_npc (k : Ctx) (r : Nat) (v : BitVec 16) : (k.wm r v).npc = k.npc := by
  unfold Ctx.wm; split <;> rfl
@[simp] theorem Ctx.wm_mhb (k : Ctx) (r : Nat) (v : BitVec 16) : (k.wm r v).mhb = k.mhb := by
  unfold Ctx.wm; split <;> rfl
@[simp] theorem Ctx.wm_newImage (k : Ctx) (r : Nat) (v : BitVec 16) : (k.wm r v).newImage = k.newImage := by
  unfold Ctx.wm; split <;> rfl
@[simp] theorem Ctx.wm_recM (k : Ctx) (r : Nat) (v : BitVec 16) : (k.wm r v).recM = k.recM := by
  unfold Ctx.wm; split <;> rfl
@[simp] theorem Ctx.wm_recX (k : Ctx) (r : Nat) (v : BitVec 16) : (k.wm r v).recX = k.recX := by
  unfold Ctx.wm; split <;> rfl
@[simp] theorem Ctx.wm_hop (k : Ctx) (r : Nat) (v : BitVec 16) : (k.wm r v).hop = k.hop := by
  unfold Ctx.wm; split <;> rfl
@[simp] theorem Ctx.wm_onExt (k : Ctx) (r : Nat) (v : BitVec 16) : (k.wm r v).onExt = k.onExt := by
  unfold Ctx.wm; split <;> rfl
@[simp] theorem Ctx.wm_pendX (k : Ctx) (r : Nat) (v : BitVec 16) : (k.wm r v).pendX = k.pendX := by
  unfold Ctx.wm; split <;> rfl
@[simp] theorem Ctx.wm_pendV (k : Ctx) (r : Nat) (v : BitVec 16) : (k.wm r v).pendV = k.pendV := by
  unfold Ctx.wm; split <;> rfl
@[simp] theorem Ctx.wm_pendY (k : Ctx) (r : Nat) (v : BitVec 16) : (k.wm r v).pendY = k.pendY := by
  unfold Ctx.wm; split <;> rfl
@[simp] theorem Ctx.wm_pendQ (k : Ctx) (r : Nat) (v : BitVec 16) : (k.wm r v).pendQ = k.pendQ := by
  unfold Ctx.wm; split <;> rfl
@[simp] theorem Ctx.wm_latSeq (k : Ctx) (r : Nat) (v : BitVec 16) : (k.wm r v).latSeq = k.latSeq := by
  unfold Ctx.wm; split <;> rfl
@[simp] theorem Ctx.wm_fbuf (k : Ctx) (r : Nat) (v : BitVec 16) : (k.wm r v).fbuf = k.fbuf := by
  unfold Ctx.wm; split <;> rfl
@[simp] theorem Ctx.wm_freq (k : Ctx) (r : Nat) (v : BitVec 16) : (k.wm r v).freq = k.freq := by
  unfold Ctx.wm; split <;> rfl
@[simp] theorem Ctx.wm_tlb (k : Ctx) (r : Nat) (v : BitVec 16) : (k.wm r v).tlb = k.tlb := by
  unfold Ctx.wm; split <;> rfl
@[simp] theorem Ctx.wm_acq (k : Ctx) (r : Nat) (v : BitVec 16) : (k.wm r v).acq = k.acq := by
  unfold Ctx.wm; split <;> rfl
@[simp] theorem Ctx.wm_ownLine (k : Ctx) (r : Nat) (v : BitVec 16) : (k.wm r v).ownLine = k.ownLine := by
  unfold Ctx.wm; split <;> rfl
@[simp] theorem Ctx.wm_wake (k : Ctx) (r : Nat) (v : BitVec 16) : (k.wm r v).wake = k.wake := by
  unfold Ctx.wm; split <;> rfl
@[simp] theorem Ctx.wm_realign (k : Ctx) (r : Nat) (v : BitVec 16) : (k.wm r v).realign = k.realign := by
  unfold Ctx.wm; split <;> rfl
@[simp] theorem Ctx.wm_realigned (k : Ctx) (r : Nat) (v : BitVec 16) : (k.wm r v).realigned = k.realigned := by
  unfold Ctx.wm; split <;> rfl
@[simp] theorem Ctx.wm_realignN (k : Ctx) (r : Nat) (v : BitVec 16) : (k.wm r v).realignN = k.realignN := by
  unfold Ctx.wm; split <;> rfl
@[simp] theorem Ctx.wm_stop (k : Ctx) (r : Nat) (v : BitVec 16) : (k.wm r v).stop = k.stop := by
  unfold Ctx.wm; split <;> rfl
@[simp] theorem Ctx.wm_susp (k : Ctx) (r : Nat) (v : BitVec 16) : (k.wm r v).susp = k.susp := by
  unfold Ctx.wm; split <;> rfl
@[simp] theorem Ctx.wm_ahead (k : Ctx) (r : Nat) (v : BitVec 16) : (k.wm r v).ahead = k.ahead := by
  unfold Ctx.wm; split <;> rfl
@[simp] theorem Ctx.wm_regErr (k : Ctx) (r : Nat) (v : BitVec 16) : (k.wm r v).regErr = k.regErr := by
  unfold Ctx.wm; split <;> rfl
@[simp] theorem Ctx.wm_pair (k : Ctx) (r : Nat) (v : BitVec 16) : (k.wm r v).pair = k.pair := by
  unfold Ctx.wm; split <;> rfl
@[simp] theorem Ctx.wm_gen (k : Ctx) (r : Nat) (v : BitVec 16) : (k.wm r v).gen = k.gen := by
  unfold Ctx.wm; split <;> rfl
@[simp] theorem Ctx.wm_loaded (k : Ctx) (r : Nat) (v : BitVec 16) : (k.wm r v).loaded = k.loaded := by
  unfold Ctx.wm; split <;> rfl
@[simp] theorem Ctx.wm_inv (k : Ctx) (r : Nat) (v : BitVec 16) : (k.wm r v).inv = k.inv := by
  unfold Ctx.wm; split <;> rfl
@[simp] theorem Ctx.wm_dues (k : Ctx) (r : Nat) (v : BitVec 16) : (k.wm r v).dues = k.dues := by
  unfold Ctx.wm; split <;> rfl

@[simp] theorem Ctx.wv_mode (k : Ctx) (r : Nat) (v : Vec) : (k.wv r v).mode = k.mode := rfl
@[simp] theorem Ctx.wv_reap (k : Ctx) (r : Nat) (v : Vec) : (k.wv r v).reap = k.reap := rfl
@[simp] theorem Ctx.wv_pc (k : Ctx) (r : Nat) (v : Vec) : (k.wv r v).pc = k.pc := rfl
@[simp] theorem Ctx.wv_x (k : Ctx) (r : Nat) (v : Vec) : (k.wv r v).x = k.x := rfl
@[simp] theorem Ctx.wv_p (k : Ctx) (r : Nat) (v : Vec) : (k.wv r v).p = k.p := rfl
@[simp] theorem Ctx.wv_m (k : Ctx) (r : Nat) (v : Vec) : (k.wv r v).m = k.m := rfl
@[simp] theorem Ctx.wv_q (k : Ctx) (r : Nat) (v : Vec) : (k.wv r v).q = k.q := rfl
@[simp] theorem Ctx.wv_qv (k : Ctx) (r : Nat) (v : Vec) : (k.wv r v).qv = k.qv := rfl
@[simp] theorem Ctx.wv_y (k : Ctx) (r : Nat) (v : Vec) : (k.wv r v).y = k.y := rfl
@[simp] theorem Ctx.wv_bind (k : Ctx) (r : Nat) (v : Vec) : (k.wv r v).bind = k.bind := rfl
@[simp] theorem Ctx.wv_region (k : Ctx) (r : Nat) (v : Vec) : (k.wv r v).region = k.region := rfl
@[simp] theorem Ctx.wv_status (k : Ctx) (r : Nat) (v : Vec) : (k.wv r v).status = k.status := rfl
@[simp] theorem Ctx.wv_fflags (k : Ctx) (r : Nat) (v : Vec) : (k.wv r v).fflags = k.fflags := rfl
@[simp] theorem Ctx.wv_frm (k : Ctx) (r : Nat) (v : Vec) : (k.wv r v).frm = k.frm := rfl
@[simp] theorem Ctx.wv_tiles (k : Ctx) (r : Nat) (v : Vec) : (k.wv r v).tiles = k.tiles := rfl
@[simp] theorem Ctx.wv_lc (k : Ctx) (r : Nat) (v : Vec) : (k.wv r v).lc = k.lc := rfl
@[simp] theorem Ctx.wv_pat (k : Ctx) (r : Nat) (v : Vec) : (k.wv r v).pat = k.pat := rfl
@[simp] theorem Ctx.wv_patAt (k : Ctx) (r : Nat) (v : Vec) : (k.wv r v).patAt = k.patAt := rfl
@[simp] theorem Ctx.wv_ls (k : Ctx) (r : Nat) (v : Vec) : (k.wv r v).ls = k.ls := rfl
@[simp] theorem Ctx.wv_le (k : Ctx) (r : Nat) (v : Vec) : (k.wv r v).le = k.le := rfl
@[simp] theorem Ctx.wv_ulvec (k : Ctx) (r : Nat) (v : Vec) : (k.wv r v).ulvec = k.ulvec := rfl
@[simp] theorem Ctx.wv_uepc (k : Ctx) (r : Nat) (v : Vec) : (k.wv r v).uepc = k.uepc := rfl
@[simp] theorem Ctx.wv_uval (k : Ctx) (r : Nat) (v : Vec) : (k.wv r v).uval = k.uval := rfl
@[simp] theorem Ctx.wv_cause (k : Ctx) (r : Nat) (v : Vec) : (k.wv r v).cause = k.cause := rfl
@[simp] theorem Ctx.wv_epc (k : Ctx) (r : Nat) (v : Vec) : (k.wv r v).epc = k.epc := rfl
@[simp] theorem Ctx.wv_tval (k : Ctx) (r : Nat) (v : Vec) : (k.wv r v).tval = k.tval := rfl
@[simp] theorem Ctx.wv_tframe (k : Ctx) (r : Nat) (v : Vec) : (k.wv r v).tframe = k.tframe := rfl
@[simp] theorem Ctx.wv_tvec (k : Ctx) (r : Nat) (v : Vec) : (k.wv r v).tvec = k.tvec := rfl
@[simp] theorem Ctx.wv_npc (k : Ctx) (r : Nat) (v : Vec) : (k.wv r v).npc = k.npc := rfl
@[simp] theorem Ctx.wv_mhb (k : Ctx) (r : Nat) (v : Vec) : (k.wv r v).mhb = k.mhb := rfl
@[simp] theorem Ctx.wv_newImage (k : Ctx) (r : Nat) (v : Vec) : (k.wv r v).newImage = k.newImage := rfl
@[simp] theorem Ctx.wv_recM (k : Ctx) (r : Nat) (v : Vec) : (k.wv r v).recM = k.recM := rfl
@[simp] theorem Ctx.wv_recX (k : Ctx) (r : Nat) (v : Vec) : (k.wv r v).recX = k.recX := rfl
@[simp] theorem Ctx.wv_hop (k : Ctx) (r : Nat) (v : Vec) : (k.wv r v).hop = k.hop := rfl
@[simp] theorem Ctx.wv_onExt (k : Ctx) (r : Nat) (v : Vec) : (k.wv r v).onExt = k.onExt := rfl
@[simp] theorem Ctx.wv_pendX (k : Ctx) (r : Nat) (v : Vec) : (k.wv r v).pendX = k.pendX := rfl
@[simp] theorem Ctx.wv_pendV (k : Ctx) (r : Nat) (v : Vec) : (k.wv r v).pendV = k.pendV := rfl
@[simp] theorem Ctx.wv_pendY (k : Ctx) (r : Nat) (v : Vec) : (k.wv r v).pendY = k.pendY := rfl
@[simp] theorem Ctx.wv_pendQ (k : Ctx) (r : Nat) (v : Vec) : (k.wv r v).pendQ = k.pendQ := rfl
@[simp] theorem Ctx.wv_latSeq (k : Ctx) (r : Nat) (v : Vec) : (k.wv r v).latSeq = k.latSeq := rfl
@[simp] theorem Ctx.wv_fbuf (k : Ctx) (r : Nat) (v : Vec) : (k.wv r v).fbuf = k.fbuf := rfl
@[simp] theorem Ctx.wv_freq (k : Ctx) (r : Nat) (v : Vec) : (k.wv r v).freq = k.freq := rfl
@[simp] theorem Ctx.wv_tlb (k : Ctx) (r : Nat) (v : Vec) : (k.wv r v).tlb = k.tlb := rfl
@[simp] theorem Ctx.wv_acq (k : Ctx) (r : Nat) (v : Vec) : (k.wv r v).acq = k.acq := rfl
@[simp] theorem Ctx.wv_ownLine (k : Ctx) (r : Nat) (v : Vec) : (k.wv r v).ownLine = k.ownLine := rfl
@[simp] theorem Ctx.wv_wake (k : Ctx) (r : Nat) (v : Vec) : (k.wv r v).wake = k.wake := rfl
@[simp] theorem Ctx.wv_realign (k : Ctx) (r : Nat) (v : Vec) : (k.wv r v).realign = k.realign := rfl
@[simp] theorem Ctx.wv_realigned (k : Ctx) (r : Nat) (v : Vec) : (k.wv r v).realigned = k.realigned := rfl
@[simp] theorem Ctx.wv_realignN (k : Ctx) (r : Nat) (v : Vec) : (k.wv r v).realignN = k.realignN := rfl
@[simp] theorem Ctx.wv_stop (k : Ctx) (r : Nat) (v : Vec) : (k.wv r v).stop = k.stop := rfl
@[simp] theorem Ctx.wv_susp (k : Ctx) (r : Nat) (v : Vec) : (k.wv r v).susp = k.susp := rfl
@[simp] theorem Ctx.wv_ahead (k : Ctx) (r : Nat) (v : Vec) : (k.wv r v).ahead = k.ahead := rfl
@[simp] theorem Ctx.wv_regErr (k : Ctx) (r : Nat) (v : Vec) : (k.wv r v).regErr = k.regErr := rfl
@[simp] theorem Ctx.wv_pair (k : Ctx) (r : Nat) (v : Vec) : (k.wv r v).pair = k.pair := rfl
@[simp] theorem Ctx.wv_gen (k : Ctx) (r : Nat) (v : Vec) : (k.wv r v).gen = k.gen := rfl
@[simp] theorem Ctx.wv_loaded (k : Ctx) (r : Nat) (v : Vec) : (k.wv r v).loaded = k.loaded := rfl
@[simp] theorem Ctx.wv_inv (k : Ctx) (r : Nat) (v : Vec) : (k.wv r v).inv = k.inv := rfl
@[simp] theorem Ctx.wv_dues (k : Ctx) (r : Nat) (v : Vec) : (k.wv r v).dues = k.dues := rfl

@[simp] theorem Ctx.wb_mode (k : Ctx) (r : Nat) (v : Word) : (k.wb r v).mode = k.mode := rfl
@[simp] theorem Ctx.wb_reap (k : Ctx) (r : Nat) (v : Word) : (k.wb r v).reap = k.reap := rfl
@[simp] theorem Ctx.wb_pc (k : Ctx) (r : Nat) (v : Word) : (k.wb r v).pc = k.pc := rfl
@[simp] theorem Ctx.wb_x (k : Ctx) (r : Nat) (v : Word) : (k.wb r v).x = k.x := rfl
@[simp] theorem Ctx.wb_v (k : Ctx) (r : Nat) (v : Word) : (k.wb r v).v = k.v := rfl
@[simp] theorem Ctx.wb_p (k : Ctx) (r : Nat) (v : Word) : (k.wb r v).p = k.p := rfl
@[simp] theorem Ctx.wb_m (k : Ctx) (r : Nat) (v : Word) : (k.wb r v).m = k.m := rfl
@[simp] theorem Ctx.wb_q (k : Ctx) (r : Nat) (v : Word) : (k.wb r v).q = k.q := rfl
@[simp] theorem Ctx.wb_qv (k : Ctx) (r : Nat) (v : Word) : (k.wb r v).qv = k.qv := rfl
@[simp] theorem Ctx.wb_y (k : Ctx) (r : Nat) (v : Word) : (k.wb r v).y = k.y := rfl
@[simp] theorem Ctx.wb_region (k : Ctx) (r : Nat) (v : Word) : (k.wb r v).region = k.region := rfl
@[simp] theorem Ctx.wb_status (k : Ctx) (r : Nat) (v : Word) : (k.wb r v).status = k.status := rfl
@[simp] theorem Ctx.wb_fflags (k : Ctx) (r : Nat) (v : Word) : (k.wb r v).fflags = k.fflags := rfl
@[simp] theorem Ctx.wb_frm (k : Ctx) (r : Nat) (v : Word) : (k.wb r v).frm = k.frm := rfl
@[simp] theorem Ctx.wb_tiles (k : Ctx) (r : Nat) (v : Word) : (k.wb r v).tiles = k.tiles := rfl
@[simp] theorem Ctx.wb_lc (k : Ctx) (r : Nat) (v : Word) : (k.wb r v).lc = k.lc := rfl
@[simp] theorem Ctx.wb_pat (k : Ctx) (r : Nat) (v : Word) : (k.wb r v).pat = k.pat := rfl
@[simp] theorem Ctx.wb_patAt (k : Ctx) (r : Nat) (v : Word) : (k.wb r v).patAt = k.patAt := rfl
@[simp] theorem Ctx.wb_ls (k : Ctx) (r : Nat) (v : Word) : (k.wb r v).ls = k.ls := rfl
@[simp] theorem Ctx.wb_le (k : Ctx) (r : Nat) (v : Word) : (k.wb r v).le = k.le := rfl
@[simp] theorem Ctx.wb_ulvec (k : Ctx) (r : Nat) (v : Word) : (k.wb r v).ulvec = k.ulvec := rfl
@[simp] theorem Ctx.wb_uepc (k : Ctx) (r : Nat) (v : Word) : (k.wb r v).uepc = k.uepc := rfl
@[simp] theorem Ctx.wb_uval (k : Ctx) (r : Nat) (v : Word) : (k.wb r v).uval = k.uval := rfl
@[simp] theorem Ctx.wb_cause (k : Ctx) (r : Nat) (v : Word) : (k.wb r v).cause = k.cause := rfl
@[simp] theorem Ctx.wb_epc (k : Ctx) (r : Nat) (v : Word) : (k.wb r v).epc = k.epc := rfl
@[simp] theorem Ctx.wb_tval (k : Ctx) (r : Nat) (v : Word) : (k.wb r v).tval = k.tval := rfl
@[simp] theorem Ctx.wb_tframe (k : Ctx) (r : Nat) (v : Word) : (k.wb r v).tframe = k.tframe := rfl
@[simp] theorem Ctx.wb_tvec (k : Ctx) (r : Nat) (v : Word) : (k.wb r v).tvec = k.tvec := rfl
@[simp] theorem Ctx.wb_npc (k : Ctx) (r : Nat) (v : Word) : (k.wb r v).npc = k.npc := rfl
@[simp] theorem Ctx.wb_mhb (k : Ctx) (r : Nat) (v : Word) : (k.wb r v).mhb = k.mhb := rfl
@[simp] theorem Ctx.wb_newImage (k : Ctx) (r : Nat) (v : Word) : (k.wb r v).newImage = k.newImage := rfl
@[simp] theorem Ctx.wb_recM (k : Ctx) (r : Nat) (v : Word) : (k.wb r v).recM = k.recM := rfl
@[simp] theorem Ctx.wb_recX (k : Ctx) (r : Nat) (v : Word) : (k.wb r v).recX = k.recX := rfl
@[simp] theorem Ctx.wb_hop (k : Ctx) (r : Nat) (v : Word) : (k.wb r v).hop = k.hop := rfl
@[simp] theorem Ctx.wb_onExt (k : Ctx) (r : Nat) (v : Word) : (k.wb r v).onExt = k.onExt := rfl
@[simp] theorem Ctx.wb_pendX (k : Ctx) (r : Nat) (v : Word) : (k.wb r v).pendX = k.pendX := rfl
@[simp] theorem Ctx.wb_pendV (k : Ctx) (r : Nat) (v : Word) : (k.wb r v).pendV = k.pendV := rfl
@[simp] theorem Ctx.wb_pendY (k : Ctx) (r : Nat) (v : Word) : (k.wb r v).pendY = k.pendY := rfl
@[simp] theorem Ctx.wb_pendQ (k : Ctx) (r : Nat) (v : Word) : (k.wb r v).pendQ = k.pendQ := rfl
@[simp] theorem Ctx.wb_latSeq (k : Ctx) (r : Nat) (v : Word) : (k.wb r v).latSeq = k.latSeq := rfl
@[simp] theorem Ctx.wb_fbuf (k : Ctx) (r : Nat) (v : Word) : (k.wb r v).fbuf = k.fbuf := rfl
@[simp] theorem Ctx.wb_freq (k : Ctx) (r : Nat) (v : Word) : (k.wb r v).freq = k.freq := rfl
@[simp] theorem Ctx.wb_tlb (k : Ctx) (r : Nat) (v : Word) : (k.wb r v).tlb = k.tlb := rfl
@[simp] theorem Ctx.wb_acq (k : Ctx) (r : Nat) (v : Word) : (k.wb r v).acq = k.acq := rfl
@[simp] theorem Ctx.wb_ownLine (k : Ctx) (r : Nat) (v : Word) : (k.wb r v).ownLine = k.ownLine := rfl
@[simp] theorem Ctx.wb_wake (k : Ctx) (r : Nat) (v : Word) : (k.wb r v).wake = k.wake := rfl
@[simp] theorem Ctx.wb_realign (k : Ctx) (r : Nat) (v : Word) : (k.wb r v).realign = k.realign := rfl
@[simp] theorem Ctx.wb_realigned (k : Ctx) (r : Nat) (v : Word) : (k.wb r v).realigned = k.realigned := rfl
@[simp] theorem Ctx.wb_realignN (k : Ctx) (r : Nat) (v : Word) : (k.wb r v).realignN = k.realignN := rfl
@[simp] theorem Ctx.wb_stop (k : Ctx) (r : Nat) (v : Word) : (k.wb r v).stop = k.stop := rfl
@[simp] theorem Ctx.wb_susp (k : Ctx) (r : Nat) (v : Word) : (k.wb r v).susp = k.susp := rfl
@[simp] theorem Ctx.wb_ahead (k : Ctx) (r : Nat) (v : Word) : (k.wb r v).ahead = k.ahead := rfl
@[simp] theorem Ctx.wb_regErr (k : Ctx) (r : Nat) (v : Word) : (k.wb r v).regErr = k.regErr := rfl
@[simp] theorem Ctx.wb_pair (k : Ctx) (r : Nat) (v : Word) : (k.wb r v).pair = k.pair := rfl
@[simp] theorem Ctx.wb_gen (k : Ctx) (r : Nat) (v : Word) : (k.wb r v).gen = k.gen := rfl
@[simp] theorem Ctx.wb_loaded (k : Ctx) (r : Nat) (v : Word) : (k.wb r v).loaded = k.loaded := rfl
@[simp] theorem Ctx.wb_inv (k : Ctx) (r : Nat) (v : Word) : (k.wb r v).inv = k.inv := rfl
@[simp] theorem Ctx.wb_dues (k : Ctx) (r : Nat) (v : Word) : (k.wb r v).dues = k.dues := rfl

@[simp] theorem Ctx.dropLatches_mode (k : Ctx) : k.dropLatches.mode = k.mode := rfl
@[simp] theorem Ctx.dropLatches_reap (k : Ctx) : k.dropLatches.reap = k.reap := rfl
@[simp] theorem Ctx.dropLatches_pc (k : Ctx) : k.dropLatches.pc = k.pc := rfl
@[simp] theorem Ctx.dropLatches_x (k : Ctx) : k.dropLatches.x = k.x := rfl
@[simp] theorem Ctx.dropLatches_v (k : Ctx) : k.dropLatches.v = k.v := rfl
@[simp] theorem Ctx.dropLatches_p (k : Ctx) : k.dropLatches.p = k.p := rfl
@[simp] theorem Ctx.dropLatches_m (k : Ctx) : k.dropLatches.m = k.m := rfl
@[simp] theorem Ctx.dropLatches_q (k : Ctx) : k.dropLatches.q = k.q := rfl
@[simp] theorem Ctx.dropLatches_y (k : Ctx) : k.dropLatches.y = k.y := rfl
@[simp] theorem Ctx.dropLatches_bind (k : Ctx) : k.dropLatches.bind = k.bind := rfl
@[simp] theorem Ctx.dropLatches_region (k : Ctx) : k.dropLatches.region = k.region := rfl
@[simp] theorem Ctx.dropLatches_status (k : Ctx) : k.dropLatches.status = k.status := rfl
@[simp] theorem Ctx.dropLatches_fflags (k : Ctx) : k.dropLatches.fflags = k.fflags := rfl
@[simp] theorem Ctx.dropLatches_frm (k : Ctx) : k.dropLatches.frm = k.frm := rfl
@[simp] theorem Ctx.dropLatches_tiles (k : Ctx) : k.dropLatches.tiles = k.tiles := rfl
@[simp] theorem Ctx.dropLatches_lc (k : Ctx) : k.dropLatches.lc = k.lc := rfl
@[simp] theorem Ctx.dropLatches_pat (k : Ctx) : k.dropLatches.pat = k.pat := rfl
@[simp] theorem Ctx.dropLatches_patAt (k : Ctx) : k.dropLatches.patAt = k.patAt := rfl
@[simp] theorem Ctx.dropLatches_ls (k : Ctx) : k.dropLatches.ls = k.ls := rfl
@[simp] theorem Ctx.dropLatches_le (k : Ctx) : k.dropLatches.le = k.le := rfl
@[simp] theorem Ctx.dropLatches_ulvec (k : Ctx) : k.dropLatches.ulvec = k.ulvec := rfl
@[simp] theorem Ctx.dropLatches_uepc (k : Ctx) : k.dropLatches.uepc = k.uepc := rfl
@[simp] theorem Ctx.dropLatches_uval (k : Ctx) : k.dropLatches.uval = k.uval := rfl
@[simp] theorem Ctx.dropLatches_cause (k : Ctx) : k.dropLatches.cause = k.cause := rfl
@[simp] theorem Ctx.dropLatches_epc (k : Ctx) : k.dropLatches.epc = k.epc := rfl
@[simp] theorem Ctx.dropLatches_tval (k : Ctx) : k.dropLatches.tval = k.tval := rfl
@[simp] theorem Ctx.dropLatches_tframe (k : Ctx) : k.dropLatches.tframe = k.tframe := rfl
@[simp] theorem Ctx.dropLatches_tvec (k : Ctx) : k.dropLatches.tvec = k.tvec := rfl
@[simp] theorem Ctx.dropLatches_npc (k : Ctx) : k.dropLatches.npc = k.npc := rfl
@[simp] theorem Ctx.dropLatches_mhb (k : Ctx) : k.dropLatches.mhb = k.mhb := rfl
@[simp] theorem Ctx.dropLatches_newImage (k : Ctx) : k.dropLatches.newImage = k.newImage := rfl
@[simp] theorem Ctx.dropLatches_recM (k : Ctx) : k.dropLatches.recM = k.recM := rfl
@[simp] theorem Ctx.dropLatches_recX (k : Ctx) : k.dropLatches.recX = k.recX := rfl
@[simp] theorem Ctx.dropLatches_hop (k : Ctx) : k.dropLatches.hop = k.hop := rfl
@[simp] theorem Ctx.dropLatches_onExt (k : Ctx) : k.dropLatches.onExt = k.onExt := rfl
@[simp] theorem Ctx.dropLatches_pendX (k : Ctx) : k.dropLatches.pendX = k.pendX := rfl
@[simp] theorem Ctx.dropLatches_pendV (k : Ctx) : k.dropLatches.pendV = k.pendV := rfl
@[simp] theorem Ctx.dropLatches_pendY (k : Ctx) : k.dropLatches.pendY = k.pendY := rfl
@[simp] theorem Ctx.dropLatches_latSeq (k : Ctx) : k.dropLatches.latSeq = k.latSeq := rfl
@[simp] theorem Ctx.dropLatches_fbuf (k : Ctx) : k.dropLatches.fbuf = k.fbuf := rfl
@[simp] theorem Ctx.dropLatches_freq (k : Ctx) : k.dropLatches.freq = k.freq := rfl
@[simp] theorem Ctx.dropLatches_tlb (k : Ctx) : k.dropLatches.tlb = k.tlb := rfl
@[simp] theorem Ctx.dropLatches_acq (k : Ctx) : k.dropLatches.acq = k.acq := rfl
@[simp] theorem Ctx.dropLatches_ownLine (k : Ctx) : k.dropLatches.ownLine = k.ownLine := rfl
@[simp] theorem Ctx.dropLatches_wake (k : Ctx) : k.dropLatches.wake = k.wake := rfl
@[simp] theorem Ctx.dropLatches_realign (k : Ctx) : k.dropLatches.realign = k.realign := rfl
@[simp] theorem Ctx.dropLatches_realigned (k : Ctx) : k.dropLatches.realigned = k.realigned := rfl
@[simp] theorem Ctx.dropLatches_realignN (k : Ctx) : k.dropLatches.realignN = k.realignN := rfl
@[simp] theorem Ctx.dropLatches_stop (k : Ctx) : k.dropLatches.stop = k.stop := rfl
@[simp] theorem Ctx.dropLatches_susp (k : Ctx) : k.dropLatches.susp = k.susp := rfl
@[simp] theorem Ctx.dropLatches_ahead (k : Ctx) : k.dropLatches.ahead = k.ahead := rfl
@[simp] theorem Ctx.dropLatches_regErr (k : Ctx) : k.dropLatches.regErr = k.regErr := rfl
@[simp] theorem Ctx.dropLatches_pair (k : Ctx) : k.dropLatches.pair = k.pair := rfl
@[simp] theorem Ctx.dropLatches_gen (k : Ctx) : k.dropLatches.gen = k.gen := rfl
@[simp] theorem Ctx.dropLatches_loaded (k : Ctx) : k.dropLatches.loaded = k.loaded := rfl
@[simp] theorem Ctx.dropLatches_inv (k : Ctx) : k.dropLatches.inv = k.inv := rfl
@[simp] theorem Ctx.dropLatches_dues (k : Ctx) : k.dropLatches.dues = k.dues := rfl

end Sys2Proof.Machine
end

