-- ==== Sys2Proof/Laws/Memory.lean ====
section
/-! SUPPORT. Memory: a read after a write, and the canonical form that every memory operation keeps. -/

namespace Sys2Proof.Machine

set_option Elab.async false

/-! ### One byte -/

/-- Below the first listed address nothing is listed. -/
theorem Mem.read_below {m : List Host.Cell} {n a : Nat} (h : Mem.wfFrom n m = true) (ha : a < n) : Mem.read m a = Mem.dflt := by
  cases m with
  | nil => rfl
  | cons e t =>
    obtain ⟨b, v⟩ := e
    simp only [Mem.wfFrom, Bool.and_eq_true, decide_eq_true_eq] at h
    have h1 : b ≠ a := by omega
    have h2 : a < b := by omega
    simp [Mem.read, h1, h2]

theorem Mem.wfFrom_mono {m : List Host.Cell} {n k : Nat} (h : Mem.wfFrom n m = true) (hk : k ≤ n) : Mem.wfFrom k m = true := by
  cases m with
  | nil => rfl
  | cons e t =>
    obtain ⟨b, v⟩ := e
    simp only [Mem.wfFrom, Bool.and_eq_true, decide_eq_true_eq] at h ⊢
    exact ⟨⟨by omega, h.1.2⟩, h.2⟩

theorem Mem.wfFrom_cons {t : List Host.Cell} {n a : Nat} (v : Byte) (h : Mem.wfFrom (a + 1) t = true) (ha : n ≤ a) :
    Mem.wfFrom n (Mem.cons a v t) = true := by
  unfold Mem.cons
  split
  · exact Mem.wfFrom_mono h (by omega)
  · simp [Mem.wfFrom, *]

/-- A write of one byte keeps the canonical form. -/
theorem Mem.wfFrom_write {m : List Host.Cell} {n a : Nat} (v : Byte) (h : Mem.wfFrom n m = true) (ha : n ≤ a) :
    Mem.wfFrom n (Mem.write m a v) = true := by
  induction m generalizing n with
  | nil => exact Mem.wfFrom_cons v (t := []) (by rfl) ha
  | cons e t ih =>
    obtain ⟨b, w⟩ := e
    simp only [Mem.wfFrom, Bool.and_eq_true, decide_eq_true_eq] at h
    by_cases h1 : a = b
    · subst h1; simpa [Mem.write] using Mem.wfFrom_cons v h.2 ha
    · by_cases h2 : a < b
      · simp only [Mem.write, h1, h2, if_true, if_false]
        exact Mem.wfFrom_cons v (by simp [Mem.wfFrom, h.1.2, h.2]; omega) ha
      · simp only [Mem.write, h1, h2, if_false, Mem.wfFrom, Bool.and_eq_true, decide_eq_true_eq]
        exact ⟨h.1, ih h.2 (by omega)⟩

theorem Mem.read_cons {t : List Host.Cell} {a b : Nat} (v : Byte) (h : Mem.wfFrom (a + 1) t = true) :
    Mem.read (Mem.cons a v t) b = if b = a then v else if b < a then Mem.dflt else Mem.read t b := by
  unfold Mem.cons
  split
  · next hv =>
    by_cases h1 : b = a
    · subst h1; simp [hv, Mem.read_below h]
    · by_cases h2 : b < a
      · simp [h1, h2, Mem.read_below h (show b < a + 1 by omega)]
      · simp [h1, h2]
  · simp only [Mem.read, eq_comm]

/-- A read after a write: the byte written, and every other byte as before. -/
theorem Mem.read_write {m : List Host.Cell} {n a : Nat} (v : Byte) (h : Mem.wfFrom n m = true) (b : Nat) :
    Mem.read (Mem.write m a v) b = if b = a then v else Mem.read m b := by
  induction m generalizing n with
  | nil =>
    simp only [Mem.write, Mem.read_cons (t := []) v rfl, Mem.read]
    split <;> simp
  | cons e t ih =>
    obtain ⟨c, w⟩ := e
    have h' := h
    simp only [Mem.wfFrom, Bool.and_eq_true, decide_eq_true_eq] at h
    by_cases h1 : a = c
    · subst h1
      simp only [Mem.write, if_true, Mem.read_cons v h.2, Mem.read]
      by_cases h2 : b = a
      · simp [h2]
      · simp [h2, Ne.symm h2]
    · by_cases h2 : a < c
      · simp only [Mem.write, h1, h2, if_true, if_false]
        rw [Mem.read_cons v (by simp [Mem.wfFrom, h.1.2, h.2]; omega)]
        by_cases h3 : b = a
        · simp [h3]
        · by_cases h4 : b < a
          · have h5 : c ≠ b := by omega
            have h6 : b < c := by omega
            simp [h3, h4, Mem.read, h5, h6]
          · simp [h3, h4]
      · simp only [Mem.write, h1, h2, if_false, Mem.read]
        by_cases h3 : c = b
        · subst h3; simp [Ne.symm h1]
        · by_cases h4 : b < c
          · have h5 : b ≠ a := by omega
            simp [h3, h4, h5]
          · simp [h3, h4, ih h.2]

/-! ### Several bytes -/

/-- A store keeps the canonical form. -/
theorem Mem.wf_store (bs : List Byte) (m : List Host.Cell) (a : Nat) (h : Memory.wf m = true) :
    Memory.wf (Mem.store m a bs) = true := by
  induction bs generalizing m a with
  | nil => exact h
  | cons b bs ih => exact ih _ _ (Mem.wfFrom_write b h (Nat.zero_le a))

/-- A read after a store: inside the stored bytes the byte stored there, outside them what was there before. -/
theorem Mem.read_store (bs : List Byte) (m : List Host.Cell) (a : Nat) (h : Memory.wf m = true) (b : Nat) :
    Mem.read (Mem.store m a bs) b = if a ≤ b ∧ b < a + bs.length then bs.getD (b - a) 0 else Mem.read m b := by
  induction bs generalizing m a with
  | nil =>
    have : ¬ (a ≤ b ∧ b < a) := by omega
    simp [Mem.store, this]
  | cons v bs ih =>
    rw [Mem.store, ih _ _ (Mem.wfFrom_write v h (Nat.zero_le a)), Mem.read_write v h]
    by_cases h1 : b = a
    · subst h1
      have h2 : ¬ (b + 1 ≤ b ∧ b < b + 1 + bs.length) := by omega
      have h3 : b ≤ b ∧ b < b + (bs.length + 1) := by omega
      simp [h2, h3]
    · by_cases h2 : a ≤ b ∧ b < a + (bs.length + 1)
      · have h3 : a + 1 ≤ b ∧ b < a + 1 + bs.length := by omega
        have h4 : b - a = (b - (a + 1)) + 1 := by omega
        simp only [List.length_cons, h2, h3, and_self, if_true]
        rw [h4]; rfl
      · have h3 : ¬ (a + 1 ≤ b ∧ b < a + 1 + bs.length) := by omega
        simp only [List.length_cons, h2, h3, h1, if_false]

/-- A store changes no byte outside its own: in every memory, canonical or not, the addresses below stay. -/
theorem Mem.read_store_outside (bs : List Byte) (m : List Host.Cell) (a : Nat) (h : Memory.wf m = true) {b : Nat}
    (hb : b < a ∨ a + bs.length ≤ b) : Mem.read (Mem.store m a bs) b = Mem.read m b := by
  rw [Mem.read_store bs m a h]
  have : ¬ (a ≤ b ∧ b < a + bs.length) := by omega
  simp [this]

@[simp] theorem Mem.bytes_length (m : List Host.Cell) (a n : Nat) : (Mem.bytes m a n).length = n := by
  induction n generalizing a with
  | zero => rfl
  | succ n ih => simp [Mem.bytes, ih]

/-! ### Operations of the state -/

theorem State.wf_wrBytes {s : State} (h : Memory.wf s.mem = true) (pa : Nat) (bs : List Byte) :
    Memory.wf (s.wrBytes pa bs).mem = true := Mem.wf_store bs s.mem pa h

theorem State.wf_wr64 {s : State} (h : Memory.wf s.mem = true) (pa : Nat) (v : Word) : Memory.wf (s.wr64 pa v).mem = true :=
  State.wf_wrBytes h pa _

theorem State.wf_wrWords {s : State} (h : Memory.wf s.mem = true) (ws : List Word) (pa : Nat) :
    Memory.wf (s.wrWords pa ws).mem = true := by
  induction ws generalizing s pa with
  | nil => exact h
  | cons w ws ih => exact ih (State.wf_wr64 h pa w) (pa + 8)

theorem State.wf_writeFrame {s : State} (h : Memory.wf s.mem = true) (c t : Nat) (pc : BitVec 60) (stop : BitVec 8) :
    Memory.wf (s.writeFrame c t pc stop).mem = true := State.wf_wrWords h _ _

end Sys2Proof.Machine
end

