-- ==== Sys2Proof/Laws/Issue.lean ====
section
/-! SUPPORT. The issue of one slot in a context that is ready: which conditions let it complete, and what its completion leaves
(R71, R90, R93, R94, R285). The meanings of the slots are used through these lemmas. -/

namespace Sys2Proof.Machine

set_option Elab.async false

/-! ### Nothing pending, nothing bound -/

theorem SlotDef.waits_of_clear (d : SlotDef) {k : Ctx} (hx : k.pendX = 0) (hy : k.pendY = 0) (hv : k.pendV = 0) (hq : k.pendQ = 0) :
    d.waits k = false := by
  have h1 : k.xPending = fun _ => false := by funext r; simp [Ctx.xPending, hx, hy, bit]
  have h2 : k.vPending = fun _ => false := by funext r; simp [Ctx.vPending, hv, bit]
  have h3 : k.latchPending = fun _ => false := by funext r; simp [Ctx.latchPending, hq, bit]
  simp [SlotDef.waits, h1, h2, h3]

theorem Ctx.readBound_of_unbound {k : Ctx} (h : ∀ r, k.bindKind r = 0) (r : Nat) : k.readBound r = false := by
  simp [Ctx.readBound, h]

theorem Ctx.writeBound_of_unbound {k : Ctx} (h : ∀ r, k.bindKind r = 0) (r : Nat) : k.writeBound r = false := by
  simp [Ctx.writeBound, h]

/-- A slot without stream operands. -/
structure SlotDef.Plain (d : SlotDef) (k : Ctx) : Prop where
  reads : d.streamReads k = []
  pushes : d.pushes k = none
  ways : d.wrongWay k = none

theorem SlotDef.plain_of_unbound (d : SlotDef) {k : Ctx} (h : ∀ r, k.bindKind r = 0) : d.Plain k where
  reads := by simp [SlotDef.streamReads, Ctx.readBound_of_unbound h]
  pushes := by unfold SlotDef.pushes; split <;> simp [Ctx.writeBound_of_unbound h]
  ways := by
    have h1 : (regsOf d.vs).find? k.writeBound = none := by
      simp [List.find?_eq_none, Ctx.writeBound_of_unbound h]
    have h2 : d.vo.find? (fun r => decide (k.bindKind r ≠ 0)) = none := by
      simp [List.find?_eq_none, h]
    simp only [SlotDef.wrongWay, h1, h2]
    split <;> simp [Ctx.readBound_of_unbound h]

theorem SlotDef.plain_of_noV (d : SlotDef) {k : Ctx} (h1 : d.vs = []) (h2 : d.vo = []) (h3 : d.vd = none) : d.Plain k where
  reads := by simp [SlotDef.streamReads, h1, h2, regsOf]
  pushes := by simp [SlotDef.pushes, h3]
  ways := by simp [SlotDef.wrongWay, h1, h2, h3, regsOf]

theorem SlotDef.Plain.streamWait {d : SlotDef} {e : Env} (h : d.Plain e.k) : d.streamWait e = false := by
  simp [SlotDef.streamWait, h.reads, h.pushes]

theorem SlotDef.Plain.badHead {d : SlotDef} {e : Env} (h : d.Plain e.k) : d.badHead e = none := by
  simp [SlotDef.badHead, h.reads]

theorem SlotDef.Plain.early {d : SlotDef} {e : Env} (h : d.Plain e.k) (ht : d.tiles = []) : d.early e = none := by
  simp [SlotDef.early, h.ways, h.badHead, SlotDef.outside, ht]

/-! ### Operands that can be read -/

/-- The codes name registers or valid latches. -/
def readable (k : Ctx) (l : List (BitVec 6)) : Prop := ∀ c ∈ l, c.toNat < 32 ∨ (c.toNat < 36 ∧ bit k.qv (c.toNat - 32) = true)

theorem SlotDef.lost_of_readable {d : SlotDef} {k : Ctx} (h : readable k (d.xs ++ d.vs)) : d.lost k = none := by
  unfold SlotDef.lost
  have : (d.xs ++ d.vs).find? (fun c => decide (32 ≤ c.toNat) && decide (c.toNat < 36) && !bit k.qv (c.toNat - 32)) = none := by
    rw [List.find?_eq_none]
    intro c hc
    rcases h c hc with h1 | ⟨_, h2⟩
    · simp; intro h3; omega
    · simp [h2]
  rw [this]; rfl

theorem codes_of_readable {k : Ctx} {l : List (BitVec 6)} (h : readable k l) : l.any (fun c => decide (36 ≤ c.toNat)) = false := by
  rw [List.any_eq_false]
  intro c hc
  rcases h c hc with h1 | ⟨h2, _⟩ <;> simp <;> omega

/-- No illegal-opcode condition of the slot holds. -/
theorem SlotDef.illegal_none {d : SlotDef} {e : Env} (h1 : d.badMod = none) (h2 : d.bad = false)
    (h3 : readable e.k (d.xs ++ d.vs)) (h4 : d.check e = none) (h5 : d.ill e = false) : d.illegal e = none := by
  simp [SlotDef.illegal, h1, h2, codes_of_readable h3, h4, h5]

/-! ### One slot that completes -/

/-- The environment of the only slot of a bundle given with its words. -/
def slotEnv (s : State) (ws : List SlotWord) : Env :=
  { s.env s.turn (nowCtx s) ws.length with word := ws.getLastD 0, idx := BitVec.ofNat 3 (ws.length - 1) }

@[simp] theorem slotEnv_s (s : State) (ws : List SlotWord) : (slotEnv s ws).s = s := rfl
@[simp] theorem slotEnv_c (s : State) (ws : List SlotWord) : (slotEnv s ws).c = s.turn := rfl
@[simp] theorem slotEnv_t (s : State) (ws : List SlotWord) : (slotEnv s ws).t = nowCtx s := rfl
@[simp] theorem slotEnv_pc (s : State) (ws : List SlotWord) : (slotEnv s ws).pc = (now s).pc := rfl
@[simp] theorem slotEnv_next (s : State) (ws : List SlotWord) :
    (slotEnv s ws).next = (now s).pc + BitVec.ofNat 60 (4 * ws.length) := rfl
@[simp] theorem slotEnv_stg (s : State) (ws : List SlotWord) : (slotEnv s ws).stg = none := rfl
@[simp] theorem slotEnv_word (s : State) (ws : List SlotWord) : (slotEnv s ws).word = ws.getLastD 0 := rfl
@[simp] theorem slotEnv_idx (s : State) (ws : List SlotWord) : (slotEnv s ws).idx = BitVec.ofNat 3 (ws.length - 1) := rfl

/-- What lets a slot complete: no illegal opcode, enough privilege, operands at hand, an effect without a stop. -/
structure Completes (s : State) (ws : List SlotWord) (d : SlotDef) (w : Work) : Prop where
  legal : d.illegal (slotEnv s ws) = none
  level : d.lvl ≤ (now s).prv
  live : d.live (now s) = true
  fp64 : (d.fp64 && !hasFp64 s.turn) = false
  kept : d.lost (now s) = none
  plain : d.Plain (now s)
  free : d.tileBusy (slotEnv s ws) = false
  inside : d.outside (now s) = none
  place : d.place = false
  effect : d.effect (slotEnv s ws) { s := s } = .ok w
  quiet : w.flags &&& field (now s).status 8 5 = 0

/-- The environment of a slot of a bundle that pops nothing. -/
theorem slotEnv_again (s : State) (ws : List SlotWord) :
    ({ slotEnv s ws with word := ws.getLastD 0, idx := BitVec.ofNat 3 (ws.length - 1) } : Env) = slotEnv s ws := rfl

/-- The tally of one slot without stream operands. -/
theorem tally_item {s : State} {ws : List SlotWord} {d : SlotDef} (hp : d.Plain (now s)) :
    tally (s.env s.turn (nowCtx s) ws.length) [{ idx := ws.length - 1, word := ws.getLastD 0, d := d }]
      = Tally.slot (slotEnv s ws) (isControl (ws.getLastD 0)) { w := { s := s } }
          { idx := ws.length - 1, word := ws.getLastD 0, d := d } := by
  have hpop : popsOf (s.env s.turn (nowCtx s) ws.length).k [{ idx := ws.length - 1, word := ws.getLastD 0, d := d }] = [] := by
    have : (s.env s.turn (nowCtx s) ws.length).k = now s := rfl
    simp [popsOf, this, hp.reads, uniq]
  simp only [tally, hpop, List.foldl_cons, List.foldl_nil, List.any_cons, List.any_nil, Bool.or_false]
  rfl

/-- A guarded slot of a ready context that completes comes to one bundle that commits its work. -/
theorem runSlot_commit {s : State} (hr : Ready s) {ws : List SlotWord} {d : SlotDef} {w : Work} (h : Completes s ws d w)
    (hp : w.xfer.parks = false) (hl : w.loads = [] := by rfl) :
    runSlot ws d s = .next ((State.commit (s.env s.turn (nowCtx s) ws.length)
      [{ idx := ws.length - 1, word := ws.getLastD 0, d := d }] w).endCycle s.turn) := by
  have hk : (slotEnv s ws).k = now s := rfl
  have hearly : d.early (slotEnv s ws) = none := by
    simp [SlotDef.early, hk, h.plain.ways, h.inside, SlotDef.badHead, h.plain.reads]
  have heval : d.eval (slotEnv s ws) { s := s } = .done w := by
    have h1 : ¬ (now s).prv < d.lvl := by have := h.level; omega
    have h64 := h.fp64
    simp only [SlotDef.eval, h.legal, hk, h.live, h.kept, hearly, h.effect, if_neg h1, slotEnv_c, h64, Bool.not_true,
      Bool.false_eq_true, if_false]
  have hdam : d.damaged (now s) = none := by simp [SlotDef.damaged, hr.sound]
  have hsw : d.streamWait (slotEnv s ws) = false := SlotDef.Plain.streamWait (e := slotEnv s ws) h.plain
  have hw0 : d.waits (now s) = false := d.waits_of_clear hr.pendX hr.pendY hr.pendV hr.pendQ
  have htally : tally (s.env s.turn (nowCtx s) ws.length) [{ idx := ws.length - 1, word := ws.getLastD 0, d := d }]
      = { w := w } := by
    rw [tally_item h.plain]
    simp only [Tally.slot, slotEnv_again, hk, hw0, hsw, h.free, h.place]
    simp only [heval, hdam]
    simp [hr.alone, h.quiet]
  have hrun := hr.running
  have hgo := hr.going
  have hal := hr.alone
  have happ : (now s).appends = true := by simp [Ctx.appends, hal]
  simp only [runSlot, hrun, hgo, and_self, if_true]
  congr 2
  have hcar : ¬ (w.xfer.carries = true ∧ field (now s).pendX 1 6 ≠ (0#6)) := by
    rw [hr.pendX]; simp [field]
  have hk2 : (s.env s.turn (nowCtx s) ws.length).k = now s := rfl
  simp only [State.issue, htally, hk2]
  simp [chooseTrap, hp, hal, hl, hr.pendX, State.env, Ctx.appends, field]

/-- A slot of a ready context that waits for nothing: what its evaluation comes to is what the bundle comes to. -/
theorem tally_one {s : State} (hr : Ready s) {ws : List SlotWord} {d : SlotDef} (hl : d.Plain (now s)) (hs : d.streamWait (slotEnv s ws) = false)
    (hf : d.tileBusy (slotEnv s ws) = false) (hp : (d.place && isControl (ws.getLastD 0)) = false) {code : BitVec 8} {v : Word}
    (h : d.eval (slotEnv s ws) { s := s } = .trap code v) :
    tally (s.env s.turn (nowCtx s) ws.length) [{ idx := ws.length - 1, word := ws.getLastD 0, d := d }]
      = { w := { s := s }, traps := [{ slot := ws.length - 1, code := code, tval := v }] } := by
  have hw : d.waits (now s) = false := d.waits_of_clear hr.pendX hr.pendY hr.pendV hr.pendQ
  have hk : (slotEnv s ws).k = now s := rfl
  rw [tally_item hl]
  simp only [Tally.slot, slotEnv_again, hk, hw, hs, hf]
  simp only [h, hp, insertCand]
  rfl

/-- A context that runs alone has no twin to drop. -/
theorem dropTwin_countIssue {s : State} (h : (now s).pair = none) :
    (s.countIssue s.turn (nowCtx s)).dropTwin s.turn (nowCtx s) = s.countIssue s.turn (nowCtx s) := by
  have : ((s.countIssue s.turn (nowCtx s)).ctx s.turn (nowCtx s)).pair = none := by
    unfold State.countIssue
    rw [State.ctx_modCore s s.turn (nowCtx s) _ (Core.perfAdd_ctxs _ 0x01 (some (nowCtx s)))]
    exact h
  simp only [State.dropTwin, this]

/-- A slot of a ready context whose evaluation traps (R94): taking the trap is all that the bundle does. -/
theorem runSlot_trap {s : State} (hr : Ready s) {ws : List SlotWord} {d : SlotDef} (hl : d.Plain (now s))
    (hs : d.streamWait (slotEnv s ws) = false)
    (hf : d.tileBusy (slotEnv s ws) = false) (hp : (d.place && isControl (ws.getLastD 0)) = false) {code : BitVec 8} {v : Word}
    (h : d.eval (slotEnv s ws) { s := s } = .trap code v) (h1 : code ≠ cPoison) (h2 : code ≠ cFp) :
    runSlot ws d s = .next (trapped s code (ws.length - 1) v) := by
  have hrun := hr.running
  have hgo := hr.going
  have hal := hr.alone
  have hc1 : (code != cPoison) = true := by simpa using h1
  have hc2 : (code != cFp) = true := by simpa using h2
  simp only [runSlot, hrun, hgo, and_self, if_true, State.issue, tally_one hr hl hs hf hp h]
  simp only [chooseTrap, List.find?_cons, hc1, hc2, Bool.and_self]
  simp only [hal, State.env, Ctx.appends, State.bundleTrap, h1, h2]
  simp [dropTwin_countIssue hal, trapped]

/-- A completing slot that raises an enabled flag (R91). -/
theorem runSlot_fp {s : State} (hr : Ready s) {ws : List SlotWord} {d : SlotDef} {w : Work} (hl : d.Plain (now s))
    (hs : d.streamWait (slotEnv s ws) = false)
    (hf : d.tileBusy (slotEnv s ws) = false) (hp : d.place = false) (h : d.eval (slotEnv s ws) { s := s } = .done w)
    (hq : w.flags &&& field (now s).status 8 5 ≠ 0) :
    runSlot ws d s = .next (trapped s cFp (ws.length - 1) (w.flags.setWidth 64)) := by
  have hrun := hr.running
  have hgo := hr.going
  have hal := hr.alone
  have hw : d.waits (now s) = false := d.waits_of_clear hr.pendX hr.pendY hr.pendV hr.pendQ
  have hdam : d.damaged (now s) = none := by simp [SlotDef.damaged, hr.sound]
  have hk : (slotEnv s ws).k = now s := rfl
  have ht : tally (s.env s.turn (nowCtx s) ws.length) [{ idx := ws.length - 1, word := ws.getLastD 0, d := d }]
      = { w := w, traps := [{ slot := ws.length - 1, code := cFp, tval := 0 }] } := by
    rw [tally_item hl]
    simp only [Tally.slot, slotEnv_again, hk, hw, hs, hf, hp]
    simp only [h, hdam]
    simp [hr.alone, insertCand]
    exact hq
  have hc : (cFp != cFp) = false := rfl
  have hc' : (cFp == cPoison) = false := rfl
  have hc'' : cFp ≠ cPoison := by decide
  simp only [runSlot, hrun, hgo, and_self, if_true, State.issue, ht]
  simp only [chooseTrap, hal, State.env, Ctx.appends, State.bundleTrap]
  simp [dropTwin_countIssue hal, trapped]

/-! ### What a commit leaves -/

/-- The request of a line changes the fetch buffer of its context and nothing else (R182). -/
theorem State.wantLine_eq (s : State) (c t : Nat) :
    ∃ b r, s.wantLine c t = s.modCtx c t (fun k => { k with fbuf := b, freq := r }) ∨ s.wantLine c t = s := by
  unfold State.wantLine State.modCtx
  simp only
  split
  · split
    · exact ⟨.empty, none, .inr rfl⟩
    · exact ⟨_, _, .inl rfl⟩
  · exact ⟨_, _, .inl rfl⟩

/-- The bookkeeping of a bundle's end: the fields that stand outside what its slots say. -/
structure Ctx.SameBut (k h : Ctx) : Prop where
  eq : k = { h with fbuf := k.fbuf, freq := k.freq }

theorem State.ctx_wantLine (s : State) (c t : Nat) : ((s.wantLine c t).ctx c t).SameBut (s.ctx c t) := by
  obtain ⟨b, r, h | h⟩ := s.wantLine_eq c t <;> rw [h] <;> constructor <;> simp

theorem State.ctx_wantLine_ne (s : State) (c : Nat) {t u : Nat} (h : u % 16 ≠ t % 16) :
    (s.wantLine c t).ctx c u = s.ctx c u := by
  obtain ⟨b, r, e | e⟩ := s.wantLine_eq c t <;> rw [e]
  exact State.ctx_modCtx_ne _ _ _ h

theorem State.core_wantLine_ne (s : State) {c d : Nat} (t : Nat) (h : d ≠ c) : (s.wantLine c t).core d = s.core d := by
  obtain ⟨b, r, e | e⟩ := s.wantLine_eq c t <;> rw [e]
  exact State.core_modCtx_ne _ _ _ h

theorem State.core_wantLine_self (s : State) (c t : Nat) :
    (s.wantLine c t).core c = { (s.core c) with ctxs := ((s.wantLine c t).core c).ctxs } := by
  obtain ⟨b, r, e | e⟩ := s.wantLine_eq c t <;> rw [e]
  simp [State.core_modCtx_self]

theorem State.wantLine_rest (s : State) (c t : Nat) : s.wantLine c t = { s with cores := (s.wantLine c t).cores } := by
  obtain ⟨b, r, e | e⟩ := s.wantLine_eq c t <;> rw [e] <;> rfl

@[simp] theorem Core.arrayCycle_ctxs (k : Core) : k.arrayCycle.ctxs = k.ctxs := by
  unfold Core.arrayCycle; split
  · rfl
  · split <;> rfl

theorem State.ctx_endCycle (s : State) (c d t : Nat) : (s.endCycle c).ctx d t = s.ctx d t := by
  by_cases h : d = c
  · subst h; simp [State.endCycle, State.ctx, State.core, State.modCore, State.setCore]
  · simp [State.endCycle, State.ctx, State.core, State.modCore, State.setCore, Tab.getD_set_ne _ _ _ h]

theorem State.core_endCycle_ne (s : State) {c d : Nat} (h : d ≠ c) : (s.endCycle c).core d = s.core d := by
  simp [State.endCycle, State.core, State.modCore, State.setCore, Tab.getD_set_ne _ _ _ h]

theorem State.core_endCycle_self (s : State) (c : Nat) :
    (s.endCycle c).core c = ({ (s.core c).arrayCycle with cycle := (s.core c).cycle + 1 } : Core).perfAdd 0x00 none := by
  simp [State.endCycle, State.core, State.modCore, State.setCore]

/-- The array's cycle under changes of fields that it does not read. -/
theorem Core.arrayCycle_with (x : Core) (y : Vector Ctx 16) (p : Vector Perf 8) :
    ∃ p', ({ x with ctxs := y, perf := p } : Core).arrayCycle = { x.arrayCycle with ctxs := y, perf := p' } := by
  unfold Core.arrayCycle
  rcases hr : x.run with _ | r
  · exact ⟨p, by simp only [hr]⟩
  · by_cases hf : x.freeze = 0
    · exact ⟨_, by simp only [hf, ne_eq, not_true_eq_false, if_false]; rfl⟩
    · exact ⟨p, by simp only [hr, hf, ne_eq, not_false_eq_true, if_true]⟩

/-- A state that differs from s' in the fetch and the performance counts of the issuing context only, and whose context is that of
s' with what it had waited for cleared, is s' after the rest of the cycle. -/
theorem after_endCycle {s s' a : State} (hsteps : s'.steps = s.steps) (htime : s'.time = s.time)
    (hcyc : (s'.core s.turn).cycle = (s.core s.turn).cycle)
    (h1 : ∃ cs, a = { s' with cores := cs })
    (h2 : ∀ d, d ≠ s.turn → a.core d = s'.core d)
    (h3 : ∃ y p, a.core s.turn = { (s'.core s.turn) with ctxs := y, perf := p })
    (h4 : ∀ u, u < 16 → u ≠ nowCtx s → a.ctx s.turn u = s'.ctx s.turn u)
    (h5 : a.ctx s.turn (nowCtx s) = { (s'.ctx s.turn (nowCtx s)) with
      fbuf := (a.ctx s.turn (nowCtx s)).fbuf, freq := (a.ctx s.turn (nowCtx s)).freq, latSeq := (now s).latSeq + 1
      tlb := .none, acq := none, ownLine := none, wake := .none, realigned := false, loaded := [], inv := none, dues := [] }) :
    After s s' (a.endCycle s.turn) where
  rest := by
    obtain ⟨cs, rfl⟩ := h1
    unfold State.endCycle
    simp only [State.modCore_steps, State.modCore_time, hsteps, htime]
    rfl
  memory := by
    obtain ⟨cs, rfl⟩ := h1
    exact fun _ => rfl
  cores := fun d hd => by rw [State.core_endCycle_ne _ hd, h2 d hd]
  core := by
    obtain ⟨y, p, h3⟩ := h3
    obtain ⟨p', hp⟩ := Core.arrayCycle_with (s'.core s.turn) y p
    rw [State.core_endCycle_self, h3, hp]
    simp only [hcyc]
    rfl
  ctxs := fun u h hu => by rw [State.ctx_endCycle, h4 u h hu]
  ctx := by rw [State.ctx_endCycle]; exact h5

/-- What a bundle leaves in the latches, as a list of the results of its one slot. -/
def resOf : List LatRes → Res
  | [] => .none
  | .val v :: _ => .val v
  | .await _ :: _ => .await
  | .none :: _ => .none

theorem Ctx.fillLatches_one (k : Ctx) {l : List LatRes} (h : l.length ≤ 1) :
    k.fillLatches l = { (latched k (resOf l)) with latSeq := k.latSeq + 1 } := by
  match l, h with
  | [], _ => rfl
  | [.val v], _ => simp [Ctx.fillLatches, latched, resOf, List.range, List.range.loop]
  | [.await r], _ => simp [Ctx.fillLatches, latched, resOf, List.range, List.range.loop]
  | [.none], _ => rfl

theorem goOn_fallThrough (k : Ctx) (next : BitVec 60) : k.fallThrough k.pc next = goOn k next := by
  unfold Ctx.fallThrough goOn
  by_cases h : k.pc = k.le
  · simp only [h, if_true, ne_eq, not_true_eq_false, if_false]
    split
    · rfl
    · split
      · rfl
      · next h1 h2 =>
        have : k.lc = 0 := by
          apply BitVec.eq_of_toNat_eq
          have : k.lc.toNat ≠ 1 := fun h => h2 (BitVec.eq_of_toNat_eq (by simpa using h))
          simp; omega
        rw [this]
  · simp [h]

/-! ### Transfers -/

/-- The context after a transfer that keeps it (R72, R93, R97, R106, R315, R316). -/
def moved (k : Ctx) (next : BitVec 60) : Xfer → Ctx
  | .goto a => { k.dropLatches with pc := a }
  | .call a => { (k.wx 31 (next.setWidth 64)).dropLatches with pc := a }
  | .tret => { k.dropLatches with pc := k.epc, status := k.status &&& ~~~(8#64) }
  | .uiret => { k.dropLatches with pc := k.uepc, status := k.status &&& ~~~(16#64) }
  | _ => goOn k next

theorem State.transfer_moved (s : State) (c t : Nat) {pc : BitVec 60} (next : BitVec 60) {x : Xfer} (hx : x.suspends = false)
    (hpc : (s.ctx c t).pc = pc) (hl : ∀ a, x = .call a → bit (s.ctx c t).pendX 31 = false) :
    s.transfer c t pc next x = (s.modCtx c t (fun k => moved k next x)).wantLine c t := by
  subst hpc
  cases x <;> simp only [Xfer.suspends, Bool.true_eq_false] at hx
  · simp only [State.transfer, moved, State.modCtx_eq, goOn_fallThrough]
  · rfl
  · next a =>
    have h := hl a rfl
    simp only [State.transfer, State.keepLink, h, Bool.false_eq_true, if_false, State.goTo, moved, State.modCtx_modCtx]
  · rfl
  · rfl

@[simp] theorem goOn_regErr (k : Ctx) (n : BitVec 60) : (goOn k n).regErr = k.regErr := by
  unfold goOn; split
  · rfl
  · split <;> rfl
@[simp] theorem goOn_pair (k : Ctx) (n : BitVec 60) : (goOn k n).pair = k.pair := by
  unfold goOn; split
  · rfl
  · split <;> rfl
@[simp] theorem moved_pair (k : Ctx) (n : BitVec 60) (x : Xfer) : (moved k n x).pair = k.pair := by
  cases x <;> simp [moved]

/-- What the end of a bundle clears in its context. -/
def Ctx.settle (k : Ctx) : Ctx :=
  { k with tlb := .none, acq := none, ownLine := none, wake := .none, realigned := false, loaded := [], inv := none, dues := [] }

theorem moved_settle (k : Ctx) (n : BitVec 60) (x : Xfer) : moved k.settle n x = (moved k n x).settle := by
  have h : goOn k.settle n = (goOn k n).settle := by
    unfold goOn Ctx.settle; simp only
    split
    · rfl
    · split <;> rfl
  cases x <;> simp only [moved, h]
  · rfl
  · unfold Ctx.wx Ctx.settle Ctx.dropLatches; simp only
    split
    · rfl
    · split <;> rfl
  · rfl
  · rfl

theorem moved_latSeq (k : Ctx) (n : BitVec 60) (x : Xfer) (m : Nat) :
    moved { k with latSeq := m } n x = { (moved k n x) with latSeq := m } := by
  have h : goOn { k with latSeq := m } n = { (goOn k n) with latSeq := m } := by
    unfold goOn; simp only
    split
    · rfl
    · split <;> rfl
  cases x <;> simp only [moved, h]
  · rfl
  · unfold Ctx.wx Ctx.dropLatches; simp only
    split
    · rfl
    · split <;> rfl
  · rfl
  · rfl

/-- Counting an event leaves every context. -/
theorem State.ctx_perf (s : State) (c t ev : Nat) (q : Option Nat) : (s.modCore c (fun k => k.perfAdd ev q)).ctx c t = s.ctx c t :=
  State.ctx_modCore s c t _ (Core.perfAdd_ctxs _ ev q)

/-! ### The commit of one slot -/

/-- What the commit of a slot's work needs of it: no binding, no pairing, no lines dropped, no suspension, and the issuing context
still as the issue of the bundle found it. -/
structure Settled (s : State) (w : Work) : Prop where
  binds : w.binds = []
  pairOn : w.pairOn = none
  pairOff : w.pairOff = false
  refetch : w.refetch = false
  stays : w.xfer.suspends = false
  one : w.lat.length ≤ 1
  loads : w.loads = []
  link : ∀ a, w.xfer = .call a → bit (w.s.ctx s.turn (nowCtx s)).pendX 31 = false
  sound : (w.s.ctx s.turn (nowCtx s)).regErr = []
  alone : (w.s.ctx s.turn (nowCtx s)).pair = none
  pc : (w.s.ctx s.turn (nowCtx s)).pc = (now s).pc
  seq : (w.s.ctx s.turn (nowCtx s)).latSeq = (now s).latSeq
  steps : w.s.steps = s.steps
  time : w.s.time = s.time
  cycle : (w.s.core s.turn).cycle = (s.core s.turn).cycle

@[simp] theorem State.ctx_loadsFirst (s : State) (n g b : Nat) (u : Bool) (c t : Nat) : (s.loadsFirst n g b u).ctx c t = s.ctx c t := rfl
@[simp] theorem State.core_loadsFirst (s : State) (n g b : Nat) (u : Bool) (c : Nat) : (s.loadsFirst n g b u).core c = s.core c := rfl

/-- A bundle that has sent nothing. -/
theorem State.loadsFirst_none (s : State) {n : Nat} (g b : Nat) (u : Bool) (h : s.flight.length = n) : s.loadsFirst n g b u = s := by
  subst h; simp [State.loadsFirst]

/-- The state that a slot's work leaves, its bundle's flags, latches and transfer included. -/
def committed (s : State) (n : Nat) (w : Work) : State :=
  (stamped s w.s).modCtx s.turn (nowCtx s) (fun k =>
    moved (latched (raised k w.flags) (resOf w.lat)) ((now s).pc + BitVec.ofNat 60 (4 * n)) w.xfer)

theorem commit_after {s : State} {n : Nat} {it : Item} {w : Work} (hp : it.d.Plain (now s)) (hw : Settled s w) :
    After s (committed s n w) ((State.commit (s.env s.turn (nowCtx s) n) [it] w).endCycle s.turn) := by
  have hpop : popsOf (now s) [it] = [] := by simp [popsOf, hp.reads, uniq]
  have hmend : w.s.mendRegs s.turn (nowCtx s) [it] = w.s := by simp [State.mendRegs, hw.sound]
  obtain ⟨A, hA⟩ : ∃ A, A = stamped s w.s := ⟨_, rfl⟩
  have hAc : A.ctx s.turn (nowCtx s) = w.s.ctx s.turn (nowCtx s) := by rw [hA]; rfl
  have hAk : ∀ c, A.core c = w.s.core c := by intro c; rw [hA]; rfl
  obtain ⟨B, hB⟩ : ∃ B, B = ((A.modCtx s.turn (nowCtx s) (fun k =>
      { (latched (raised k w.flags) (resOf w.lat)).settle with latSeq := k.latSeq + 1 })).modCore s.turn
        (fun k => k.perfAdd 0x01 (some (nowCtx s)))) := ⟨_, rfl⟩
  have hBc : B.ctx s.turn (nowCtx s) = { (latched (raised (w.s.ctx s.turn (nowCtx s)) w.flags) (resOf w.lat)).settle with
      latSeq := (now s).latSeq + 1 } := by
    rw [hB, State.ctx_perf, State.ctx_modCtx_self, hAc, hw.seq]
  have hlat : ∀ (k : Ctx) (r : Res), (latched k r).pc = k.pc ∧ (latched k r).pair = k.pair := by
    intro k r; cases r <;> exact ⟨rfl, rfl⟩
  have hpend : ∀ (k : Ctx) (r : Res), (latched k r).pendX = k.pendX := by intro k r; cases r <;> rfl
  have hcommit : State.commit (s.env s.turn (nowCtx s) n) [it] w
      = (B.modCtx s.turn (nowCtx s) (fun k => moved k ((now s).pc + BitVec.ofNat 60 (4 * n)) w.xfer)).wantLine s.turn (nowCtx s) := by
    have hk : (s.env s.turn (nowCtx s) n).k = now s := rfl
    unfold State.commit
    simp only [hk, hpop, List.foldl_nil, hw.binds, hw.refetch, hw.pairOn, hw.pairOff, Bool.false_eq_true, if_false]
    have hc : (s.env s.turn (nowCtx s) n).c = s.turn := rfl
    have ht : (s.env s.turn (nowCtx s) n).t = nowCtx s := rfl
    have hs : (s.env s.turn (nowCtx s) n).s = s := rfl
    have hn : (s.env s.turn (nowCtx s) n).next = (now s).pc + BitVec.ofNat 60 (4 * n) := rfl
    have hpc : (s.env s.turn (nowCtx s) n).pc = (now s).pc := rfl
    have hA' : w.s.loadsFirst s.flight.length (now s).gen ((now s).latSeq + 1) (bit (now s).status 4) = A := hA.symm
    simp only [hc, ht, hs, hn, hpc, hmend, hA', State.countIssue]
    have hB' : (A.modCtx s.turn (nowCtx s) (fun k =>
        { (k.fillLatches w.lat) with
          fflags := k.fflags ||| w.flags, tlb := .none, acq := none, ownLine := none, wake := .none, realigned := false, loaded := []
          inv := none, dues := [], pair := k.pair.map (fun p => p.fold w.folds) })).modCore s.turn (fun k => k.perfAdd 0x01 (some (nowCtx s)))
        = B := by
      rw [hB]
      congr 1
      simp only [State.modCtx_eq]
      congr 1
      have h1 : (A.ctx s.turn (nowCtx s)).pair = none := by rw [hAc]; exact hw.alone
      rw [Ctx.fillLatches_one _ hw.one, h1]
      generalize A.ctx s.turn (nowCtx s) = K at h1
      cases resOf w.lat <;> simp only [latched, raised, Ctx.settle, Option.map_none, h1]
    rw [hB']
    have h2 : (B.ctx s.turn (nowCtx s)).pc = (now s).pc := by
      rw [hBc]; simp only [Ctx.settle, (hlat _ _).1, raised]; exact hw.pc
    have hlink : ∀ a, w.xfer = .call a → bit (B.ctx s.turn (nowCtx s)).pendX 31 = false := by
      intro a ha
      rw [hBc]; simp only [Ctx.settle, hpend, raised]; exact hw.link a ha
    rw [State.transfer_moved _ _ _ _ hw.stays h2 hlink]
    unfold State.pairDone
    have h3 : (((B.modCtx s.turn (nowCtx s) (fun k => moved k ((now s).pc + BitVec.ofNat 60 (4 * n)) w.xfer)).wantLine
        s.turn (nowCtx s)).ctx s.turn (nowCtx s)).pair = none := by
      rw [(State.ctx_wantLine _ _ _).eq]
      simp only [State.ctx_modCtx_self, moved_pair, hBc, Ctx.settle, (hlat _ _).2, raised]
      exact hw.alone
    simp only [h3]
  rw [hcommit]
  have hcom : committed s n w = A.modCtx s.turn (nowCtx s) (fun k =>
    moved (latched (raised k w.flags) (resOf w.lat)) ((now s).pc + BitVec.ofNat 60 (4 * n)) w.xfer) := by
    rw [hA]; rfl
  have hlt : nowCtx s % 16 = nowCtx s := Nat.mod_eq_of_lt (Nat.mod_lt _ (by decide))
  apply after_endCycle
  · rw [hcom]; simp only [State.modCtx_steps]; rw [hA]; exact hw.steps
  · rw [hcom]; simp only [State.modCtx_time]; rw [hA]; exact hw.time
  · rw [hcom, State.core_modCtx_self]; simp only [hAk]; exact hw.cycle
  · rw [State.wantLine_rest, hB, hcom]
    exact ⟨_, rfl⟩
  · intro d hd
    rw [State.core_wantLine_ne _ _ hd, State.core_modCtx_ne _ _ _ hd, hB, State.core_modCore_ne _ _ hd,
      State.core_modCtx_ne _ _ _ hd, hcom, State.core_modCtx_ne _ _ _ hd]
  · have hBk : ∃ y p, B.core s.turn = { (A.core s.turn) with ctxs := y, perf := p } := by
      rw [hB, State.core_modCore_self, State.core_modCtx_self]
      generalize A.core s.turn = K
      exact ⟨_, _, rfl⟩
    obtain ⟨y, p, hBk⟩ := hBk
    rw [State.core_wantLine_self, State.core_modCtx_self, hBk, hcom, State.core_modCtx_self]
    generalize A.core s.turn = K
    exact ⟨_, p, rfl⟩
  · intro u hu hne
    have hne' : u % 16 ≠ nowCtx s % 16 := by rw [hlt, Nat.mod_eq_of_lt hu]; exact hne
    rw [State.ctx_wantLine_ne _ _ hne', State.ctx_modCtx_ne _ _ _ hne', hB, State.ctx_perf,
      State.ctx_modCtx_ne _ _ _ hne', hcom, State.ctx_modCtx_ne _ _ _ hne']
  · conv => lhs; rw [(State.ctx_wantLine _ _ _).eq]
    simp only [State.ctx_modCtx_self, hBc, hcom, hAc, moved_latSeq, moved_settle]
    generalize moved _ _ _ = K
    rfl

/-- A slot of a ready context that completes and keeps its context: what exec leaves. -/
theorem runSlot_after {s : State} (hr : Ready s) {ws : List SlotWord} {d : SlotDef} {w : Work} (h : Completes s ws d w)
    (hw : Settled s w) : ∃ t, runSlot ws d s = .next t ∧ After s (committed s ws.length w) t := by
  have hp : w.xfer.parks = false := by
    have := hw.stays
    revert this
    cases w.xfer <;> simp [Xfer.suspends, Xfer.parks]
  exact ⟨_, runSlot_commit hr h hp hw.loads, commit_after h.plain hw⟩

end Sys2Proof.Machine
end

