-- ==== Sys2Proof/Laws/Slot.lean ====
section
/-! SUPPORT. What exec does with a slot of the opcode map: every one runs through the same issue (R285), and what it leaves when
its effect is confined to its context. -/

namespace Sys2Proof.Machine

set_option Elab.async false

/-- Is the instruction a slot of a bundle: no X prefix, no event? -/
def isSlot : Instr → Bool
  | .xPrefix _ => false
  | .powerOn => false
  | .hostLinkTrain _ _ _ _ => false
  | .hostLinkDown => false
  | .gomondPortTrain _ _ => false
  | .gomondPortDown _ => false
  | .channelRouteLoss _ _ => false
  | .thermalThrottle _ _ => false
  | .thermalShutdown _ => false
  | .temperatureSample _ _ => false
  | .timeRateAdjust _ => false
  | .registerWrite _ _ => false
  | .translationRootWrite _ _ => false
  | .ringDescriptorWrite _ _ _ => false
  | .logDescriptorWrite _ _ => false
  | .logDescriptorEffect _ => false
  | .logSpillDescriptorWrite _ _ => false
  | .arrivalSpillDescriptorWrite _ _ => false
  | .mhbWrite _ _ _ => false
  | .chronographRequest _ _ => false
  | .hostLaunchPost _ _ => false
  | .regionCreate => false
  | .regionChange => false
  | .regionDestroy => false
  | .regionPreempt => false
  | .regionResume => false
  | .regionLaunch => false
  | .attestationQuote => false
  | .handOver => false
  | .hostEventQueueSetup => false
  | .stageImagePart => false
  | .probationCommit _ => false
  | .heartbeatFallback _ => false
  | .bodyRestart _ => false
  | .clusterTlbLookup _ _ => false
  | .walkComplete _ _ => false
  | .invalidationComplete _ => false
  | .fetchPortServe _ => false
  | .fetchLineDeliver _ => false
  | .icacheFillComplete _ => false
  | .pendingResultArrive _ => false
  | .realignRelease _ _ => false
  | .workerTrapStop _ _ => false
  | .trapHandlerEntry _ => false
  | .userInterruptEntry _ _ => false
  | .matrixFaultStop _ => false
  | .freezeEnd _ => false
  | .hostLineWriteback _ => false
  | .hostSnoop _ => false
  | .hostCxlMemAccess _ _ _ => false
  | .shipperSend _ => false
  | .homeRecordArrive _ => false
  | .batchApply _ _ _ => false
  | .forcedCompaction _ => false
  | .recordArrival _ => false
  | .spillRefill _ => false
  | .dispatch _ => false
  | .loadComplete _ _ => false
  | .dispenserPlace _ => false
  | .extensionMigrate _ _ => false
  | .frameRestoreDispatch _ => false
  | .frameMoveRetry _ _ => false
  | .deadlockDetect _ => false
  | .preemptArrive _ => false
  | .preemptSave _ => false
  | .resumeRestore _ => false
  | .regionFaultKill => false
  | .placementApply _ _ => false
  | .counterCycleUpdate _ _ => false
  | .triggerActionResume _ => false
  | .waitcTimeout _ _ => false
  | .packetAcknowledge _ => false
  | .copyPacketLand _ _ _ => false
  | .copyEnd _ _ => false
  | .copyCancelArrive _ _ _ => false
  | .copyTimeout _ _ => false
  | .sendEngineInject _ => false
  | .channelElementLand _ => false
  | .creditReturn _ => false
  | .recvCopyComplete _ => false
  | .treeNodeCombine _ _ _ => false
  | .broadcastLand _ => false
  | .mailboxArrive _ => false
  | .completionRecordPost _ => false
  | .scaleOpPerform _ => false
  | .syncCellPerform _ => false
  | .tableLoadEffect _ _ => false
  | .patternReadahead _ _ _ => false
  | .routeJobStart _ => false
  | .permitRequestArrive _ => false
  | .roundCloseArrive _ => false
  | .permitAnswer _ => false
  | .binRowLand _ => false
  | .routeJobEnd _ => false
  | .rcloseRun _ => false
  | .closingCountArrive _ => false
  | .matrixStepStart _ => false
  | .matrixStepRetire _ => false
  | .mmgGroupTake _ _ => false
  | .mmgComplete _ _ => false
  | .epilogueStart _ => false
  | .epilogueRowEmit _ => false
  | .epilogueComplete _ => false
  | .mtldComplete _ => false
  | .comparePoint _ _ => false
  | .tieBreakResult _ _ => false
  | .binMove _ => false
  | .selfTestResult _ _ _ => false
  | .binRecovery _ => false
  | .directStorePerform _ => false
  | _ => true

/-- Every slot issues alone in its bundle through the same issue. -/
theorem exec_isSlot {i : Instr} (h : isSlot i = true) (s : State) : exec i s = runSlot (encode i) (slotOf i) s := by
  cases i <;> first | rfl | exact absurd h (by decide) | exact absurd h Bool.false_ne_true

/-- The same, with the slot's description by its shape. -/
theorem slot_exec {i : Instr} {d : SlotDef} {s : State} (h : isSlot i = true) (hd : slotOf i = d) :
    exec i s = runSlot (encode i) d s := hd ▸ exec_isSlot h s

/-- A slot whose work changes its own context only. -/
structure Local (s : State) (w : Work) (k : Ctx) : Prop where
  eff : w.s = s.setCtx s.turn (nowCtx s) k ∨ (w.s = s ∧ k = now s)
  binds : w.binds = []
  pairOn : w.pairOn = none
  pairOff : w.pairOff = false
  refetch : w.refetch = false
  stays : w.xfer.suspends = false
  one : w.lat.length ≤ 1
  sound : k.regErr = (now s).regErr
  alone : k.pair = (now s).pair
  pc : k.pc = (now s).pc
  seq : k.latSeq = (now s).latSeq
  loads : w.loads = []
  link : ∀ a, w.xfer = .call a → k.pendX = (now s).pendX

theorem Local.ctx {s : State} {w : Work} {k : Ctx} (h : Local s w k) : w.s.ctx s.turn (nowCtx s) = k := by
  rcases h.eff with e | ⟨e, e'⟩
  · rw [e, State.ctx_setCtx_self]
  · rw [e, e']

theorem Local.settled {s : State} (hr : Ready s) {w : Work} {k : Ctx} (h : Local s w k) : Settled s w where
  binds := h.binds
  pairOn := h.pairOn
  pairOff := h.pairOff
  refetch := h.refetch
  stays := h.stays
  one := h.one
  loads := h.loads
  link := by intro a ha; rw [h.ctx, h.link a ha, hr.pendX]; simp [bit]
  sound := by rw [h.ctx, h.sound]; exact hr.sound
  alone := by rw [h.ctx, h.alone]; exact hr.alone
  pc := by rw [h.ctx, h.pc]
  seq := by rw [h.ctx, h.seq]
  steps := by rcases h.eff with e | ⟨e, _⟩ <;> rw [e] <;> rfl
  time := by rcases h.eff with e | ⟨e, _⟩ <;> rw [e] <;> rfl
  cycle := by
    rcases h.eff with e | ⟨e, _⟩ <;> rw [e]
    rw [State.core_setCtx_self]

theorem Local.committed {s : State} {n : Nat} {w : Work} {k : Ctx} (h : Local s w k) :
    committed s n w = s.setCtx s.turn (nowCtx s)
      (moved (latched (raised k w.flags) (resOf w.lat)) ((now s).pc + BitVec.ofNat 60 (4 * n)) w.xfer) := by
  have hf : w.s.flight.length = s.flight.length := by rcases h.eff with e | ⟨e, _⟩ <;> rw [e] <;> rfl
  unfold Machine.committed
  rw [stamped, State.loadsFirst_none _ _ _ _ hf, State.modCtx, h.ctx]
  rcases h.eff with e | ⟨e, _⟩ <;> rw [e]
  exact State.setCtx_setCtx _ _ _ _ _

/-- A slot of a ready context that completes with a local effect. -/
theorem gives_local {i : Instr} {s : State} {d : SlotDef} (hx : exec i s = runSlot (encode i) d s) (hr : Ready s) {w : Work} {k : Ctx}
    (h : Completes s (encode i) d w) (hl : Local s w k) :
    Gives i s (s.setCtx s.turn (nowCtx s) (moved (latched (raised k w.flags) (resOf w.lat)) (nextPc s i) w.xfer)) := by
  obtain ⟨t, ht, ha⟩ := runSlot_after hr h (hl.settled hr)
  rw [hl.committed] at ha
  exact ⟨t, by rw [hx]; exact ht, ha⟩

/-- A slot that completes with a local effect and goes on to the next bundle. -/
theorem givesCtx_local {i : Instr} {s : State} {d : SlotDef} (hx : exec i s = runSlot (encode i) d s) (hr : Ready s) {w : Work}
    {k : Ctx} (h : Completes s (encode i) d w) (hl : Local s w k) (hn : w.xfer = .none) :
    GivesCtx i s (resOf w.lat) (raised k w.flags) := by
  have := gives_local hx hr h hl
  rw [hn] at this
  exact this

@[simp] theorem raised_zero (k : Ctx) : raised k 0#5 = k := by simp [raised]

@[simp] theorem Work.raise_zero (w : Work) : w.raise 0#5 = w := by cases w; simp [Work.raise]

/-- The quiet flags of a slot that raises none. -/
@[simp] theorem quiet_zero (s : State) : Quiet s 0#5 := by simp [Quiet]

/-! ### Results for registers -/

/-- A result for an x register, of a slot that has done nothing else. -/
theorem Local.outX (s : State) (ws : List SlotWord) (d : BitVec 6) (v : Word) (f : FFlags) :
    Local s ((({ s := s } : Work).outX (slotEnv s ws) d v).raise f) (if dN d then now s else (now s).wx (dReg d) v) := by
  unfold Work.outX Work.raise Work.modCtx
  cases h : dN d
  · exact ⟨.inl rfl, rfl, rfl, rfl, rfl, rfl, by simp, by simp, by simp, by simp, by simp, by rfl, fun _ _ => by simp⟩
  · exact ⟨.inr ⟨rfl, rfl⟩, rfl, rfl, rfl, rfl, rfl, by simp, rfl, rfl, rfl, rfl, by rfl, fun _ _ => rfl⟩

@[simp] theorem Work.outX_flags (w : Work) (e : Env) (d : BitVec 6) (v : Word) : (w.outX e d v).flags = w.flags := by
  unfold Work.outX; simp only; split <;> rfl
@[simp] theorem Work.outX_lat (w : Work) (e : Env) (d : BitVec 6) (v : Word) :
    (w.outX e d v).lat = w.lat ++ [.val (v.setWidth 128)] := by
  unfold Work.outX; simp only; split <;> rfl
@[simp] theorem Work.outX_xfer (w : Work) (e : Env) (d : BitVec 6) (v : Word) : (w.outX e d v).xfer = w.xfer := by
  unfold Work.outX; simp only; split <;> rfl

end Sys2Proof.Machine
end

