-- ==== Sys2Proof/Laws/Forms.lean ====
section
/-! SUPPORT. The operand forms: what a slot of each shape leaves, given the value that it computes (R302, R309, R311, R315, R321). -/

namespace Sys2Proof.Machine

set_option Elab.async false

/-- No modifier word of a slot that uses none of its fields is illegal when it is absent or zero (R291). -/
theorem modCheck_of_unmodified {p : Option (BitVec 24)} (h : Unmodified p) (a b c : Bool) : modCheck p a b c = none := by
  rcases h with rfl | rfl <;> cases a <;> cases b <;> cases c <;> decide

/-- What a slot of any shape has to meet before its effect counts, without the operands that are tiles. -/
structure Fit (s : State) (ws : List SlotWord) (d : SlotDef) : Prop where
  legal : d.illegal (slotEnv s ws) = none
  level : d.lvl ≤ (now s).prv
  live : d.live (now s) = true
  fp64 : (d.fp64 && !hasFp64 s.turn) = false
  kept : d.lost (now s) = none
  plain : d.Plain (now s)
  tiles : d.tiles = []
  place : d.place = false

/-- A slot on x registers whose operands can be read, with no further condition of its own. -/
theorem Fit.scalar {s : State} {ws : List SlotWord} {d : SlotDef} (hg : (now s).rp d.g = true) (hm : d.badMod = none)
    (hb : d.bad = false) (hx : Readable s d.xs) (hvs : d.vs = [] := by rfl) (hvo : d.vo = [] := by rfl) (hvd : d.vd = none := by rfl)
    (ht : d.tiles = [] := by rfl) (hp : d.place = false := by rfl) (hl : d.lvl = 0 := by rfl) (h64 : d.fp64 = false := by rfl)
    (hc : d.check (slotEnv s ws) = none := by rfl) (hi : d.ill (slotEnv s ws) = false := by rfl) : Fit s ws d where
  legal := SlotDef.illegal_none hm hb (by rw [hvs, List.append_nil]; exact hx) hc hi
  level := by rw [hl]; exact Nat.zero_le _
  live := hg
  fp64 := by rw [h64]; rfl
  kept := SlotDef.lost_of_readable (by rw [hvs, List.append_nil]; exact hx)
  plain := SlotDef.plain_of_noV d hvs hvo hvd
  tiles := ht
  place := hp

/-- A slot on v registers of which none is bound to a stream. -/
theorem Fit.vector {s : State} {ws : List SlotWord} {d : SlotDef} (hu : Unbound s) (hg : (now s).rp d.g = true)
    (hm : d.badMod = none) (hb : d.bad = false) (hx : Readable s (d.xs ++ d.vs)) (h64 : (d.fp64 && !hasFp64 s.turn) = false)
    (ht : d.tiles = [] := by rfl) (hp : d.place = false := by rfl) (hl : d.lvl = 0 := by rfl)
    (hc : d.check (slotEnv s ws) = none := by rfl) (hi : d.ill (slotEnv s ws) = false := by rfl) : Fit s ws d where
  legal := SlotDef.illegal_none hm hb hx hc hi
  level := by rw [hl]; exact Nat.zero_le _
  live := hg
  fp64 := h64
  kept := SlotDef.lost_of_readable hx
  plain := SlotDef.plain_of_unbound d hu
  tiles := ht
  place := hp

/-- A slot that no twin shares has the effect that its description gives. -/
theorem SlotDef.effect_run {d : SlotDef} {e : Env} {w w' : Work} (h : d.run e w = .ok w') (hs : d.sync = false ∨ d.both = true) :
    d.effect e w = .ok w' := by
  have hx : (d.sync && !d.both) = false := by rcases hs with h | h <;> simp [h]
  simp [SlotDef.effect, hx, h]

theorem SlotDef.effect_error {d : SlotDef} {e : Env} {w : Work} {q : Stop} (h : d.run e w = .error q)
    (hs : d.sync = false ∨ d.both = true) : d.effect e w = .error q := by
  have hx : (d.sync && !d.both) = false := by rcases hs with h | h <;> simp [h]
  simp [SlotDef.effect, hx, h]

/-- An external slot of a context that runs alone has the effect that its description gives, with the pairing record still
absent (R434). -/
theorem SlotDef.effect_solo {d : SlotDef} {e : Env} {w w' : Work} (h : d.run e w = .ok w') (h1 : e.k.pair = none)
    (h2 : (w'.s.ctx e.c e.t).pair = none) : d.effect e w = .ok w' := by
  have hr : e.k.role = .solo := by simp [Ctx.role, h1]
  have hr' : (w'.s.ctx e.c e.t).role = .solo := by simp [Ctx.role, h2]
  simp [SlotDef.effect, hr, h, Work.sendFolded, hr']

theorem Fit.completes {s : State} {ws : List SlotWord} {d : SlotDef} {w : Work} (h : Fit s ws d)
    (he : d.effect (slotEnv s ws) { s := s } = .ok w) (hq : Quiet s w.flags) : Completes s ws d w where
  legal := h.legal
  level := h.level
  live := h.live
  fp64 := h.fp64
  kept := h.kept
  plain := h.plain
  free := by simp [SlotDef.tileBusy, h.tiles]
  inside := by simp [SlotDef.outside, h.tiles]
  place := h.place
  effect := he
  quiet := hq

theorem Fit.eval_done {s : State} {ws : List SlotWord} {d : SlotDef} {w : Work} (h : Fit s ws d)
    (he : d.effect (slotEnv s ws) { s := s } = .ok w) : d.eval (slotEnv s ws) { s := s } = .done w := by
  have hk : (slotEnv s ws).k = now s := rfl
  have h1 : ¬ (now s).prv < d.lvl := by have := h.level; omega
  have h64 := h.fp64
  have hearly : d.early (slotEnv s ws) = none := SlotDef.Plain.early (e := slotEnv s ws) h.plain h.tiles
  simp only [SlotDef.eval, h.legal, hk, h.live, h.kept, hearly, he, if_neg h1, slotEnv_c, h64, Bool.not_true, Bool.false_eq_true,
    if_false]

theorem Fit.eval_trap {s : State} {ws : List SlotWord} {d : SlotDef} {c : BitVec 8} {v : Word} (h : Fit s ws d)
    (he : d.effect (slotEnv s ws) { s := s } = .error (.trap c v)) : d.eval (slotEnv s ws) { s := s } = .trap c v := by
  have hk : (slotEnv s ws).k = now s := rfl
  have h1 : ¬ (now s).prv < d.lvl := by have := h.level; omega
  have h64 := h.fp64
  have hearly : d.early (slotEnv s ws) = none := SlotDef.Plain.early (e := slotEnv s ws) h.plain h.tiles
  simp only [SlotDef.eval, h.legal, hk, h.live, h.kept, hearly, he, if_neg h1, slotEnv_c, h64, Bool.not_true, Bool.false_eq_true,
    if_false]
  rfl

/-! ### Results -/

/-- A slot whose work changes its own context only, and which goes on. -/
theorem givesCtx_of {i : Instr} {s : State} {d : SlotDef} (hx : exec i s = runSlot (encode i) d s) (hr : Ready s)
    (hf : Fit s (encode i) d) {w : Work} {k : Ctx} (he : d.effect (slotEnv s (encode i)) { s := s } = .ok w) (hl : Local s w k)
    (hn : w.xfer = .none) (hq : Quiet s w.flags) : GivesCtx i s (resOf w.lat) (raised k w.flags) :=
  givesCtx_local hx hr (hf.completes he hq) hl hn

/-- A slot that computes a value for x register d. -/
theorem givesX_of {i : Instr} {s : State} {d : SlotDef} (hx : exec i s = runSlot (encode i) d s) (hr : Ready s)
    (hf : Fit s (encode i) d) {r : BitVec 6} {v : Word}
    (he : d.effect (slotEnv s (encode i)) { s := s } = .ok (({ s := s } : Work).outX (slotEnv s (encode i)) r v)) :
    GivesX i s r v := by
  have hl := Local.outX s (encode i) r v 0#5
  rw [Work.raise_zero] at hl
  have := givesCtx_of hx hr hf he hl (by simp) (by simp)
  unfold GivesX
  simpa [resOf] using this

/-- A slot that raises flags: they are kept, or an enabled one traps. -/
theorem flags_of {i : Instr} {s : State} {d : SlotDef} (hx : exec i s = runSlot (encode i) d s) (hr : Ready s)
    (hf : Fit s (encode i) d) {w : Work} {k : Ctx} (he : d.effect (slotEnv s (encode i)) { s := s } = .ok w) (hl : Local s w k)
    (hn : w.xfer = .none) :
    (Quiet s w.flags → GivesCtx i s (resOf w.lat) (raised k w.flags)) ∧ (¬ Quiet s w.flags → Traps i s cFp (w.flags.setWidth 64)) :=
  ⟨fun hq => givesCtx_of hx hr hf he hl hn hq, fun hq => hx.trans
    (runSlot_fp hr hf.plain (SlotDef.Plain.streamWait (e := slotEnv s (encode i)) hf.plain) (by simp [SlotDef.tileBusy, hf.tiles]) hf.place
      (hf.eval_done he) hq)⟩

/-- A slot that computes a floating-point value for x register d: its flags are raised or trap. -/
theorem givesXF_of {i : Instr} {s : State} {d : SlotDef} (hx : exec i s = runSlot (encode i) d s) (hr : Ready s)
    (hf : Fit s (encode i) d) {r : BitVec 6} {v : Nat × FFlags}
    (he : d.effect (slotEnv s (encode i)) { s := s }
      = .ok ((({ s := s } : Work).outX (slotEnv s (encode i)) r (BitVec.ofNat 64 v.1)).raise v.2)) :
    (Quiet s v.2 → GivesXF i s r v) ∧ (¬ Quiet s v.2 → Traps i s cFp (v.2.setWidth 64)) := by
  have hfl : ((({ s := s } : Work).outX (slotEnv s (encode i)) r (BitVec.ofNat 64 v.1)).raise v.2).flags = v.2 := by
    simp [Work.raise]
  have := flags_of hx hr hf he (Local.outX s (encode i) r _ v.2) (by simp [Work.raise])
  rw [hfl] at this
  unfold GivesXF
  simpa [resOf, Work.raise] using this

/-- A slot whose effect traps. -/
theorem traps_of {i : Instr} {s : State} {d : SlotDef} (hx : exec i s = runSlot (encode i) d s) (hr : Ready s)
    (hf : Fit s (encode i) d) {c : BitVec 8} {v : Word} (he : d.effect (slotEnv s (encode i)) { s := s } = .error (.trap c v))
    (h1 : c ≠ cPoison) (h2 : c ≠ cFp) : Traps i s c v :=
  hx.trans (runSlot_trap hr hf.plain (SlotDef.Plain.streamWait (e := slotEnv s (encode i)) hf.plain) (by simp [SlotDef.tileBusy, hf.tiles])
    (by simp [hf.place]) (hf.eval_trap he) h1 h2)

/-- A slot with an illegal field (R287). -/
theorem trapsIllegal_of_bad {i : Instr} {s : State} {d : SlotDef} (hx : exec i s = runSlot (encode i) d s) (hr : Ready s)
    (hp : d.Plain (now s)) (ht : d.tiles = []) (hpl : d.place = false) (hm : d.badMod = none) (hb : d.bad = true) :
    TrapsIllegal i s 0 := by
  have he : d.eval (slotEnv s (encode i)) { s := s } = .trap cIllegal (illegalVal (slotWord i) 0) := by
    simp only [SlotDef.eval, SlotDef.illegal, hm, hb, if_true]
    rfl
  exact hx.trans (runSlot_trap hr hp (SlotDef.Plain.streamWait (e := slotEnv s (encode i)) hp) (by simp [SlotDef.tileBusy, ht])
    (by simp [hpl]) he (by decide) (by decide))

/-- A slot that transfers to a bundle, with or without the return address in x31. -/
theorem givesJump_of {i : Instr} {s : State} {d : SlotDef} (hx : exec i s = runSlot (encode i) d s) (hr : Ready s)
    (hf : Fit s (encode i) d) {a : BitVec 60} {call : Bool}
    (he : d.effect (slotEnv s (encode i)) { s := s } = .ok { s := s, xfer := if call then .call a else .goto a }) :
    GivesJump i s call a := by
  have hl : Local s { s := s, xfer := if call then .call a else .goto a } (now s) := by
    refine ⟨.inr ⟨rfl, rfl⟩, rfl, rfl, rfl, rfl, ?_, by simp, rfl, rfl, rfl, rfl, by rfl, fun _ _ => rfl⟩
    cases call <;> rfl
  have := gives_local hx hr (hf.completes he (quiet_zero s)) hl
  have e : moved (latched (raised (now s) 0#5) .none) (nextPc s i) (if call then .call a else .goto a)
      = { (latched (if call then (now s).wx 31 ((nextPc s i).setWidth 64) else now s) .none) with pc := a } := by
    rw [raised_zero]
    cases call
    · rfl
    · simp only [if_true, moved, latched, Ctx.wx, Ctx.dropLatches]
      simp
  unfold GivesJump
  rw [← e]
  exact this

/-! ### Scalar shapes -/

theorem Readable.left {s : State} {a b : BitVec 6} (h : Readable s [a, b]) : Readable s [a] := fun c hc => h c (by simp_all)

/-- x, x to x. -/
theorem givesX_sBin {i : Instr} {s : State} {o : OpDab} {f : Word → Word → Word} (hx : exec i s = runSlot (encode i) (sBin o f) s)
    (hr : Ready s) (hg : Guard s o.g) (hm : Unmodified o.p) (ho : Readable s [o.a, o.b]) :
    GivesX i s o.d (f (X s o.a) (X s o.b)) :=
  givesX_of hx hr (Fit.scalar hg (modCheck_of_unmodified hm _ _ _) rfl ho) (SlotDef.effect_run rfl (.inl rfl))

/-- x to x. -/
theorem givesX_sUn {i : Instr} {s : State} {o : OpDa} {f : Word → Word} (hx : exec i s = runSlot (encode i) (sUn o f) s)
    (hr : Ready s) (hg : Guard s o.g) (hm : Unmodified o.p) (ho : Readable s [o.a]) : GivesX i s o.d (f (X s o.a)) :=
  givesX_of hx hr (Fit.scalar hg (modCheck_of_unmodified hm _ _ _) rfl ho) (SlotDef.effect_run rfl (.inl rfl))

/-- x and an immediate to x. -/
theorem givesX_sImm {i : Instr} {s : State} {o : OpDai} {f : Word → Word → Word} (hx : exec i s = runSlot (encode i) (sImm o f) s)
    (hr : Ready s) (hg : Guard s o.g) (ho : Readable s [o.a]) : GivesX i s o.d (f (X s o.a) (immS o.p o.i)) :=
  givesX_of hx hr (Fit.scalar hg rfl rfl ho) (SlotDef.effect_run rfl (.inl rfl))

/-- x, x and Old(d) to x. -/
theorem givesX_sTri {i : Instr} {s : State} {o : OpDab} {f : Word → Word → Word → Word}
    (hx : exec i s = runSlot (encode i) (sTri o f) s) (hr : Ready s) (hg : Guard s o.g) (hm : Unmodified o.p)
    (ho : Readable s [o.a, o.b]) : GivesX i s o.d (f (X s o.a) (X s o.b) ((now s).rx (dReg o.d))) :=
  givesX_of hx hr (Fit.scalar hg (modCheck_of_unmodified hm _ _ _) rfl ho) (SlotDef.effect_run rfl (.inl rfl))

/-- Floating point: x, x to x. -/
theorem givesXF_sfBin {i : Instr} {s : State} {o : OpDab} {f : RMode → Word → Word → Nat × FFlags}
    (hx : exec i s = runSlot (encode i) (sfBin o f) s) (hr : Ready s) (hg : Guard s o.g) (hm : Unmodified o.p)
    (ho : Readable s [o.a, o.b]) :
    (Quiet s (f (RMode.of (now s).frm) (X s o.a) (X s o.b)).2 →
      GivesXF i s o.d (f (RMode.of (now s).frm) (X s o.a) (X s o.b)))
    ∧ (¬ Quiet s (f (RMode.of (now s).frm) (X s o.a) (X s o.b)).2 →
      Traps i s cFp ((f (RMode.of (now s).frm) (X s o.a) (X s o.b)).2.setWidth 64)) :=
  givesXF_of hx hr (Fit.scalar hg (modCheck_of_unmodified hm _ _ _) rfl ho) (SlotDef.effect_run rfl (.inl rfl))

/-- Floating point: x, x and Old(d) to x. -/
theorem givesXF_sfTri {i : Instr} {s : State} {o : OpDab} {f : RMode → Word → Word → Word → Nat × FFlags}
    (hx : exec i s = runSlot (encode i) (sfTri o f) s) (hr : Ready s) (hg : Guard s o.g) (hm : Unmodified o.p)
    (ho : Readable s [o.a, o.b]) :
    (Quiet s (f (RMode.of (now s).frm) (X s o.a) (X s o.b) ((now s).rx (dReg o.d))).2 →
      GivesXF i s o.d (f (RMode.of (now s).frm) (X s o.a) (X s o.b) ((now s).rx (dReg o.d))))
    ∧ (¬ Quiet s (f (RMode.of (now s).frm) (X s o.a) (X s o.b) ((now s).rx (dReg o.d))).2 →
      Traps i s cFp ((f (RMode.of (now s).frm) (X s o.a) (X s o.b) ((now s).rx (dReg o.d))).2.setWidth 64)) :=
  givesXF_of hx hr (Fit.scalar hg (modCheck_of_unmodified hm _ _ _) rfl ho) (SlotDef.effect_run rfl (.inl rfl))

/-- Floating point: x to x. -/
theorem givesXF_sfUn {i : Instr} {s : State} {o : OpDa} {f : RMode → Word → Nat × FFlags}
    (hx : exec i s = runSlot (encode i) (sfUn o f) s) (hr : Ready s) (hg : Guard s o.g) (hm : Unmodified o.p)
    (ho : Readable s [o.a]) :
    (Quiet s (f (RMode.of (now s).frm) (X s o.a)).2 → GivesXF i s o.d (f (RMode.of (now s).frm) (X s o.a)))
    ∧ (¬ Quiet s (f (RMode.of (now s).frm) (X s o.a)).2 →
      Traps i s cFp ((f (RMode.of (now s).frm) (X s o.a)).2.setWidth 64)) :=
  givesXF_of hx hr (Fit.scalar hg (modCheck_of_unmodified hm _ _ _) rfl ho) (SlotDef.effect_run rfl (.inl rfl))

/-! ### Predicates -/

/-- A destination that the compares permit (R309). -/
theorem badPair_eq (d : BitVec 6) : badPair d = !decide (d.toNat < 8 ∧ d.toNat % 2 = 0) := by
  revert d; decide

/-- A change of its own context that leaves what the commit relies on. -/
theorem Local.modCtx (s : State) (ws : List SlotWord) (f : Ctx → Ctx) (g : FFlags) (h1 : (f (now s)).regErr = (now s).regErr)
    (h2 : (f (now s)).pair = (now s).pair) (h3 : (f (now s)).pc = (now s).pc) (h4 : (f (now s)).latSeq = (now s).latSeq) :
    Local s ((({ s := s } : Work).modCtx (slotEnv s ws) f).raise g) (f (now s)) :=
  ⟨.inl rfl, rfl, rfl, rfl, rfl, rfl, by simp [Work.modCtx, Work.raise], h1, h2, h3, h4, by rfl, fun _ h => nomatch h⟩

/-- A slot that changes its own context without a result and goes on. -/
theorem givesCtx_modCtx {i : Instr} {s : State} {d : SlotDef} (hx : exec i s = runSlot (encode i) d s) (hr : Ready s)
    (hf : Fit s (encode i) d) {f : Ctx → Ctx} {g : FFlags} (hq : Quiet s g)
    (he : d.effect (slotEnv s (encode i)) { s := s } = .ok ((({ s := s } : Work).modCtx (slotEnv s (encode i)) f).raise g))
    (h1 : (f (now s)).regErr = (now s).regErr) (h2 : (f (now s)).pair = (now s).pair) (h3 : (f (now s)).pc = (now s).pc)
    (h4 : (f (now s)).latSeq = (now s).latSeq) : GivesCtx i s .none (raised (f (now s)) g) := by
  have := givesCtx_of hx hr hf he (Local.modCtx s (encode i) f g h1 h2 h3 h4) rfl (by simpa [Work.raise, Work.modCtx] using hq)
  simpa [Work.raise, Work.modCtx, resOf] using this

/-- A compare of x, x. -/
theorem givesPair_sCmp {i : Instr} {s : State} {o : OpDab} {f : Word → Word → Bool} (hx : exec i s = runSlot (encode i) (sCmp o f) s)
    (hr : Ready s) (hg : Guard s o.g) (hm : Unmodified o.p) (ho : Readable s [o.a, o.b]) :
    if o.d.toNat < 8 ∧ o.d.toNat % 2 = 0 then GivesPair i s o.d (f (X s o.a) (X s o.b)) 0 else TrapsIllegal i s 0 := by
  split
  · next h =>
    have hd : dReg o.d = o.d.toNat := by simp only [dReg, bitsN]; omega
    have hb : badPair o.d = false := by rw [badPair_eq]; simp [h]
    refine givesCtx_modCtx hx hr (Fit.scalar hg (modCheck_of_unmodified hm _ _ _) hb ho)
      (f := fun k => (k.wp o.d.toNat _).wp (o.d.toNat + 1) _) (quiet_zero s) (SlotDef.effect_run ?_ (.inl rfl)) (by simp) (by simp)
      (by simp) (by simp)
    rw [show (0 : FFlags) = 0#5 from rfl, Work.raise_zero]
    simp only [sCmp, hd]
    rfl
  · next h =>
    exact trapsIllegal_of_bad hx hr (SlotDef.plain_of_noV _ rfl rfl rfl) rfl rfl (modCheck_of_unmodified hm _ _ _)
      (by simp only [sCmp, badPair_eq]; simp only [h]; rfl)

/-- A compare of x and an immediate. -/
theorem givesPair_sCmpI {i : Instr} {s : State} {o : OpDai} {f : Word → Word → Bool}
    (hx : exec i s = runSlot (encode i) (sCmpI o f) s)
    (hr : Ready s) (hg : Guard s o.g) (ho : Readable s [o.a]) :
    if o.d.toNat < 8 ∧ o.d.toNat % 2 = 0 then GivesPair i s o.d (f (X s o.a) (immS o.p o.i)) 0 else TrapsIllegal i s 0 := by
  split
  · next h =>
    have hd : dReg o.d = o.d.toNat := by simp only [dReg, bitsN]; omega
    have hb : badPair o.d = false := by rw [badPair_eq]; simp [h]
    refine givesCtx_modCtx hx hr (Fit.scalar hg rfl hb ho)
      (f := fun k => (k.wp o.d.toNat _).wp (o.d.toNat + 1) _) (quiet_zero s) (SlotDef.effect_run ?_ (.inl rfl)) (by simp) (by simp)
      (by simp) (by simp)
    rw [show (0 : FFlags) = 0#5 from rfl, Work.raise_zero]
    simp only [sCmpI, hd]
    rfl
  · next h =>
    exact trapsIllegal_of_bad hx hr (SlotDef.plain_of_noV _ rfl rfl rfl) rfl rfl rfl
      (by simp only [sCmpI, badPair_eq]; simp only [h]; rfl)

/-- The work of a compare. -/
theorem outP_eq (s : State) (ws : List SlotWord) (d : Nat) (r : Bool) (g : FFlags) :
    (({ s := s } : Work).outP (slotEnv s ws) d r).raise g
      = { s := s.setCtx s.turn (nowCtx s) (((now s).wp d r).wp (d + 1) (!r)), flags := g } := by
  simp [Work.outP, Work.raise, Work.modCtx, State.modCtx_eq]

/-- A floating-point compare. -/
theorem givesPair_sfCmp {i : Instr} {s : State} {o : OpDab} {f : FVal → FVal → Bool} {nv : FVal → FVal → FFlags}
    (hx : exec i s = runSlot (encode i) (sfCmp o f nv) s)
    (hr : Ready s) (hg : Guard s o.g) (hm : Unmodified o.p) (ho : Readable s [o.a, o.b]) {x y : FVal}
    (hX : Fmt.f32.decode (lo32 (X s o.a)) = x) (hY : Fmt.f32.decode (lo32 (X s o.b)) = y) :
    if o.d.toNat < 8 ∧ o.d.toNat % 2 = 0
    then (Quiet s (nv x y) → GivesPair i s o.d (f x y) (nv x y)) ∧ (¬ Quiet s (nv x y) → Traps i s cFp ((nv x y).setWidth 64))
    else TrapsIllegal i s 0 := by
  split
  · next h =>
    have hd : dReg o.d = o.d.toNat := by simp only [dReg, bitsN]; omega
    have hb : badPair o.d = false := by rw [badPair_eq]; simp [h]
    have hf : Fit s (encode i) (sfCmp o f nv) := Fit.scalar hg (modCheck_of_unmodified hm _ _ _) hb ho
    have hrun : (sfCmp o f nv).run (slotEnv s (encode i)) { s := s }
        = .ok ((({ s := s } : Work).outP (slotEnv s (encode i)) (dReg o.d) (f x y)).raise (nv x y)) := by
      subst hX hY; rfl
    rw [hd, outP_eq] at hrun
    have hl : Local s { s := s.setCtx s.turn (nowCtx s) (((now s).wp o.d.toNat (f x y)).wp (o.d.toNat + 1) (!f x y)), flags := nv x y }
        (((now s).wp o.d.toNat (f x y)).wp (o.d.toNat + 1) (!f x y)) :=
      ⟨.inl rfl, rfl, rfl, rfl, rfl, rfl, by simp, by simp, by simp, by simp, by simp, by rfl, fun _ _ => by simp⟩
    exact flags_of hx hr hf (SlotDef.effect_run hrun (.inl rfl)) hl rfl
  · next h =>
    exact trapsIllegal_of_bad hx hr (SlotDef.plain_of_noV _ rfl rfl rfl) rfl rfl (modCheck_of_unmodified hm _ _ _)
      (by simp only [sfCmp, badPair_eq]; simp only [h]; rfl)

/-- Predicate logic. -/
theorem givesCtx_sPred {i : Instr} {s : State} {o : OpDab} {f : Bool → Bool → Bool}
    (hx : exec i s = runSlot (encode i) (sPred o f) s) (hr : Ready s) (hg : Guard s o.g) (hm : Unmodified o.p) :
    let ok := o.d.toNat < 8 ∧ o.a.toNat < 8 ∧ o.b.toNat < 8
    (ok → GivesCtx i s .none ((now s).wp o.d.toNat (f ((now s).rp o.a.toNat) ((now s).rp o.b.toNat)))) ∧ (¬ ok → TrapsIllegal i s 0) := by
  intro ok
  constructor
  · intro h
    have hb : (sPred o f).bad = false := by simp only [sPred]; have := h.1; have := h.2.1; have := h.2.2; simp; omega
    have := givesCtx_modCtx hx hr (Fit.scalar hg (modCheck_of_unmodified hm _ _ _) hb (by intro c hc; simp [sPred] at hc))
      (f := fun k => k.wp o.d.toNat (f ((now s).rp o.a.toNat) ((now s).rp o.b.toNat))) (quiet_zero s)
      (SlotDef.effect_run (by rw [Work.raise_zero]; rfl) (.inl rfl)) (by simp) (by simp) (by simp) (by simp)
    simpa using this
  · intro h
    exact trapsIllegal_of_bad hx hr (SlotDef.plain_of_noV _ rfl rfl rfl) rfl rfl (modCheck_of_unmodified hm _ _ _)
      (by simp only [sPred]; simp only [ok] at h; simp; omega)

end Sys2Proof.Machine
end

