-- ==== Sys2Proof/Laws/Vector.lean ====
section
/-! SUPPORT. Vectors by element: what an element of a packed vector is, and what a slot leaves that computes its elements one by one
(R65, R322 to R324). -/

namespace Sys2Proof.Machine

set_option Elab.async false

/-- The number that packed elements make. -/
def packNat (n : Nat) (l : List Nat) : Nat := l.foldr (fun x acc => x % 2 ^ (8 * n) + acc * 2 ^ (8 * n)) 0

theorem packNat_lt (n : Nat) : ∀ l : List Nat, packNat n l < 2 ^ (8 * n * l.length)
  | [] => by simp [packNat]
  | x :: l => by
    have ih := packNat_lt n l
    have hx : x % 2 ^ (8 * n) < 2 ^ (8 * n) := Nat.mod_lt _ (Nat.two_pow_pos _)
    have e : 2 ^ (8 * n * (x :: l).length) = 2 ^ (8 * n * l.length) * 2 ^ (8 * n) := by
      rw [List.length_cons, Nat.mul_add, Nat.mul_one, Nat.pow_add]
    have h2 : (packNat n l + 1) * 2 ^ (8 * n) ≤ 2 ^ (8 * n * l.length) * 2 ^ (8 * n) := Nat.mul_le_mul_right _ ih
    rw [Nat.add_mul, Nat.one_mul] at h2
    rw [e]
    show x % 2 ^ (8 * n) + packNat n l * 2 ^ (8 * n) < _
    omega

theorem packNat_elem (n : Nat) : ∀ (l : List Nat) (i : Nat), packNat n l / 2 ^ (8 * n * i) % 2 ^ (8 * n) = l.getD i 0 % 2 ^ (8 * n)
  | [], i => by simp [packNat]
  | x :: l, 0 => by
    show (x % 2 ^ (8 * n) + packNat n l * 2 ^ (8 * n)) / 2 ^ (8 * n * 0) % 2 ^ (8 * n) = _
    simp [Nat.add_mul_mod_self_right]
  | x :: l, i + 1 => by
    have e : 2 ^ (8 * n * (i + 1)) = 2 ^ (8 * n) * 2 ^ (8 * n * i) := by rw [← Nat.pow_add]; congr 1; rw [Nat.mul_add]; omega
    have hx : x % 2 ^ (8 * n) / 2 ^ (8 * n) = 0 := Nat.div_eq_of_lt (Nat.mod_lt _ (Nat.two_pow_pos _))
    show (x % 2 ^ (8 * n) + packNat n l * 2 ^ (8 * n)) / 2 ^ (8 * n * (i + 1)) % 2 ^ (8 * n) = _
    rw [e, ← Nat.div_div_eq_div_mul, Nat.add_mul_div_right _ _ (Nat.two_pow_pos _), hx, Nat.zero_add]
    simpa using packNat_elem n l i

/-- An element of a packed vector. -/
theorem vElem_vPack {n : Nat} {l : List Nat} (h : n * l.length ≤ 16) (i : Nat) : vElem (vPack n l) n i = l.getD i 0 % 2 ^ (8 * n) := by
  have h1 : packNat n l < 2 ^ 128 :=
    Nat.lt_of_lt_of_le (packNat_lt n l) (Nat.pow_le_pow_right (by decide) (by rw [Nat.mul_assoc]; omega))
  show (BitVec.ofNat 128 (packNat n l)).toNat / 2 ^ (8 * n * i) % 2 ^ (8 * n) = _
  rw [BitVec.toNat_ofNat, Nat.mod_eq_of_lt h1, packNat_elem]

theorem vElem_mod (v : Vec) (n i : Nat) : vElem v n i % 2 ^ (8 * n) = vElem v n i := by simp [vElem, bitsN]

theorem vElem_lt (v : Vec) (n i : Nat) : vElem v n i < 2 ^ (8 * n) := Nat.mod_lt _ (Nat.two_pow_pos _)

/-- The elements of a merged result. -/
theorem lanes_vMap (n : Nat) (m : BitVec 16) (old : Vec) (f : Nat → Nat) : Lanes n m old (vMap n m old f) f := by
  intro i hi
  have hl : ((List.range (16 / n)).map (fun i => if enabled m n i then f i else vElem old n i)).length = 16 / n := by simp
  rw [vMap, vElem_vPack (by rw [hl]; exact Nat.mul_div_le 16 n)]
  rw [List.getD_eq_getElem?_getD, List.getElem?_map, List.getElem?_range hi]
  show (if bit m (n * i) = true then f i else vElem old n i) % 2 ^ (8 * n) = _
  split
  · rfl
  · exact vElem_mod _ _ _

/-! ### Slots on v registers that are bound to no stream -/

theorem modCheck_of_maskOnly {p : Option (BitVec 24)} (h : MaskOnly p) (a b : Bool) : modCheck p a b true = none := by
  rcases h with rfl | ⟨m, rfl, hm⟩
  · rfl
  · have h1 : bitsN m 14 10 = 0 := by simp only [bitsN]; omega
    have h2 : bitsN m 4 10 = 0 := by simp only [bitsN]; omega
    have h3 : bit m 3 = false := by
      simp only [bit, ← BitVec.testBit_toNat]
      exact Nat.testBit_lt_two_pow (by omega)
    simp [modCheck, h1, h2, h3]

theorem slotEnv_k (s : State) (ws : List SlotWord) : (slotEnv s ws).k = now s := rfl

theorem slotEnv_vReg {s : State} (hu : Unbound s) (ws : List SlotWord) (r : Nat) : (slotEnv s ws).vReg r = (now s).rv r := by
  unfold Env.vReg
  rw [slotEnv_k, Ctx.readBound_of_unbound hu]
  rfl

theorem slotEnv_va {s : State} (hu : Unbound s) (ws : List SlotWord) (c : BitVec 6) : (slotEnv s ws).va c = V s c := by
  unfold Env.va V
  rw [slotEnv_vReg hu, slotEnv_k]

theorem slotEnv_vMerge {s : State} (hu : Unbound s) (ws : List SlotWord) (d : BitVec 6) :
    (slotEnv s ws).vMerge d = (now s).rv (dReg d) := by
  unfold Env.vMerge
  rw [slotEnv_k, Ctx.readBound_of_unbound hu, Ctx.writeBound_of_unbound hu]
  rfl

theorem slotEnv_vOld {s : State} (hu : Unbound s) (ws : List SlotWord) (d : BitVec 6) :
    (slotEnv s ws).vOld d = (now s).rv (dReg d) := slotEnv_vReg hu ws _

/-- A result for v register d, of a slot that raises flags F and has done nothing else. -/
def putV (s : State) (ws : List SlotWord) (d : BitVec 6) (v : Vec) (F : FFlags) : Work :=
  let w : Work := ({ s := s } : Work).raise F
  let w := if dN d then w else w.modCtx (slotEnv s ws) (fun k => k.wv (dReg d) v)
  { w with lat := w.lat ++ [.val v], folds := w.folds ++ [(none, v)] }

theorem outV_unbound {s : State} (hu : Unbound s) (ws : List SlotWord) (d : BitVec 6) (v : Vec) (F : FFlags) :
    (({ s := s } : Work).raise F).outV (slotEnv s ws) d v = .ok (putV s ws d v F) := by
  unfold Work.outV putV
  rw [slotEnv_k, Ctx.writeBound_of_unbound hu]
  cases dN d <;> rfl

theorem Local.putV (s : State) (ws : List SlotWord) (d : BitVec 6) (v : Vec) (F : FFlags) :
    Local s (putV s ws d v F) (if dN d then now s else (now s).wv (dReg d) v) := by
  unfold Machine.putV Work.raise Work.modCtx
  cases h : dN d
  · exact ⟨.inl rfl, rfl, rfl, rfl, rfl, rfl, by simp, by simp, by simp, by simp, by simp, by rfl, fun _ _ => by simp⟩
  · exact ⟨.inr ⟨rfl, rfl⟩, rfl, rfl, rfl, rfl, rfl, by simp, rfl, rfl, rfl, rfl, by rfl, fun _ _ => rfl⟩

@[simp] theorem putV_flags (s : State) (ws : List SlotWord) (d : BitVec 6) (v : Vec) (F : FFlags) : (putV s ws d v F).flags = F := by
  unfold putV Work.raise Work.modCtx; cases dN d <;> simp
@[simp] theorem putV_lat (s : State) (ws : List SlotWord) (d : BitVec 6) (v : Vec) (F : FFlags) :
    (putV s ws d v F).lat = [.val v] := by
  unfold putV Work.raise Work.modCtx; cases dN d <;> simp
@[simp] theorem putV_xfer (s : State) (ws : List SlotWord) (d : BitVec 6) (v : Vec) (F : FFlags) : (putV s ws d v F).xfer = .none := by
  unfold putV Work.raise Work.modCtx; cases dN d <;> simp

/-- A slot that computes a vector and raises flags. -/
theorem givesVF_of {i : Instr} {s : State} {d : SlotDef} (hx : exec i s = runSlot (encode i) d s) (hr : Ready s) (hu : Unbound s)
    (hf : Fit s (encode i) d) (hs : d.sync = false) {r : BitVec 6} {R : Vec} {F : FFlags}
    (h : d.run (slotEnv s (encode i)) { s := s } = (({ s := s } : Work).raise F).outV (slotEnv s (encode i)) r R) :
    GivesVF i s r R F := by
  have he := SlotDef.effect_run (h.trans (outV_unbound hu _ _ _ _)) (.inl hs)
  have := flags_of hx hr hf he (Local.putV s (encode i) r R F) (putV_xfer ..)
  simpa [GivesVF, resOf] using this

/-- A slot that computes a vector and raises no flag. -/
theorem givesV_of {i : Instr} {s : State} {d : SlotDef} (hx : exec i s = runSlot (encode i) d s) (hr : Ready s) (hu : Unbound s)
    (hf : Fit s (encode i) d) (hs : d.sync = false) {r : BitVec 6} {R : Vec}
    (h : d.run (slotEnv s (encode i)) { s := s } = ({ s := s } : Work).outV (slotEnv s (encode i)) r R) : GivesV i s r R := by
  have := (givesVF_of hx hr hu hf hs (F := 0#5) (h.trans (by rw [Work.raise_zero]))).1 (quiet_zero s)
  simpa [GivesV] using this

/-- A slot that computes elements under the mask. -/
theorem givesLanes_of {i : Instr} {s : State} {d : SlotDef} (hx : exec i s = runSlot (encode i) d s) (hr : Ready s) (hu : Unbound s)
    (hf : Fit s (encode i) d) (hs : d.sync = false) {p : Option (BitVec 24)} {r : BitVec 6} {n : Nat} {f : Nat → Nat}
    (h : d.run (slotEnv s (encode i)) { s := s }
      = ({ s := s } : Work).outV (slotEnv s (encode i)) r (vMap n (maskOf s p) ((now s).rv (dReg r)) f)) : GivesLanes i s p r n f :=
  ⟨_, lanes_vMap n _ _ f, givesV_of hx hr hu hf hs h⟩

/-- The same with flags. -/
theorem givesLanesF_of {i : Instr} {s : State} {d : SlotDef} (hx : exec i s = runSlot (encode i) d s) (hr : Ready s) (hu : Unbound s)
    (hf : Fit s (encode i) d) (hs : d.sync = false) {p : Option (BitVec 24)} {r : BitVec 6} {n : Nat} {f : Nat → Nat × FFlags}
    (h : d.run (slotEnv s (encode i)) { s := s }
      = ({ s := s } : Work).outVF (slotEnv s (encode i)) r n (maskOf s p) ((now s).rv (dReg r)) f) : GivesLanesF i s p r n f :=
  ⟨_, lanes_vMap n _ _ _, givesVF_of hx hr hu hf hs h⟩

/-! ### Vector shapes -/

theorem Lanes.congr {n : Nat} {m : BitVec 16} {old R : Vec} {f g : Nat → Nat} (h : Lanes n m old R f)
    (e : ∀ j, f j % 2 ^ (8 * n) = g j % 2 ^ (8 * n)) : Lanes n m old R g :=
  fun j hj => by rw [h j hj, e]

theorem GivesLanes.congr {i : Instr} {s : State} {p : Option (BitVec 24)} {d : BitVec 6} {n : Nat} {f g : Nat → Nat}
    (h : GivesLanes i s p d n f) (e : ∀ j, f j % 2 ^ (8 * n) = g j % 2 ^ (8 * n)) : GivesLanes i s p d n g :=
  let ⟨R, h1, h2⟩ := h
  ⟨R, Lanes.congr h1 e, h2⟩

/-- v, v to v. -/
theorem givesLanes_vBin {i : Instr} {s : State} {p : Option (BitVec 24)} {d a b : BitVec 6} {g : BitVec 3} {n : Nat}
    {f : Nat → Nat → Nat} (hx : exec i s = runSlot (encode i) (vBin p d a b g n f) s) (hr : Ready s) (hu : Unbound s)
    (hg : Guard s g) (hm : MaskOnly p) (ho : Readable s [a, b]) :
    GivesLanes i s p d n (fun j => f (vElem (V s a) n j) (vElem (V s b) n j)) :=
  givesLanes_of hx hr hu (Fit.vector hu hg (modCheck_of_maskOnly hm _ _) rfl ho rfl) rfl
    (by simp only [vBin, slotEnv_va hu, slotEnv_vMerge hu]; rfl)

/-- v to v. -/
theorem givesLanes_vUn {i : Instr} {s : State} {p : Option (BitVec 24)} {d a : BitVec 6} {g : BitVec 3} {n : Nat}
    {f : Nat → Nat} (hx : exec i s = runSlot (encode i) (vUn p d a g n f) s) (hr : Ready s) (hu : Unbound s)
    (hg : Guard s g) (hm : MaskOnly p) (ho : Readable s [a]) : GivesLanes i s p d n (fun j => f (vElem (V s a) n j)) :=
  givesLanes_of hx hr hu (Fit.vector hu hg (modCheck_of_maskOnly hm _ _) rfl ho rfl) rfl
    (by simp only [vUn, slotEnv_va hu, slotEnv_vMerge hu]; rfl)

/-- v, v and Old(vd) to v. -/
theorem givesLanes_vTri {i : Instr} {s : State} {p : Option (BitVec 24)} {d a b : BitVec 6} {g : BitVec 3} {n : Nat}
    {f : Nat → Nat → Nat → Nat} (hx : exec i s = runSlot (encode i) (vTri p d a b g n f) s) (hr : Ready s) (hu : Unbound s)
    (hg : Guard s g) (hm : MaskOnly p) (ho : Readable s [a, b]) :
    GivesLanes i s p d n (fun j => f (vElem (V s a) n j) (vElem (V s b) n j) (vElem ((now s).rv (dReg d)) n j)) :=
  givesLanes_of hx hr hu (Fit.vector hu hg (modCheck_of_maskOnly hm _ _) rfl ho rfl) rfl
    (by simp only [vTri, slotEnv_va hu, slotEnv_vOld hu]; rfl)

/-- v, v to v in a floating-point format. -/
theorem givesLanesF_vfBin {i : Instr} {s : State} {p : Option (BitVec 24)} {d a b : BitVec 6} {g : BitVec 3} {n : Nat} {x64 : Bool}
    {f : RMode → Nat → Nat → Nat × FFlags} (hx : exec i s = runSlot (encode i) (vfBin p d a b g n x64 f) s) (hr : Ready s)
    (hu : Unbound s) (hg : Guard s g) (hm : MaskOnly p) (ho : Readable s [a, b]) (h64 : Fp64 s x64) :
    GivesLanesF i s p d n (fun j => f (RMode.of (now s).frm) (vElem (V s a) n j) (vElem (V s b) n j)) :=
  givesLanesF_of hx hr hu (Fit.vector hu hg (modCheck_of_maskOnly hm _ _) rfl ho
    (by show (x64 && !hasFp64 s.turn) = false; cases x64 <;> simp_all [Fp64])) rfl
    (by simp only [vfBin, slotEnv_va hu, slotEnv_vMerge hu]; rfl)

/-- v to v in a floating-point format. -/
theorem givesLanesF_vfUn {i : Instr} {s : State} {p : Option (BitVec 24)} {d a : BitVec 6} {g : BitVec 3} {n : Nat} {x64 : Bool}
    {f : RMode → Nat → Nat × FFlags} (hx : exec i s = runSlot (encode i) (vfUn p d a g n x64 f) s) (hr : Ready s)
    (hu : Unbound s) (hg : Guard s g) (hm : MaskOnly p) (ho : Readable s [a]) (h64 : Fp64 s x64) :
    GivesLanesF i s p d n (fun j => f (RMode.of (now s).frm) (vElem (V s a) n j)) :=
  givesLanesF_of hx hr hu (Fit.vector hu hg (modCheck_of_maskOnly hm _ _) rfl ho
    (by show (x64 && !hasFp64 s.turn) = false; cases x64 <;> simp_all [Fp64])) rfl
    (by simp only [vfUn, slotEnv_va hu, slotEnv_vMerge hu]; rfl)

/-- v, v and Old(vd) to v in a floating-point format. -/
theorem givesLanesF_vfTri {i : Instr} {s : State} {p : Option (BitVec 24)} {d a b : BitVec 6} {g : BitVec 3} {n : Nat} {x64 : Bool}
    {f : RMode → Nat → Nat → Nat → Nat × FFlags} (hx : exec i s = runSlot (encode i) (vfTri p d a b g n x64 f) s) (hr : Ready s)
    (hu : Unbound s) (hg : Guard s g) (hm : MaskOnly p) (ho : Readable s [a, b]) (h64 : Fp64 s x64) :
    GivesLanesF i s p d n
      (fun j => f (RMode.of (now s).frm) (vElem (V s a) n j) (vElem (V s b) n j) (vElem ((now s).rv (dReg d)) n j)) :=
  givesLanesF_of hx hr hu (Fit.vector hu hg (modCheck_of_maskOnly hm _ _) rfl ho
    (by show (x64 && !hasFp64 s.turn) = false; cases x64 <;> simp_all [Fp64])) rfl
    (by simp only [vfTri, slotEnv_va hu, slotEnv_vOld hu]; rfl)

/-- A permute. -/
theorem givesLanes_vPerm {i : Instr} {s : State} {o : OpDab} {n : Nat} {f : Vec → Vec → Nat → Nat}
    (hx : exec i s = runSlot (encode i) (vPerm o n f) s) (hr : Ready s) (hu : Unbound s) (hg : Guard s o.g) (hm : MaskOnly o.p)
    (ho : Readable s [o.a, o.b]) : GivesLanes i s o.p o.d n (f (V s o.a) (V s o.b)) :=
  givesLanes_of hx hr hu (Fit.vector hu hg (modCheck_of_maskOnly hm _ _) rfl ho rfl) rfl
    (by simp only [vPerm, slotEnv_va hu, slotEnv_vMerge hu]; rfl)

/-- A sum of powers of two by its bits. -/
theorem testBit_sum (b : Nat → Bool) : ∀ n : Nat,
    let S := (List.range n).foldl (fun acc j => acc + (if b j then 2 ^ j else 0)) 0
    S < 2 ^ n ∧ ∀ j, j < n → S.testBit j = b j
  | 0 => ⟨by simp, fun _ h => absurd h (Nat.not_lt_zero _)⟩
  | n + 1 => by
    obtain ⟨h1, h2⟩ := testBit_sum b n
    simp only [List.range_succ, List.foldl_append, List.foldl_cons, List.foldl_nil]
    generalize (List.range n).foldl (fun acc j => acc + (if b j then 2 ^ j else 0)) 0 = S at h1 h2
    cases hb : b n
    · simp only [Bool.false_eq_true, if_false, Nat.add_zero]
      refine ⟨by rw [Nat.pow_succ]; omega, fun j hj => ?_⟩
      by_cases e : j = n
      · subst e; rw [Nat.testBit_lt_two_pow h1, hb]
      · exact h2 j (by omega)
    · simp only [if_true]
      refine ⟨by rw [Nat.pow_succ]; omega, fun j hj => ?_⟩
      rw [Nat.add_comm]
      by_cases e : j = n
      · subst e; rw [Nat.testBit_two_pow_add_eq, Nat.testBit_lt_two_pow h1, hb]; rfl
      · rw [Nat.testBit_two_pow_add_gt (by omega), h2 j (by omega)]

/-- Mask bits of a compare's result. -/
theorem bit_maskMerge (n : Nat) (m old : BitVec 16) (f : Nat → Bool) {j : Nat} (h : j < 16) :
    bit (maskMerge n m old f) j = if enabled m n (j / n) then f (j / n) else bit old j := by
  obtain ⟨h1, h2⟩ := testBit_sum (fun j => if enabled m n (j / n) then f (j / n) else bit old j) 16
  rw [bit, maskMerge, BitVec.getLsbD_ofNat, h2 j h]
  simp [h]

end Sys2Proof.Machine
end

