-- ==== Sys2Proof/Laws/Effect.lean ====
section
/-! SUPPORT. Slots with an effect on the machine: what their work must keep of the issuing context, and what they leave (R285). -/

namespace Sys2Proof.Machine

set_option Elab.async false

/-- u keeps of s what the commit of a bundle relies on, its issuing context being k. -/
structure Kept (s u : State) (k : Ctx) : Prop where
  steps : u.steps = s.steps
  time : u.time = s.time
  cycle : (u.core s.turn).cycle = (s.core s.turn).cycle
  ctx : u.ctx s.turn (nowCtx s) = k

theorem Kept.refl (s : State) : Kept s s (now s) := ⟨rfl, rfl, rfl, rfl⟩

/-- A change outside the cores. -/
theorem Kept.of {s u v : State} {k : Ctx} (h : Kept s u k) (h1 : v.steps = u.steps) (h2 : v.time = u.time) (h3 : v.cores = u.cores) :
    Kept s v k where
  steps := h1.trans h.steps
  time := h2.trans h.time
  cycle := by have : v.core s.turn = u.core s.turn := by simp only [State.core, h3]
              rw [this]; exact h.cycle
  ctx := by have : v.ctx s.turn (nowCtx s) = u.ctx s.turn (nowCtx s) := by simp only [State.ctx, State.core, h3]
            rw [this]; exact h.ctx

/-- A change of a core that leaves its contexts and its cycle. -/
theorem Kept.modCore {s u : State} {k : Ctx} (h : Kept s u k) (c : Nat) {f : Core → Core} (h1 : (f (u.core c)).ctxs = (u.core c).ctxs)
    (h2 : (f (u.core c)).cycle = (u.core c).cycle) : Kept s (u.modCore c f) k where
  steps := h.steps
  time := h.time
  cycle := by
    by_cases e : s.turn = c
    · subst e; rw [State.core_modCore_self, h2]; exact h.cycle
    · rw [State.core_modCore_ne _ _ e]; exact h.cycle
  ctx := by
    by_cases e : s.turn = c
    · subst e; rw [State.ctx_modCore _ _ _ _ h1]; exact h.ctx
    · unfold State.ctx; rw [State.core_modCore_ne _ _ e]; exact h.ctx

theorem Kept.inNow {s u : State} {k : Ctx} (h : Kept s u k) (f : Ctx → Ctx) : Kept s (inNow s u f) (f k) where
  steps := h.steps
  time := h.time
  cycle := by unfold Sys2Proof.inNow; rw [State.core_modCtx_self]; exact h.cycle
  ctx := by unfold Sys2Proof.inNow; rw [State.ctx_modCtx_self, h.ctx]

theorem Kept.chronicle {s u : State} {k : Ctx} (h : Kept s u k) (a b c d e f : Nat) (x y : Word) :
    Kept s (u.chronicle a b c d e f x y) k := by
  unfold State.chronicle; simp only
  split
  · split
    · exact h
    · exact h.of rfl rfl rfl
  · split
    · exact h.of rfl rfl rfl
    · exact h

theorem Kept.ite {s u v : State} {k : Ctx} {p : Prop} [Decidable p] (h1 : Kept s u k) (h2 : Kept s v k) :
    Kept s (if p then u else v) k := by
  split
  · exact h1
  · exact h2

theorem Kept.ecc {s u : State} {k : Ctx} (h : Kept s u k) (l : List Ecc) : Kept s { u with ecc := l } k := ⟨h.1, h.2, h.3, h.4⟩

theorem Kept.lifeCorr {s u : State} {k : Ctx} (h : Kept s u k) (l : Tab Nat) : Kept s { u with lifeCorr := l } k :=
  ⟨h.1, h.2, h.3, h.4⟩

theorem Kept.addPoison {s u : State} {k : Ctx} (h : Kept s u k) (l : Nat) : Kept s (u.addPoison l) k := by
  unfold State.addPoison
  split
  · exact h
  · exact ⟨h.1, h.2, h.3, h.4⟩

theorem Kept.mark {s u : State} {k : Ctx} (h : Kept s u k) (c : Nat) : Kept s (u.mark c) k := h.modCore c rfl rfl

theorem Kept.freezeNow {s u : State} {k : Ctx} (h : Kept s u k) (c : Nat) : Kept s (u.freezeNow c) k := by
  unfold State.freezeNow
  exact Kept.ite (h.modCore c rfl rfl) h

theorem Kept.countBank {s u : State} {k : Ctx} (h : Kept s u k) (c bank : Nat) : Kept s (u.countBank c bank) k := by
  unfold State.countBank
  extract_lets u1 u2
  have h1 : Kept s u1 k := h.modCore c rfl rfl
  have h2 : Kept s u2 k := h1.lifeCorr _
  exact Kept.ite (h2.mark c) h2

theorem Kept.eccRead {s u : State} {k : Ctx} (h : Kept s u k) (line : Nat) : Kept s (u.eccRead line) k := by
  unfold State.eccRead
  split
  · exact h
  · dsimp only
    split
    · exact ((h.ecc _).addPoison _).chronicle ..
    · split
      · exact (((h.ecc _).freezeNow _).countBank _ _).chronicle ..
      · refine Kept.chronicle ?_ ..
        exact ⟨h.1, h.2, h.3, h.4⟩

theorem Kept.foldl {α : Type} {s : State} {k : Ctx} {f : State → α → State} (hf : ∀ u a, Kept s u k → Kept s (f u a) k) :
    ∀ (l : List α) (u : State), Kept s u k → Kept s (l.foldl f u) k
  | [], _, h => h
  | a :: l, u, h => Kept.foldl hf l (f u a) (hf u a h)

theorem Kept.eccRange {s u : State} {k : Ctx} (h : Kept s u k) (pa n : Nat) : Kept s (u.eccRange pa n) k := by
  unfold State.eccRange
  split
  · exact h
  · exact Kept.foldl (fun v i hv => hv.eccRead _) _ _ h

theorem Kept.wrBytes {s u : State} {k : Ctx} (h : Kept s u k) (pa : Nat) (bs : List Byte) : Kept s (u.wrBytes pa bs) k :=
  ⟨h.1, h.2, h.3, h.4⟩

theorem Kept.sent {s u : State} {k : Ctx} (h : Kept s u k) (n dst : Nat) (b : Body) (also : List Nat) : Kept s (sent s u n dst b also) k :=
  ⟨h.1, h.2, h.3, h.4⟩

theorem Kept.append {s u : State} {k : Ctx} (h : Kept s u k) (c : Nat) (r : LogRec) : Kept s (u.append c r) k := by
  unfold State.append
  dsimp only
  refine Kept.wrBytes ?_ _ _
  exact h.modCore c rfl rfl

theorem Kept.release {s u : State} {k : Ctx} (h : Kept s u k) (c t : Nat) : Kept s (u.release c t) k := h.modCore _ rfl rfl

/-- What makes the work of a slot fit for its commit. -/
theorem Kept.settled {s : State} (hr : Ready s) {w : Work} {k : Ctx} (h : Kept s w.s k) (h1 : k.regErr = (now s).regErr)
    (h2 : k.pair = (now s).pair) (h3 : k.pc = (now s).pc) (h4 : k.latSeq = (now s).latSeq) (hb : w.binds = [] := by rfl)
    (ho : w.pairOn = none := by rfl) (hf : w.pairOff = false := by rfl) (hc : w.refetch = false := by rfl)
    (hx : w.xfer.suspends = false := by rfl) (hl : w.lat.length ≤ 1 := by simp) (ht : w.loads = [] := by rfl)
    (hj : ∀ a, w.xfer ≠ .call a := by intro _ h; cases h) : Settled s w where
  binds := hb
  pairOn := ho
  pairOff := hf
  refetch := hc
  stays := hx
  one := hl
  loads := ht
  link := fun a ha => absurd ha (hj a)
  sound := by rw [h.ctx, h1]; exact hr.sound
  alone := by rw [h.ctx, h2]; exact hr.alone
  pc := by rw [h.ctx, h3]
  seq := by rw [h.ctx, h4]
  steps := h.steps
  time := h.time
  cycle := h.cycle

/-- What a slot leaves that completes without flags and goes on. -/
theorem givesTo_of {i : Instr} {s : State} {d : SlotDef} (hx : exec i s = runSlot (encode i) d s) (hr : Ready s) {w : Work}
    (h : Completes s (encode i) d w) (hw : Settled s w) (hn : w.xfer = .none) (hf : w.flags = 0#5) {u : State}
    (hu : stamped s w.s = u) : GivesTo i s (resOf w.lat) u := by
  obtain ⟨t, ht, ha⟩ := runSlot_after hr h hw
  refine ⟨t, hx.trans ht, ?_⟩
  have e : committed s (encode i).length w = u.setCtx s.turn (nowCtx s)
      (goOn (latched (u.ctx s.turn (nowCtx s)) (resOf w.lat)) (nextPc s i)) := by
    unfold committed
    rw [hu, hn, hf, State.modCtx_eq, raised_zero]
    rfl
  rw [e] at ha
  exact ha

/-- A tile written for a context that does not run paired: the core's tile, and nothing else (R434, R436). -/
theorem writeTile_alone {s : State} {c ctx : Nat} (tile : Nat) (paired : Bool) (id : Nat) (d : List (BitVec 32))
    (h : (s.ctx c ctx).pair = none) : s.writeTile c ctx tile paired id d = s.modCore c (fun k => k.setTile tile d) := by
  have e : ((s.modCore c (fun k => k.setTile tile d)).ctx c ctx).pair = none := by
    simpa [State.ctx, State.modCore] using h
  simp only [State.writeTile, e]

/-- The work of a slot that has sent one thing. -/
theorem stamped_flown (s u : State) (hl : u.flight.length = s.flight.length) (n dst : Nat) (b : Body) (also : List Nat) :
    stamped s (flown s u n dst b also) = sent s u n dst b also := by
  unfold stamped State.loadsFirst flown State.fly Sys2Proof.sent
  rw [← hl]
  cases hb : b.isLoad <;> simp [hb]

end Sys2Proof.Machine
end

