-- ==== Sys2Proof/Laws/Access.lean ====
section
/-! SUPPORT. Accesses of the issuing thread to memory: what a load and a store leave once their address is translated (R346). -/

namespace Sys2Proof.Machine

set_option Elab.async false

/-! ### What a slot leaves, from the description of the slot -/

/-- A slot that completes without flags, goes on and leaves one result or none. -/
theorem givesTo_run {i : Instr} {s : State} {d : SlotDef} (hx : exec i s = runSlot (encode i) d s) (hr : Ready s)
    (hf : Fit s (encode i) d) {w : Work} (he : d.run (slotEnv s (encode i)) { s := s } = .ok w)
    (hs : d.sync = false ∨ d.both = true) {k : Ctx} (hk : Kept s w.s k) (h1 : k.regErr = (now s).regErr)
    (h2 : k.pair = (now s).pair) (h3 : k.pc = (now s).pc) (h4 : k.latSeq = (now s).latSeq) {u : State} {r : Res}
    (hu : stamped s w.s = u) (hr' : resOf w.lat = r) (hb : w.binds = [] := by rfl) (ho : w.pairOn = none := by rfl)
    (hq : w.pairOff = false := by rfl) (hc : w.refetch = false := by rfl) (hn : w.xfer = .none := by rfl)
    (hl : w.lat.length ≤ 1 := by first | exact Nat.le_refl _ | exact Nat.zero_le _) (hfl : w.flags = 0#5 := by rfl)
    (ht : w.loads = [] := by rfl) : GivesTo i s r u := by
  subst hr'
  exact givesTo_of hx hr (hf.completes (SlotDef.effect_run he hs) (by rw [hfl]; simp))
    (hk.settled hr h1 h2 h3 h4 hb ho hq hc (by rw [hn]; rfl) hl ht (by rw [hn]; intro _ h; cases h)) hn hfl hu

/-- The same for a slot of which a pair shares the effect, in a context that runs alone. -/
theorem givesTo_solo {i : Instr} {s : State} {d : SlotDef} (hx : exec i s = runSlot (encode i) d s) (hr : Ready s)
    (hf : Fit s (encode i) d) {w : Work} (he : d.run (slotEnv s (encode i)) { s := s } = .ok w)
    {k : Ctx} (hk : Kept s w.s k) (h1 : k.regErr = (now s).regErr)
    (h2 : k.pair = (now s).pair) (h3 : k.pc = (now s).pc) (h4 : k.latSeq = (now s).latSeq) {u : State} {r : Res}
    (hu : stamped s w.s = u) (hr' : resOf w.lat = r) (hb : w.binds = [] := by rfl) (ho : w.pairOn = none := by rfl)
    (hq : w.pairOff = false := by rfl) (hc : w.refetch = false := by rfl) (hn : w.xfer = .none := by rfl)
    (hl : w.lat.length ≤ 1 := by first | exact Nat.le_refl _ | exact Nat.zero_le _) (hfl : w.flags = 0#5 := by rfl)
    (ht : w.loads = [] := by rfl) : GivesTo i s r u := by
  subst hr'
  refine givesTo_of hx hr (hf.completes (SlotDef.effect_solo he hr.alone ?_) (by rw [hfl]; simp))
    (hk.settled hr h1 h2 h3 h4 hb ho hq hc (by rw [hn]; rfl) hl ht (by rw [hn]; intro _ h; cases h)) hn hfl hu
  show (w.s.ctx s.turn (nowCtx s)).pair = none
  rw [hk.ctx, h2]
  exact hr.alone

/-- A bundle that has sent nothing. -/
theorem stamped_none {s u : State} (h : u.flight.length = s.flight.length) : stamped s u = u := State.loadsFirst_none _ _ _ _ h

/-! ### What an access leaves of the things in flight -/

theorem State.flight_chronicle (s : State) (a b c d e f : Nat) (x y : Word) : (s.chronicle a b c d e f x y).flight = s.flight := by
  unfold State.chronicle; simp only
  repeat' split
  all_goals rfl

theorem State.flight_freezeNow (s : State) (c : Nat) : (s.freezeNow c).flight = s.flight := by
  unfold State.freezeNow; split <;> rfl

theorem State.flight_countBank (s : State) (c b : Nat) : (s.countBank c b).flight = s.flight := by
  unfold State.countBank; dsimp only; split <;> rfl

theorem State.flight_addPoison (s : State) (l : Nat) : (s.addPoison l).flight = s.flight := by
  unfold State.addPoison; split <;> rfl

theorem State.flight_eccRead (s : State) (l : Nat) : (s.eccRead l).flight = s.flight := by
  unfold State.eccRead
  split
  · rfl
  · dsimp only
    split
    · rw [State.flight_chronicle, State.flight_addPoison]
    · split
      · rw [State.flight_chronicle, State.flight_countBank, State.flight_freezeNow]
      · rw [State.flight_chronicle]

theorem State.flight_eccRange (s : State) (pa n : Nat) : (s.eccRange pa n).flight = s.flight := by
  unfold State.eccRange
  split
  · rfl
  · rename_i he
    clear he
    generalize List.range _ = l
    induction l generalizing s with
    | nil => rfl
    | cons a l ih => rw [List.foldl_cons, ih, State.flight_eccRead]

/-! ### Operands -/

@[simp] theorem Ctx.markX_regErr (k : Ctx) (r : Nat) : (k.markX r).regErr = k.regErr := by unfold Ctx.markX; split <;> rfl
@[simp] theorem Ctx.markX_pair (k : Ctx) (r : Nat) : (k.markX r).pair = k.pair := by unfold Ctx.markX; split <;> rfl
@[simp] theorem Ctx.markX_pc (k : Ctx) (r : Nat) : (k.markX r).pc = k.pc := by unfold Ctx.markX; split <;> rfl
@[simp] theorem Ctx.markX_latSeq (k : Ctx) (r : Nat) : (k.markX r).latSeq = k.latSeq := by unfold Ctx.markX; split <;> rfl

theorem slotEnv_xa (s : State) (ws : List SlotWord) (c : BitVec 6) : (slotEnv s ws).xa c = X s c := rfl

theorem slotEnv_mask (s : State) (ws : List SlotWord) (p : Option (BitVec 24)) : (slotEnv s ws).mask p = maskOf s p := rfl

/-- An aligned address that translates. -/
theorem slotEnv_addr {s : State} {ws : List SlotWord} {acc : Acc} {ea : Word} {n : Nat} {x : Xl} (ha : ea.toNat % n = 0)
    (hx : Reaches s acc ea x) : (slotEnv s ws).addr ea n acc = .ok x := by
  unfold Env.addr
  simp only [ha, ne_eq, not_true_eq_false, if_false]
  exact hx

theorem slotEnv_addr_misaligned {s : State} {ws : List SlotWord} {acc : Acc} {ea : Word} {n : Nat} (ha : ea.toNat % n ≠ 0) :
    (slotEnv s ws).addr ea n acc = .error (.trap cMisaligned ea) := by
  unfold Env.addr
  rw [if_pos ha]

theorem slotEnv_addr_error {s : State} {ws : List SlotWord} {acc : Acc} {ea : Word} {n : Nat} {q : Stop} (ha : ea.toNat % n = 0)
    (hx : translate s s.turn (nowCtx s) acc ea = .error q) : (slotEnv s ws).addr ea n acc = .error q := by
  unfold Env.addr
  simp only [ha, ne_eq, not_true_eq_false, if_false]
  exact hx

/-- A physical address has the alignment of the effective address (R112). -/
theorem Reaches.aligned {s : State} {acc : Acc} {ea : Word} {x : Xl} (h : Reaches s acc ea x) {k : Nat} (hk : k ≤ 16)
    (ha : ea.toNat % 2 ^ k = 0) : x.pa % 2 ^ k = 0 := by
  have hd : ∀ m, k ≤ m → ∀ f, f % 2 ^ 16 = 0 → (f + ea.toNat % 2 ^ m) % 2 ^ k = 0 := by
    intro m hm f hf
    have h1 : 2 ^ k ∣ 2 ^ m := Nat.pow_dvd_pow 2 hm
    have h2 : 2 ^ k ∣ 2 ^ 16 := Nat.pow_dvd_pow 2 hk
    have h3 : f % 2 ^ k = 0 := by rw [← Nat.mod_mod_of_dvd f h2, hf]; simp
    rw [Nat.add_mod, h3, Nat.mod_mod_of_dvd _ h1, ha]; simp
  have hl : ∀ e : Tlb, (e.xl ea.toNat).pa % 2 ^ k = 0 := by
    intro e
    refine hd _ ?_ _ ?_
    · unfold pageBits; split
      · omega
      · split <;> omega
    · unfold leafFrame; exact Nat.mul_mod_left _ _
  unfold Reaches translate at h
  simp only at h
  split at h
  · cases h
  · split at h
    · split at h
      · cases h
        have := hd 52 (by omega) 0 (by decide)
        rwa [Nat.zero_add] at this
      · cases h
    · split at h
      · cases h
      · split at h
        · split at h
          · cases h; exact hl _
          · cases h
        · split at h
          · split at h <;> cases h
          · cases h

/-! ### Loads -/

theorem slotEnv_solo {s : State} (hr : Ready s) {w : Work} {k : Ctx} (hk : Kept s w.s k) (h2 : k.pair = (now s).pair) (ws : List SlotWord) :
    (w.s.ctx (slotEnv s ws).c (slotEnv s ws).t).pair = none := by
  show (w.s.ctx s.turn (nowCtx s)).pair = none
  rw [hk.ctx, h2]
  exact hr.alone

theorem takes_solo {s : State} (hr : Ready s) {w : Work} {k : Ctx} (hk : Kept s w.s k) (h2 : k.pair = (now s).pair) (ws : List SlotWord) :
    w.takes (slotEnv s ws) = false := by
  unfold Work.takes
  rw [show (w.s.ctx (slotEnv s ws).c (slotEnv s ws).t).role = .solo from by
    unfold Ctx.role; rw [slotEnv_solo hr hk h2]]
  rfl

theorem give_solo {s : State} (hr : Ready s) {w : Work} {k : Ctx} (hk : Kept s w.s k) (h2 : k.pair = (now s).pair) (ws : List SlotWord)
    (v : Vec) : w.give (slotEnv s ws) v = w := by
  unfold Work.give
  rw [show (w.s.ctx (slotEnv s ws).c (slotEnv s ws).t).role = .solo from by
    unfold Ctx.role; rw [slotEnv_solo hr hk h2]]

theorem number_solo {s : State} (hr : Ready s) {w : Work} {k : Ctx} (hk : Kept s w.s k) (h2 : k.pair = (now s).pair) (ws : List SlotWord) :
    w.number (slotEnv s ws) = (none, w) := by
  unfold Work.number
  rw [slotEnv_solo hr hk h2]

/-- A load with its bytes at hand. -/
theorem loadAt_hand {s : State} (hr : Ready s) {ws : List SlotWord} {x : Xl} (hc : Clear s x [lineOf x.pa]) {isV sgn : Bool}
    {d : BitVec 6} {n : Nat} {mask : BitVec 16} (hp : (s.eccRange x.pa n).poisoned x.pa n = none) {raw : List Byte}
    (hn : (ownSlice s.turn x.pa = true ∧ raw = Mem.bytes s.mem x.pa n)
      ∨ (ownSlice s.turn x.pa = false ∧ s.heldRead s.turn x n = some raw)) :
    ({ s := s } : Work).loadAt (slotEnv s ws) x isV d n sgn mask
      = ({ s := s.eccRange x.pa n } : Work).outLoad (slotEnv s ws) isV d
          (loadValue isV n sgn mask (if isV then (slotEnv s ws).vMerge d else 0) raw) := by
  have h1 : ((s.ownHit s.turn (leafL x.leaf) [lineOf x.pa]) : Option Nat) = none := hc
  unfold Work.loadAt
  rw [takes_solo hr (Kept.refl s) rfl]
  simp only [Bool.false_eq_true, if_false, slotEnv_s, slotEnv_c, h1, poisonCheck, hp]
  have hk := (Kept.refl s).eccRange x.pa n
  rcases hn with ⟨h2, rfl⟩ | ⟨h2, h3⟩
  · simp only [h2, if_true]
    rw [give_solo hr (w := { s := s.eccRange x.pa n }) hk rfl]
  · simp only [h2, Bool.false_eq_true, if_false, h3]
    rw [give_solo hr (w := { s := s.eccRange x.pa n }) hk rfl]

/-- A load that goes on its way. -/
theorem loadAt_far {s : State} (hr : Ready s) {ws : List SlotWord} {x : Xl} (hc : Clear s x [lineOf x.pa]) {isV sgn : Bool}
    {d : BitVec 6} {n : Nat} {mask : BitVec 16} (hp : (s.eccRange x.pa n).poisoned x.pa n = none)
    (hn : ownSlice s.turn x.pa = false) (hh : s.heldRead s.turn x n = none) (hu : isV = true → Unbound s) :
    ({ s := s } : Work).loadAt (slotEnv s ws) x isV d n sgn mask
      = .ok (({ s := flown s (s.eccRange x.pa n) (ws.length - 1) (orderUnit x.pa) (.load (nowCtx s) isV (destReg isV d) n sgn x.pa
          (latchNo s) (leafL x.leaf) mask (if isV then (slotEnv s ws).vMerge d else 0)) } : Work).pend (slotEnv s ws) isV d none) := by
  have h1 : ((s.ownHit s.turn (leafL x.leaf) [lineOf x.pa]) : Option Nat) = none := hc
  unfold Work.loadAt
  rw [takes_solo hr (Kept.refl s) rfl]
  have hk := (Kept.refl s).eccRange x.pa n
  simp only [Bool.false_eq_true, if_false, slotEnv_s, slotEnv_c, h1, poisonCheck, hp, hn, hh]
  have hb : ¬ (isV = true ∧ (slotEnv s ws).k.writeBound (dReg d) = true ∧ dN d = false) := by
    rintro ⟨h, h', -⟩
    rw [slotEnv_k, Ctx.writeBound_of_unbound (hu h)] at h'
    cases h'
  rw [if_neg hb, number_solo hr (w := { s := s.eccRange x.pa n }) hk rfl]
  rfl

/-- A change of the issuing context that changes nothing there. -/
theorem givesTo_inNow_id {i : Instr} {s u : State} {r : Res} {f : Ctx → Ctx} (h : GivesTo i s r u)
    (hf : f (u.ctx s.turn (nowCtx s)) = u.ctx s.turn (nowCtx s)) : GivesTo i s r (inNow s u f) := by
  unfold GivesTo at h ⊢
  unfold inNow
  rw [State.ctx_modCtx_self, hf, State.modCtx, hf, State.setCtx_setCtx]
  exact h

/-- A value at hand for x register d. -/
theorem givesTo_outX {i : Instr} {s : State} {d : SlotDef} (hx : exec i s = runSlot (encode i) d s) (hr : Ready s)
    (hf : Fit s (encode i) d) {r : BitVec 6} {v : Word} {u : State}
    (he : d.run (slotEnv s (encode i)) { s := s } = .ok (({ s := u } : Work).outX (slotEnv s (encode i)) r v))
    (hk : Kept s u (now s)) (hl : u.flight.length = s.flight.length) (hs : d.sync = false ∨ d.both = true) :
    GivesTo i s (.val (v.setWidth 128)) (inNow s u (fun k => if dN r then k else k.wx (dReg r) v)) := by
  unfold Work.outX at he
  cases h : dN r
  · simp only [h, Bool.false_eq_true, if_false] at he ⊢
    exact givesTo_run hx hr hf he hs (hk.inNow (fun k => k.wx (dReg r) v)) (by simp) (by simp) (by simp) (by simp)
      (stamped_none hl) rfl
  · simp only [h, if_true] at he ⊢
    exact givesTo_inNow_id (givesTo_run hx hr hf he hs hk rfl rfl rfl rfl (stamped_none hl) rfl) rfl

/-- The same for v register d. -/
theorem givesTo_outV {i : Instr} {s : State} {d : SlotDef} (hx : exec i s = runSlot (encode i) d s) (hr : Ready s)
    (hf : Fit s (encode i) d) (hu : Unbound s) {r : BitVec 6} {v : Vec} {u : State}
    (he : d.run (slotEnv s (encode i)) { s := s } = ({ s := u } : Work).outV (slotEnv s (encode i)) r v)
    (hk : Kept s u (now s)) (hl : u.flight.length = s.flight.length) (hs : d.sync = false ∨ d.both = true) :
    GivesTo i s (.val v) (inNow s u (fun k => if dN r then k else k.wv (dReg r) v)) := by
  unfold Work.outV at he
  rw [slotEnv_k, Ctx.writeBound_of_unbound hu] at he
  cases h : dN r
  · simp only [h, Bool.false_eq_true, if_false] at he ⊢
    exact givesTo_run hx hr hf he hs (hk.inNow (fun k => k.wv (dReg r) v)) rfl rfl rfl rfl
      (stamped_none hl) rfl
  · simp only [h, if_true] at he ⊢
    exact givesTo_inNow_id (givesTo_run hx hr hf he hs hk rfl rfl rfl rfl (stamped_none hl) rfl) rfl

/-- A result on its way to a register. -/
theorem givesTo_pend {i : Instr} {s : State} {d : SlotDef} (hx : exec i s = runSlot (encode i) d s) (hr : Ready s)
    (hf : Fit s (encode i) d) {isV : Bool} {r : BitVec 6} {u : State} {dst : Nat} {b : Body} {also : List Nat}
    (he : d.run (slotEnv s (encode i)) { s := s }
      = .ok (({ s := flown s u (slotNo i) dst b also } : Work).pend (slotEnv s (encode i)) isV r none))
    (hk : Kept s u (now s)) (hl : u.flight.length = s.flight.length) (hs : d.sync = false ∨ d.both = true) :
    GivesTo i s .await (inNow s (sent s u (slotNo i) dst b also) (awaiting isV r)) := by
  have hk1 : Kept s (flown s u (slotNo i) dst b also) (now s) := ⟨hk.1, hk.2, hk.3, hk.4⟩
  unfold Work.pend at he
  by_cases h : dN r = true ∨ (isV = false ∧ dReg r = 0)
  · have h' : dN r = true ∨ ((!isV) = true ∧ dReg r = 0) := by cases isV <;> simpa using h
    simp only [h', if_true] at he
    refine givesTo_inNow_id (givesTo_run hx hr hf he hs hk1 rfl rfl rfl rfl (stamped_flown s u hl _ _ _ _) rfl) ?_
    unfold awaiting; rw [if_pos h]
  · have h' : ¬ (dN r = true ∨ ((!isV) = true ∧ dReg r = 0)) := by cases isV <;> simpa using h
    simp only [h', if_false] at he
    have e : awaiting isV r = (fun k => if isV = true then { k with pendV := k.pendV ||| 1#32 <<< dReg r } else k.markX (dReg r)) := by
      funext k; unfold awaiting; rw [if_neg h]
    rw [e, ← stamped_flown s u hl]
    exact givesTo_run hx hr hf he hs (hk1.inNow (fun k => if isV = true then { k with pendV := k.pendV ||| 1#32 <<< dReg r }
        else k.markX (dReg r))) (by cases isV <;> simp) (by cases isV <;> simp) (by cases isV <;> simp)
        (by cases isV <;> simp) rfl rfl

/-- What a scalar load does at its address (R346, R349). -/
theorem load_scalar {i : Instr} {s : State} {g : BitVec 3} {xs : List (BitVec 6)} {d : BitVec 6} {bm : Option (BitVec 24)} {n : Nat} {sgn : Bool}
    {f : Env → Word} (hx : exec i s = runSlot (encode i) (sLoad g xs d bm n sgn f) s) (hr : Ready s)
    (hg : Guard s g) (hb : bm = none) (hrd : Readable s xs) {ea : Word} (hf : f (slotEnv s (encode i)) = ea) :
    (ea.toNat % n ≠ 0 → Traps i s cMisaligned ea)
    ∧ (∀ code v, ea.toNat % n = 0 → translate s s.turn (nowCtx s) .load ea = .error (.trap code v) → code ≠ cPoison → code ≠ cFp →
      Traps i s code v)
    ∧ (∀ x, ea.toNat % n = 0 → Reaches s .load ea x → Clear s x [lineOf x.pa] →
      (s.eccRange x.pa n).poisoned x.pa n = none →
      (∀ raw, ((kindOf x.pa = 0 ∧ sliceCore x.pa = s.turn) ∧ raw = Mem.bytes s.mem x.pa n
        ∨ ¬ (kindOf x.pa = 0 ∧ sliceCore x.pa = s.turn) ∧ s.heldRead s.turn x n = some raw) →
        let value := BitVec.ofNat 64 (if sgn then uWrap 64 (sInt (8 * n) (ofBytes raw)) else ofBytes raw)
        GivesTo i s (.val (value.setWidth 128)) (inNow s (s.eccRange x.pa n) (fun k => if dN d then k else k.wx (dReg d) value)))
      ∧ (¬ (kindOf x.pa = 0 ∧ sliceCore x.pa = s.turn) → s.heldRead s.turn x n = none → GivesTo i s .await (inNow s
        (sent s (s.eccRange x.pa n) (slotNo i) (orderUnit x.pa)
          (.load (nowCtx s) false (destReg false d) n sgn x.pa (latchNo s) (leafL x.leaf) 0xFFFF 0))
        (awaiting false d)))) := by
  have hfit : Fit s (encode i) (sLoad g xs d bm n sgn f) := Fit.scalar hg hb rfl hrd
  have hrun : (sLoad g xs d bm n sgn f).run (slotEnv s (encode i)) { s := s }
      = match (slotEnv s (encode i)).addr ea n .load with
        | .error q => .error q
        | .ok x => ({ s := s } : Work).loadAt (slotEnv s (encode i)) x false d n sgn 0xFFFF := by rw [← hf]; rfl
  refine ⟨fun h => ?_, fun code v ha h h1 h2 => ?_, fun x ha hxl hc hp => ⟨fun raw hn => ?_, fun hn hh => ?_⟩⟩
  · refine traps_of hx hr hfit (SlotDef.effect_error ?_ (.inl rfl)) (by decide) (by decide)
    rw [hrun, slotEnv_addr_misaligned h]
  · refine traps_of hx hr hfit (SlotDef.effect_error ?_ (.inl rfl)) h1 h2
    rw [hrun, slotEnv_addr_error ha h]
  · refine givesTo_outX hx hr hfit (u := s.eccRange x.pa n) ?_ ((Kept.refl s).eccRange _ _) (by rw [State.flight_eccRange]) (.inl rfl)
    rw [hrun, slotEnv_addr ha hxl]
    simp only
    rw [loadAt_hand hr hc hp (raw := raw)]
    · simp only [Work.outLoad, loadValue, Bool.false_eq_true, if_false, extendLoad]
      congr 2
      apply BitVec.eq_of_toNat_eq
      simp only [BitVec.toNat_setWidth, BitVec.toNat_ofNat]
      exact Nat.mod_mod_of_dvd _ (by decide)
    · unfold ownSlice
      rcases hn with ⟨⟨h1, h2⟩, rfl⟩ | ⟨h1, h2⟩
      · exact .inl ⟨by simp [h1, h2], rfl⟩
      · exact .inr ⟨by simpa using h1, h2⟩
  · refine givesTo_pend hx hr hfit (u := s.eccRange x.pa n) ?_ ((Kept.refl s).eccRange _ _) (by rw [State.flight_eccRange]) (.inl rfl)
    rw [hrun, slotEnv_addr ha hxl]
    simp only
    rw [loadAt_far hr hc hp (by unfold ownSlice; simpa using hn) hh (by intro h; cases h)]
    rfl

/-! ### Stores -/

@[simp] theorem length_toBytes : ∀ n x : Nat, (toBytes n x).length = n
  | 0, _ => rfl
  | n + 1, x => by simp [toBytes, length_toBytes n]

theorem Kept.record {s u : State} {k : Ctx} (h : Kept s u k) (r : LogRec) : Kept s (logged s u r) k :=
  by
  unfold logged inCore
  have h1 := h.append s.turn r
  generalize u.append s.turn r = v at h1
  exact h1.modCore _ rfl rfl

theorem Log.spillUse_push (l : Log) (r : LogRec) : (l.push r).spillUse = l.spillUse + if l.spills then 1 else 0 := by
  unfold Log.push Log.advance Log.spillUse Log.stamp
  rw [List.filter_append, List.length_append]
  cases l.spills <;> rfl

theorem Log.ringUse_push (l : Log) (r : LogRec) : (l.push r).ringUse = l.ringUse + if l.spills then 0 else 1 := by
  unfold Log.push Log.advance Log.ringUse Log.stamp
  rw [List.filter_append, List.length_append]
  cases l.spills <;> rfl

/-- A log with room for several records has room for the first, and then for the others (R170). -/
theorem Log.room_push {l : Log} {n : Nat} (h : l.room (n + 1) = true) (r : LogRec) : l.room 1 = true ∧ (l.push r).room n = true := by
  unfold Log.room at h ⊢
  rw [Log.spillUse_push, Log.ringUse_push]
  have h1 : (l.push r).desc = l.desc := rfl
  have h2 : (l.push r).spill = l.spill := rfl
  rw [h1, h2]
  by_cases h0 : l.spillUse = 0 ∧ l.ringUse + 1 ≤ ringCap l.desc
  · have e : l.spills = false := by simp [Log.spills, h0.1, h0.2]
    rw [e, if_pos h0]
    refine ⟨rfl, ?_⟩
    split at h
    · rw [if_pos (by simp; omega)]
    · simp at h ⊢
      omega
  · have e : l.spills = true := by
      have : ¬ (l.spillUse = 0 ∧ l.ringUse < ringCap l.desc) := h0
      simp [Log.spills]; omega
    rw [if_neg (by omega)] at h
    rw [e, if_neg h0]
    rw [if_neg (c := _ ∧ _) (by simp)]
    simp at h ⊢
    omega

@[simp] theorem State.core_wrBytes (s : State) (pa : Nat) (bs : List Byte) (c : Nat) : (s.wrBytes pa bs).core c = s.core c := rfl

/-- The log of a core after a record has been appended (R153). -/
theorem State.log_append (u : State) (c : Nat) (r : LogRec) : ((u.append c r).core c).log = (u.core c).log.push r := by
  unfold State.append
  rw [State.core_wrBytes, State.core_modCore_self]
  rfl

/-- The log of the issuing core after a record. -/
theorem logged_log (s u : State) (r : LogRec) : ((logged s u r).core s.turn).log = (u.core s.turn).log.push r := by
  unfold logged inCore
  rw [State.core_modCore_self]
  exact State.log_append u s.turn r

/-- Records appended one after another by a context that runs alone (R153, R170). -/
theorem appendAll_solo {s : State} (hr : Ready s) {ws : List SlotWord} (x : Xl) (kind : Nat) (fmt : BitVec 8) (F : Nat × Nat → Nat) :
    ∀ (runs : List (Nat × Nat)) (w : Work), Kept s w.s (now s) → (w.s.core s.turn).log.room runs.length = true →
    w.appendAll (slotEnv s ws) kind fmt (homeOf x.leaf x.pa) false (runs.map (fun r => (x.pa + r.1, r.2, F r)))
      = .ok { w with s := runs.foldl (fun u r => logged s u (logRec s x kind r.2 fmt r.1 (F r))) w.s } := by
  intro runs
  induction runs with
  | nil => intro w _ _; rfl
  | cons r l ih =>
    intro w hk hroom
    obtain ⟨h2, h1⟩ := Log.room_push hroom (logRec s x kind r.2 fmt r.1 (F r))
    have hap : w.append (slotEnv s ws) kind r.2 fmt (x.pa + r.1) (homeOf x.leaf x.pa) (F r) false
        = .ok { w with s := logged s w.s (logRec s x kind r.2 fmt r.1 (F r)) } := by
      unfold Work.append
      have h3 : (w.s.core (slotEnv s ws).c).log.room 1 = true := h2
      rw [h3]
      simp only [Bool.not_true, Bool.false_eq_true, if_false]
      have h4 : (slotEnv s ws).k.pair = none := hr.alone
      rw [h4]
      rfl
    simp only [List.map_cons, Work.appendAll, hap, List.foldl_cons]
    refine ih _ (hk.record _) ?_
    show ((logged s w.s _).core s.turn).log.room l.length = true
    rw [logged_log]
    exact h1

/-- A store of a context that runs alone, on a logged page (R153, R351). -/
theorem store_logged {s : State} (hr : Ready s) {ws : List SlotWord} {w : Work}
    (hk : Kept s w.s (now s)) (x : Xl) (hl : leafL x.leaf = true) {data : List Byte} {en : Nat → Bool}
    (add : Option (BitVec 8)) {runs : List (Nat × Nat)} (hruns : maskRuns (fun i => decide (i < data.length) && en i) 16 0 = runs)
    (hroom : (w.s.core s.turn).log.room runs.length = true) :
    w.store (slotEnv s ws) x data en add = .ok { w with s := runs.foldl (fun u r =>
      logged s u (logRec s x (if add.isSome then 1 else 0) r.2 (add.getD 0) r.1 (ofBytes ((data.drop r.1).take (2 ^ r.2))))) w.s } := by
  have h1 : (slotEnv s ws).k.appends = true := by rw [slotEnv_k]; simp [Ctx.appends, hr.alone]
  unfold Work.store
  rw [h1, hruns]
  simp only [Bool.not_true, Bool.false_eq_true, if_false, hl, true_or, if_true]
  exact appendAll_solo hr x _ _ (fun r => ofBytes ((data.drop r.1).take (2 ^ r.2))) runs w hk hroom

/-- The mask of a store that goes on its way. -/
theorem storeMask (n : Nat) (hn : n ≤ 16) (en : Nat → Bool) (j : Nat) (hj : j < 16) :
    bit (BitVec.ofNat 16 ((List.range n).foldl (fun m i => if en i then m + 2 ^ i else m) 0)) j = (decide (j < n) && en j) := by
  obtain ⟨-, h2⟩ := testBit_sum (fun i => decide (i < n) && en i) 16
  have e : (List.range n).foldl (fun m i => if en i then m + 2 ^ i else m) 0
      = (List.range 16).foldl (fun acc j => acc + (if (decide (j < n) && en j) = true then 2 ^ j else 0)) 0 := by
    have h16 : (16 : Nat) = n + (16 - n) := by omega
    have hpos : ∀ (m : Nat) (a : Nat), m ≤ n → (List.range m).foldl (fun m i => if en i then m + 2 ^ i else m) a
        = (List.range m).foldl (fun acc j => acc + (if (decide (j < n) && en j) = true then 2 ^ j else 0)) a := by
      intro m
      induction m with
      | zero => intro a _; rfl
      | succ m ih =>
        intro a hm
        rw [List.range_succ, List.foldl_append, List.foldl_append, ih a (by omega)]
        have : decide (m < n) = true := decide_eq_true hm
        simp only [List.foldl_cons, List.foldl_nil, this, Bool.true_and]
        split <;> rfl
    have hend : ∀ (m : Nat) (a : Nat), (List.range m).foldl (fun acc j => acc + (if (decide (n + j < n) && en (n + j)) = true then 2 ^ (n + j) else 0)) a = a := by
      intro m
      induction m with
      | zero => intro a; rfl
      | succ m ih =>
        intro a
        rw [List.range_succ, List.foldl_append, ih a]
        have : ¬ n + m < n := by omega
        simp [this]
    rw [h16, List.range_add, List.foldl_append, hpos n 0 (Nat.le_refl _), List.foldl_map]
    exact (hend _ _).symm
  rw [bit, BitVec.getLsbD_ofNat, e, h2 j hj]
  simp [hj]

/-- A store that goes on its way (R134). -/
theorem store_sent {s : State} (hr : Ready s) {ws : List SlotWord} {w : Work} (x : Xl) (hl : leafL x.leaf = false)
    (hx : kindOf x.pa = 1 ∨ kindOf x.pa = 2) (data : List Byte) (en : Nat → Bool) (add : Option (BitVec 8)) :
    w.store (slotEnv s ws) x data en add = 
      let mask := BitVec.ofNat 16 ((List.range data.length).foldl (fun m i => if en i then m + 2 ^ i else m) 0)
      .ok (if mask = 0 then w
        else { w with s := flown s w.s (ws.length - 1) (orderUnit x.pa) (.store (nowCtx s) x.pa data mask add) }) := by
  have h1 : (slotEnv s ws).k.appends = true := by rw [slotEnv_k]; simp [Ctx.appends, hr.alone]
  have h2 : (slotEnv s ws).k.pair = none := hr.alone
  unfold Work.store
  rw [h1, h2, hl]
  simp only [Bool.not_true, Bool.false_eq_true, if_false, false_or, Option.isSome_none, if_pos hx]
  rfl

/-- What an add reads of the errors at a run's bytes (R130). -/
def readRun (add : Option (BitVec 8)) (F : Nat × Nat → Nat) (G : Nat × Nat → List Byte) (u : State) (r : Nat × Nat) : State :=
  if add.isSome then u.eccRange (F r) (G r).length else u

/-- Direct stores to slices. -/
theorem directAll_slice {s : State} {ws : List SlotWord} (add : Option (BitVec 8)) (F : Nat × Nat → Nat) (G : Nat × Nat → List Byte) :
    ∀ (runs : List (Nat × Nat)) (w : Work), (∀ r ∈ runs, kindOf (F r) = 0) →
    w.directAll (slotEnv s ws) add (runs.map (fun r => (F r, G r)))
      = .ok { w with s := runs.foldl (fun u r =>
          (readRun add F G u r).wrBytes (F r) ((readRun add F G u r).summed s.turn add (F r) (G r))) w.s } := by
  intro runs
  induction runs with
  | nil => intro w _; rfl
  | cons r l ih =>
    intro w hk
    have h0 : kindOf (F r) = 0 := hk r (by simp)
    have hd : w.direct (slotEnv s ws) (F r) (G r) add = .ok { w with
        s := (readRun add F G w.s r).wrBytes (F r) ((readRun add F G w.s r).summed s.turn add (F r) (G r)) } := by
      unfold Work.direct
      simp only [if_pos h0]
      rfl
    simp only [List.map_cons, Work.directAll, hd, List.foldl_cons]
    exact ih _ (fun r hr => hk r (by simp [hr]))

/-- Direct stores to device control space. -/
theorem directAll_dev {s : State} {ws : List SlotWord} (add : Option (BitVec 8)) (F : Nat × Nat → Nat) (G : Nat × Nat → List Byte) :
    ∀ (runs : List (Nat × Nat)) (w : Work) (u : State), (∀ r ∈ runs, kindOf (F r) ≠ 0) →
    runs.foldlM (fun u r => (readRun add F G u r).devStore (F r % 2 ^ 48) ((readRun add F G u r).summed s.turn add (F r) (G r))) w.s
      = some u →
    w.directAll (slotEnv s ws) add (runs.map (fun r => (F r, G r))) = .ok { w with s := u } := by
  intro runs
  induction runs with
  | nil => intro w u _ h; cases h; rfl
  | cons r l ih =>
    intro w u hk h
    have h0 : kindOf (F r) ≠ 0 := hk r (by simp)
    rw [List.foldlM_cons] at h
    obtain ⟨v, hv, h⟩ := Option.bind_eq_some_iff.mp h
    have hd : w.direct (slotEnv s ws) (F r) (G r) add = .ok { w with s := v } := by
      unfold Work.direct
      simp only [if_neg h0, slotEnv_c, readRun] at hv ⊢
      rw [hv]
    simp only [List.map_cons, Work.directAll, hd]
    exact ih { w with s := v } u (fun r hr => hk r (by simp [hr])) h

/-- A slot that leaves no result. -/
theorem givesTo_none {i : Instr} {s : State} {d : SlotDef} (hx : exec i s = runSlot (encode i) d s) (hr : Ready s)
    (hf : Fit s (encode i) d) {u v : State} {fs : List (Option Nat × Vec)}
    (he : d.run (slotEnv s (encode i)) { s := s } = .ok { s := v, folds := fs })
    (hk : Kept s v (now s)) (hs : d.sync = false ∨ d.both = true) (hu : stamped s v = u) : GivesTo i s .none u :=
  givesTo_run hx hr hf he hs hk rfl rfl rfl rfl hu rfl

end Sys2Proof.Machine
end

