-- ==== Sys2Proof/Laws/Encoding.lean ====
section
/-! SUPPORT. Fields of encoded slot words, and the slot that a decoded word is (R286, R287, R291, R292). -/

namespace Sys2Proof

set_option Elab.async false

open Sys2Proof.Machine

/-! ### Fields of joined bits -/

/-- A field of the high part of joined bits. -/
theorem extract_high {m n : Nat} (a : BitVec m) (b : BitVec n) (lo l : Nat) (h : n ≤ lo) :
    (a ++ b).extractLsb' lo l = a.extractLsb' (lo - n) l := by
  apply BitVec.eq_of_getLsbD_eq
  intro i hi
  simp only [BitVec.getLsbD_extractLsb', BitVec.getLsbD_append, hi, decide_true, Bool.true_and]
  rw [if_neg (by omega)]
  congr 1
  omega

/-- The low part of joined bits. -/
theorem extract_low {m n : Nat} (a : BitVec m) (b : BitVec n) : (a ++ b).extractLsb' 0 n = b := by
  apply BitVec.eq_of_getLsbD_eq
  intro i hi
  simp [BitVec.getLsbD_append, hi]

/-- The low bits of a part that is the lowest. -/
theorem extract_lower {m n : Nat} (a : BitVec m) (b : BitVec n) (lo l : Nat) (h : lo + l ≤ n) :
    (a ++ b).extractLsb' lo l = b.extractLsb' lo l := by
  apply BitVec.eq_of_getLsbD_eq
  intro i hi
  simp only [BitVec.getLsbD_extractLsb', BitVec.getLsbD_append, hi, decide_true, Bool.true_and]
  rw [if_pos (by omega)]

/-- A word is zero under a mask that lies in fields which are zero. -/
theorem and_mask_zero {x m : BitVec 32} (l : List (Nat × Nat))
    (hm : ∀ i, i < 32 → m.getLsbD i = true → ∃ p ∈ l, p.1 ≤ i ∧ i < p.1 + p.2) (h : ∀ p ∈ l, x.extractLsb' p.1 p.2 = 0) :
    x &&& m = 0#32 := by
  apply BitVec.eq_of_getLsbD_eq
  intro i hi
  rw [BitVec.getLsbD_and, BitVec.getLsbD_zero]
  by_cases hb : m.getLsbD i = true
  · obtain ⟨p, hp, h1, h2⟩ := hm i hi hb
    have := congrArg (fun y => y.getLsbD (i - p.1)) (h p hp)
    simp only [BitVec.getLsbD_extractLsb', show i - p.1 < p.2 by omega, decide_true, Bool.true_and,
      show p.1 + (i - p.1) = i by omega] at this
    rw [this]
    simp
  · rw [Bool.not_eq_true] at hb
    rw [hb, Bool.and_false]

/-! ### Fields of the formats -/

@[simp] theorem fMajor_packR (maj : BitVec 7) (d a b : BitVec 6) (f g : BitVec 3) : fMajor (packR maj d a b f g) = maj := by
  unfold fMajor packR
  rw [extract_high (m := 29) (n := 3) (h := by decide), extract_high (m := 26) (n := 3) (h := by decide), extract_high (m := 20) (n := 6) (h := by decide), extract_high (m := 14) (n := 6) (h := by decide), extract_high (m := 8) (n := 6) (h := by decide)]
  exact extract_low _ _

@[simp] theorem fD_packR (maj : BitVec 7) (d a b : BitVec 6) (f g : BitVec 3) : fD (packR maj d a b f g) = d := by
  unfold fD packR
  rw [extract_high (m := 29) (n := 3) (h := by decide), extract_high (m := 26) (n := 3) (h := by decide), extract_high (m := 20) (n := 6) (h := by decide), extract_high (m := 14) (n := 6) (h := by decide)]
  exact extract_low _ _

@[simp] theorem fA_packR (maj : BitVec 7) (d a b : BitVec 6) (f g : BitVec 3) : fA (packR maj d a b f g) = a := by
  unfold fA packR
  rw [extract_high (m := 29) (n := 3) (h := by decide), extract_high (m := 26) (n := 3) (h := by decide), extract_high (m := 20) (n := 6) (h := by decide)]
  exact extract_low _ _

@[simp] theorem fB_packR (maj : BitVec 7) (d a b : BitVec 6) (f g : BitVec 3) : fB (packR maj d a b f g) = b := by
  unfold fB packR
  rw [extract_high (m := 29) (n := 3) (h := by decide), extract_high (m := 26) (n := 3) (h := by decide)]
  exact extract_low _ _

@[simp] theorem fMinor_packR (maj : BitVec 7) (d a b : BitVec 6) (f g : BitVec 3) : fMinor (packR maj d a b f g) = f := by
  unfold fMinor packR
  rw [extract_high (m := 29) (n := 3) (h := by decide)]
  exact extract_low _ _

@[simp] theorem fG_packR (maj : BitVec 7) (d a b : BitVec 6) (f g : BitVec 3) : fG (packR maj d a b f g) = g := by
  unfold fG packR
  exact extract_low _ _

@[simp] theorem fE_packR (maj : BitVec 7) (d a b : BitVec 6) (f g : BitVec 3) : fE (packR maj d a b f g) = true := by
  unfold fE packR
  simp only [BitVec.getLsbD_append]
  rfl

@[simp] theorem fMajor_packI (maj : BitVec 7) (d a : BitVec 6) (i : BitVec 9) (g : BitVec 3) : fMajor (packI maj d a i g) = maj := by
  unfold fMajor packI
  rw [extract_high (m := 29) (n := 3) (h := by decide), extract_high (m := 20) (n := 9) (h := by decide), extract_high (m := 14) (n := 6) (h := by decide), extract_high (m := 8) (n := 6) (h := by decide)]
  exact extract_low _ _

@[simp] theorem fD_packI (maj : BitVec 7) (d a : BitVec 6) (i : BitVec 9) (g : BitVec 3) : fD (packI maj d a i g) = d := by
  unfold fD packI
  rw [extract_high (m := 29) (n := 3) (h := by decide), extract_high (m := 20) (n := 9) (h := by decide), extract_high (m := 14) (n := 6) (h := by decide)]
  exact extract_low _ _

@[simp] theorem fA_packI (maj : BitVec 7) (d a : BitVec 6) (i : BitVec 9) (g : BitVec 3) : fA (packI maj d a i g) = a := by
  unfold fA packI
  rw [extract_high (m := 29) (n := 3) (h := by decide), extract_high (m := 20) (n := 9) (h := by decide)]
  exact extract_low _ _

@[simp] theorem fI9_packI (maj : BitVec 7) (d a : BitVec 6) (i : BitVec 9) (g : BitVec 3) : fI9 (packI maj d a i g) = i := by
  unfold fI9 packI
  rw [extract_high (m := 29) (n := 3) (h := by decide)]
  exact extract_low _ _

@[simp] theorem fG_packI (maj : BitVec 7) (d a : BitVec 6) (i : BitVec 9) (g : BitVec 3) : fG (packI maj d a i g) = g := by
  unfold fG packI
  exact extract_low _ _

@[simp] theorem fE_packI (maj : BitVec 7) (d a : BitVec 6) (i : BitVec 9) (g : BitVec 3) : fE (packI maj d a i g) = true := by
  unfold fE packI
  simp only [BitVec.getLsbD_append]
  rfl

@[simp] theorem fMajor_packL (maj : BitVec 7) (d : BitVec 6) (i : BitVec 18) : fMajor (packL maj d i) = maj := by
  unfold fMajor packL
  rw [extract_high (m := 14) (n := 18) (h := by decide), extract_high (m := 8) (n := 6) (h := by decide)]
  exact extract_low _ _

@[simp] theorem fD_packL (maj : BitVec 7) (d : BitVec 6) (i : BitVec 18) : fD (packL maj d i) = d := by
  unfold fD packL
  rw [extract_high (m := 14) (n := 18) (h := by decide)]
  exact extract_low _ _

@[simp] theorem fI18_packL (maj : BitVec 7) (d : BitVec 6) (i : BitVec 18) : fI18 (packL maj d i) = i := by
  unfold fI18 packL
  exact extract_low _ _

@[simp] theorem fE_packL (maj : BitVec 7) (d : BitVec 6) (i : BitVec 18) : fE (packL maj d i) = true := by
  unfold fE packL
  simp only [BitVec.getLsbD_append]
  rfl

@[simp] theorem fMajor_packB (maj : BitVec 7) (c : BitVec 3) (n : BitVec 1) (o : BitVec 20) : fMajor (packB maj c n o) = maj := by
  unfold fMajor packB
  rw [extract_high (m := 12) (n := 20) (h := by decide), extract_high (m := 11) (n := 1) (h := by decide), extract_high (m := 8) (n := 3) (h := by decide)]
  exact extract_low _ _

@[simp] theorem fC_packB (maj : BitVec 7) (c : BitVec 3) (n : BitVec 1) (o : BitVec 20) : fC (packB maj c n o) = c := by
  unfold fC packB
  rw [extract_high (m := 12) (n := 20) (h := by decide), extract_high (m := 11) (n := 1) (h := by decide)]
  exact extract_low _ _

@[simp] theorem fO20_packB (maj : BitVec 7) (c : BitVec 3) (n : BitVec 1) (o : BitVec 20) : fO20 (packB maj c n o) = o := by
  unfold fO20 packB
  exact extract_low _ _

@[simp] theorem fE_packB (maj : BitVec 7) (c : BitVec 3) (n : BitVec 1) (o : BitVec 20) : fE (packB maj c n o) = true := by
  unfold fE packB
  simp only [BitVec.getLsbD_append]
  rfl

@[simp] theorem fMajor_packX (e : BitVec 1) (i : BitVec 24) : fMajor (packX e i) = 0x7F#7 := by
  unfold fMajor packX
  rw [extract_high (m := 8) (n := 24) (h := by decide)]
  exact extract_low _ _

@[simp] theorem fI24_packX (e : BitVec 1) (i : BitVec 24) : fI24 (packX e i) = i := by
  unfold fI24 packX
  exact extract_low _ _

@[simp] theorem fE_packX (e : BitVec 1) (i : BitVec 24) : fE (packX e i) = e.getLsbD 0 := by
  unfold fE packX
  simp only [BitVec.getLsbD_append]
  rfl

/-- The low five bits of a tile destination (R378). -/
@[simp] theorem fT_packR (maj : BitVec 7) (z : BitVec 1) (t : BitVec 5) (a b : BitVec 6) (f g : BitVec 3) :
    fT (packR maj (z ++ t) a b f g) = t := by
  unfold fT packR
  rw [extract_high (m := 29) (n := 3) (h := by decide), extract_high (m := 26) (n := 3) (h := by decide),
    extract_high (m := 20) (n := 6) (h := by decide), extract_high (m := 14) (n := 6) (h := by decide),
    extract_lower (m := 8) (n := 6) (h := by decide)]
  exact extract_low _ _

/-- The condition bit `n` of a branch (R286). -/
@[simp] theorem getLsbD_packB (maj : BitVec 7) (c : BitVec 3) (n : BitVec 1) (o : BitVec 20) :
    (packB maj c n o).getLsbD 20 = n.getLsbD 0 := by
  unfold packB
  simp only [BitVec.getLsbD_append]
  rfl

/-! ### Decoded words -/

/-- The words of a slot decode as the slot does, after its prefix. -/
theorem decodeWords_slot (p : Option (BitVec 24)) {w : SlotWord} (h : fMajor w ≠ 0x7F#7) :
    decodeWords (encodePrefix p ++ [w]) = decodeSlot p w := by
  cases p with
  | none => rfl
  | some m =>
    show (if fMajor (packX 0#1 m) = 0x7F#7 ∧ fMajor w ≠ 0x7F#7 then decodeSlot (some (fI24 (packX 0#1 m))) w else _) = _
    rw [fMajor_packX, fI24_packX, if_pos ⟨rfl, h⟩]

/-- The step's slot of a word that decodes to an instruction is that instruction's slot. -/
theorem slotOfWord_of_decode {p : Option (BitVec 24)} {w : SlotWord} {i : Instr} (h : decodeSlot p w = .ok i) :
    slotOfWord p w = slotOf i := by
  unfold decodeSlot at h
  unfold slotOfWord
  split at h
  · next hw =>
    try rw [hw]
    simp only [slotOf6E, decode6E] at h ⊢
    repeat' split at h
    all_goals first | (cases h; simp_all [slotOf]; done) | (simp_all [slotOf]; done) | (cases h; rfl)
  · next hw =>
    try rw [hw]
    simp only [slotOf70, decode70] at h ⊢
    repeat' split at h
    all_goals first | (cases h; simp_all [slotOf]; done) | (simp_all [slotOf]; done) | (cases h; rfl)
  · next hw =>
    try rw [hw]
    simp only [slotOf71, decode71] at h ⊢
    repeat' split at h
    all_goals first | (cases h; simp_all [slotOf]; done) | (simp_all [slotOf]; done) | (cases h; rfl)
  · next hw =>
    try rw [hw]
    simp only [slotOf72, decode72] at h ⊢
    repeat' split at h
    all_goals first | (cases h; simp_all [slotOf]; done) | (simp_all [slotOf]; done) | (cases h; rfl)
  · next hw =>
    try rw [hw]
    simp only [slotOf73, decode73] at h ⊢
    repeat' split at h
    all_goals first | (cases h; simp_all [slotOf]; done) | (simp_all [slotOf]; done) | (cases h; rfl)
  · next hw =>
    try rw [hw]
    simp only [slotOf74, decode74] at h ⊢
    repeat' split at h
    all_goals first | (cases h; simp_all [slotOf]; done) | (simp_all [slotOf]; done) | (cases h; rfl)
  · next hw =>
    try rw [hw]
    simp only [slotOf75, decode75] at h ⊢
    repeat' split at h
    all_goals first | (cases h; simp_all [slotOf]; done) | (simp_all [slotOf]; done) | (cases h; rfl)
  · next hw =>
    try rw [hw]
    simp only [slotOf76, decode76] at h ⊢
    repeat' split at h
    all_goals first | (cases h; simp_all [slotOf]; done) | (simp_all [slotOf]; done) | (cases h; rfl)
  · next hw =>
    try rw [hw]
    simp only [slotOf77, decode77] at h ⊢
    repeat' split at h
    all_goals first | (cases h; simp_all [slotOf]; done) | (simp_all [slotOf]; done) | (cases h; rfl)
  · next hw =>
    try rw [hw]
    simp only [slotOf78, decode78] at h ⊢
    repeat' split at h
    all_goals first | (cases h; simp_all [slotOf]; done) | (simp_all [slotOf]; done) | (cases h; rfl)
  · next hw =>
    try rw [hw]
    simp only [slotOf79, decode79] at h ⊢
    repeat' split at h
    all_goals first | (cases h; simp_all [slotOf]; done) | (simp_all [slotOf]; done) | (cases h; rfl)
  · next hw =>
    try rw [hw]
    simp only [slotOf7A, decode7A] at h ⊢
    repeat' split at h
    all_goals first | (cases h; simp_all [slotOf]; done) | (simp_all [slotOf]; done) | (cases h; rfl)
  · next hw =>
    try rw [hw]
    simp only [slotOf7B, decode7B] at h ⊢
    repeat' split at h
    all_goals first | (cases h; simp_all [slotOf]; done) | (simp_all [slotOf]; done) | (cases h; rfl)
  · next hw =>
    try rw [hw]
    simp only [slotOf7C, decode7C] at h ⊢
    repeat' split at h
    all_goals first | (cases h; simp_all [slotOf]; done) | (simp_all [slotOf]; done) | (cases h; rfl)
  · next hw =>
    cases h
    try rw [hw]
    rfl
  · next h1 h2 h3 h4 h5 h6 h7 h8 h9 h10 h11 h12 h13 h14 h15 =>
    split <;> first | contradiction | simp_all

end Sys2Proof
end

