-- ==== Sys2Proof/Laws/PerInstr.lean ====
section
/-! SUPPORT. One statement for every instruction: the words of a slot alone in its bundle are an X prefix or none and one word with `E`
set, and an event has no words (R279, R286, R291). -/

namespace Sys2Proof.Laws.Framed

set_option Elab.async false

open Sys2Proof Sys2Proof.Machine

/-- The words of an instruction end with the bundle's last word, behind at most an X prefix. -/
def Statement (i : Instr) : Prop := encode i = [] ∨ ∃ p w, encode i = encodePrefix p ++ [w] ∧ fE w = true

theorem add (o : OpDab) : Statement (.add o) := .inr ⟨_, _, rfl, fE_packR ..⟩
theorem sub (o : OpDab) : Statement (.sub o) := .inr ⟨_, _, rfl, fE_packR ..⟩
theorem and (o : OpDab) : Statement (.and o) := .inr ⟨_, _, rfl, fE_packR ..⟩
theorem or (o : OpDab) : Statement (.or o) := .inr ⟨_, _, rfl, fE_packR ..⟩
theorem xor (o : OpDab) : Statement (.xor o) := .inr ⟨_, _, rfl, fE_packR ..⟩
theorem andn (o : OpDab) : Statement (.andn o) := .inr ⟨_, _, rfl, fE_packR ..⟩
theorem sll (o : OpDab) : Statement (.sll o) := .inr ⟨_, _, rfl, fE_packR ..⟩
theorem srl (o : OpDab) : Statement (.srl o) := .inr ⟨_, _, rfl, fE_packR ..⟩
theorem sra (o : OpDab) : Statement (.sra o) := .inr ⟨_, _, rfl, fE_packR ..⟩
theorem mul (o : OpDab) : Statement (.mul o) := .inr ⟨_, _, rfl, fE_packR ..⟩
theorem mulh (o : OpDab) : Statement (.mulh o) := .inr ⟨_, _, rfl, fE_packR ..⟩
theorem mulhu (o : OpDab) : Statement (.mulhu o) := .inr ⟨_, _, rfl, fE_packR ..⟩
theorem div (o : OpDab) : Statement (.div o) := .inr ⟨_, _, rfl, fE_packR ..⟩
theorem divu (o : OpDab) : Statement (.divu o) := .inr ⟨_, _, rfl, fE_packR ..⟩
theorem rem (o : OpDab) : Statement (.rem o) := .inr ⟨_, _, rfl, fE_packR ..⟩
theorem remu (o : OpDab) : Statement (.remu o) := .inr ⟨_, _, rfl, fE_packR ..⟩
theorem min (o : OpDab) : Statement (.min o) := .inr ⟨_, _, rfl, fE_packR ..⟩
theorem max (o : OpDab) : Statement (.max o) := .inr ⟨_, _, rfl, fE_packR ..⟩
theorem minu (o : OpDab) : Statement (.minu o) := .inr ⟨_, _, rfl, fE_packR ..⟩
theorem maxu (o : OpDab) : Statement (.maxu o) := .inr ⟨_, _, rfl, fE_packR ..⟩
theorem clz (o : OpDa) : Statement (.clz o) := .inr ⟨_, _, rfl, fE_packR ..⟩
theorem ctz (o : OpDa) : Statement (.ctz o) := .inr ⟨_, _, rfl, fE_packR ..⟩
theorem popc (o : OpDa) : Statement (.popc o) := .inr ⟨_, _, rfl, fE_packR ..⟩
theorem bext (o : OpDab) : Statement (.bext o) := .inr ⟨_, _, rfl, fE_packR ..⟩
theorem bextu (o : OpDab) : Statement (.bextu o) := .inr ⟨_, _, rfl, fE_packR ..⟩
theorem bins (o : OpDab) : Statement (.bins o) := .inr ⟨_, _, rfl, fE_packR ..⟩
theorem cmpeq (o : OpDab) : Statement (.cmpeq o) := .inr ⟨_, _, rfl, fE_packR ..⟩
theorem cmpne (o : OpDab) : Statement (.cmpne o) := .inr ⟨_, _, rfl, fE_packR ..⟩
theorem cmplt (o : OpDab) : Statement (.cmplt o) := .inr ⟨_, _, rfl, fE_packR ..⟩
theorem cmpge (o : OpDab) : Statement (.cmpge o) := .inr ⟨_, _, rfl, fE_packR ..⟩
theorem cmpltu (o : OpDab) : Statement (.cmpltu o) := .inr ⟨_, _, rfl, fE_packR ..⟩
theorem cmpgeu (o : OpDab) : Statement (.cmpgeu o) := .inr ⟨_, _, rfl, fE_packR ..⟩
theorem pand (o : OpDab) : Statement (.pand o) := .inr ⟨_, _, rfl, fE_packR ..⟩
theorem por (o : OpDab) : Statement (.por o) := .inr ⟨_, _, rfl, fE_packR ..⟩
theorem pxor (o : OpDab) : Statement (.pxor o) := .inr ⟨_, _, rfl, fE_packR ..⟩
theorem pandn (o : OpDab) : Statement (.pandn o) := .inr ⟨_, _, rfl, fE_packR ..⟩
theorem faddF32 (o : OpDab) : Statement (.faddF32 o) := .inr ⟨_, _, rfl, fE_packR ..⟩
theorem fsubF32 (o : OpDab) : Statement (.fsubF32 o) := .inr ⟨_, _, rfl, fE_packR ..⟩
theorem fmulF32 (o : OpDab) : Statement (.fmulF32 o) := .inr ⟨_, _, rfl, fE_packR ..⟩
theorem fdivF32 (o : OpDab) : Statement (.fdivF32 o) := .inr ⟨_, _, rfl, fE_packR ..⟩
theorem fminF32 (o : OpDab) : Statement (.fminF32 o) := .inr ⟨_, _, rfl, fE_packR ..⟩
theorem fmaxF32 (o : OpDab) : Statement (.fmaxF32 o) := .inr ⟨_, _, rfl, fE_packR ..⟩
theorem fsqrtF32 (o : OpDa) : Statement (.fsqrtF32 o) := .inr ⟨_, _, rfl, fE_packR ..⟩
theorem fcmpeqF32 (o : OpDab) : Statement (.fcmpeqF32 o) := .inr ⟨_, _, rfl, fE_packR ..⟩
theorem fcmpltF32 (o : OpDab) : Statement (.fcmpltF32 o) := .inr ⟨_, _, rfl, fE_packR ..⟩
theorem fcmpleF32 (o : OpDab) : Statement (.fcmpleF32 o) := .inr ⟨_, _, rfl, fE_packR ..⟩
theorem fcmpunF32 (o : OpDab) : Statement (.fcmpunF32 o) := .inr ⟨_, _, rfl, fE_packR ..⟩
theorem fmaddF32 (o : OpDab) : Statement (.fmaddF32 o) := .inr ⟨_, _, rfl, fE_packR ..⟩
theorem fmsubF32 (o : OpDab) : Statement (.fmsubF32 o) := .inr ⟨_, _, rfl, fE_packR ..⟩
theorem fnmaddF32 (o : OpDab) : Statement (.fnmaddF32 o) := .inr ⟨_, _, rfl, fE_packR ..⟩
theorem fnmsubF32 (o : OpDab) : Statement (.fnmsubF32 o) := .inr ⟨_, _, rfl, fE_packR ..⟩
theorem fcvtF32I64 (o : OpDa) : Statement (.fcvtF32I64 o) := .inr ⟨_, _, rfl, fE_packR ..⟩
theorem fcvtF32U64 (o : OpDa) : Statement (.fcvtF32U64 o) := .inr ⟨_, _, rfl, fE_packR ..⟩
theorem fcvtI64F32 (o : OpDa) : Statement (.fcvtI64F32 o) := .inr ⟨_, _, rfl, fE_packR ..⟩
theorem fcvtU64F32 (o : OpDa) : Statement (.fcvtU64F32 o) := .inr ⟨_, _, rfl, fE_packR ..⟩
theorem fcvtBf16F32 (o : OpDa) : Statement (.fcvtBf16F32 o) := .inr ⟨_, _, rfl, fE_packR ..⟩
theorem fcvtF32Bf16 (o : OpDa) : Statement (.fcvtF32Bf16 o) := .inr ⟨_, _, rfl, fE_packR ..⟩
theorem fcvtF16F32 (o : OpDa) : Statement (.fcvtF16F32 o) := .inr ⟨_, _, rfl, fE_packR ..⟩
theorem fcvtF32F16 (o : OpDa) : Statement (.fcvtF32F16 o) := .inr ⟨_, _, rfl, fE_packR ..⟩
theorem addi (o : OpDai) : Statement (.addi o) := .inr ⟨_, _, rfl, fE_packI ..⟩
theorem andi (o : OpDai) : Statement (.andi o) := .inr ⟨_, _, rfl, fE_packI ..⟩
theorem ori (o : OpDai) : Statement (.ori o) := .inr ⟨_, _, rfl, fE_packI ..⟩
theorem xori (o : OpDai) : Statement (.xori o) := .inr ⟨_, _, rfl, fE_packI ..⟩
theorem slli (o : OpDai) : Statement (.slli o) := .inr ⟨_, _, rfl, fE_packI ..⟩
theorem srli (o : OpDai) : Statement (.srli o) := .inr ⟨_, _, rfl, fE_packI ..⟩
theorem srai (o : OpDai) : Statement (.srai o) := .inr ⟨_, _, rfl, fE_packI ..⟩
theorem cmpeqi (o : OpDai) : Statement (.cmpeqi o) := .inr ⟨_, _, rfl, fE_packI ..⟩
theorem cmplti (o : OpDai) : Statement (.cmplti o) := .inr ⟨_, _, rfl, fE_packI ..⟩
theorem cmpltui (o : OpDai) : Statement (.cmpltui o) := .inr ⟨_, _, rfl, fE_packI ..⟩
theorem li (o : OpL) : Statement (.li o) := .inr ⟨_, _, rfl, fE_packL ..⟩
theorem adr (o : OpL) : Statement (.adr o) := .inr ⟨_, _, rfl, fE_packL ..⟩
theorem loop (o : OpL) : Statement (.loop o) := .inr ⟨_, _, rfl, fE_packL ..⟩
theorem br (o : OpB) : Statement (.br o) := .inr ⟨_, _, rfl, fE_packB ..⟩
theorem brn (o : OpB) : Statement (.brn o) := .inr ⟨_, _, rfl, fE_packB ..⟩
theorem call (o : OpB) : Statement (.call o) := .inr ⟨_, _, rfl, fE_packB ..⟩
theorem calln (o : OpB) : Statement (.calln o) := .inr ⟨_, _, rfl, fE_packB ..⟩
theorem jr (o : OpA) : Statement (.jr o) := .inr ⟨_, _, rfl, fE_packR ..⟩
theorem callr (o : OpA) : Statement (.callr o) := .inr ⟨_, _, rfl, fE_packR ..⟩
theorem crr (o : OpDi) : Statement (.crr o) := .inr ⟨_, _, rfl, fE_packI ..⟩
theorem crw (o : OpAi) : Statement (.crw o) := .inr ⟨_, _, rfl, fE_packI ..⟩
theorem yield (o : Op0) : Statement (.yield o) := .inr ⟨_, _, rfl, fE_packR ..⟩
theorem waitw (o : Op0) : Statement (.waitw o) := .inr ⟨_, _, rfl, fE_packR ..⟩
theorem migr (o : OpA) : Statement (.migr o) := .inr ⟨_, _, rfl, fE_packR ..⟩
theorem realign (o : OpI) : Statement (.realign o) := .inr ⟨_, _, rfl, fE_packI ..⟩
theorem brk (o : OpI) : Statement (.brk o) := .inr ⟨_, _, rfl, fE_packI ..⟩
theorem sys (o : OpI) : Statement (.sys o) := .inr ⟨_, _, rfl, fE_packI ..⟩
theorem tret (o : Op0) : Statement (.tret o) := .inr ⟨_, _, rfl, fE_packR ..⟩
theorem uiret (o : Op0) : Statement (.uiret o) := .inr ⟨_, _, rfl, fE_packR ..⟩
theorem start (o : OpA) : Statement (.start o) := .inr ⟨_, _, rfl, fE_packR ..⟩
theorem reap (o : OpA) : Statement (.reap o) := .inr ⟨_, _, rfl, fE_packR ..⟩
theorem pairon (o : Op0) : Statement (.pairon o) := .inr ⟨_, _, rfl, fE_packR ..⟩
theorem pairoff (o : Op0) : Statement (.pairoff o) := .inr ⟨_, _, rfl, fE_packR ..⟩
theorem placept (o : Op0) : Statement (.placept o) := .inr ⟨_, _, rfl, fE_packR ..⟩
theorem ldtab (o : OpAT2) : Statement (.ldtab o) := .inr ⟨_, _, rfl, fE_packR ..⟩
theorem ldcurve (o : OpAT2) : Statement (.ldcurve o) := .inr ⟨_, _, rfl, fE_packR ..⟩
theorem iinv (o : OpA) : Statement (.iinv o) := .inr ⟨_, _, rfl, fE_packR ..⟩
theorem iinva (o : Op0) : Statement (.iinva o) := .inr ⟨_, _, rfl, fE_packR ..⟩
theorem chinst (o : OpDab) : Statement (.chinst o) := .inr ⟨_, _, rfl, fE_packR ..⟩
theorem rgcmd (o : OpDa) : Statement (.rgcmd o) := .inr ⟨_, _, rfl, fE_packR ..⟩
theorem xinvl (o : OpA) : Statement (.xinvl o) := .inr ⟨_, _, rfl, fE_packR ..⟩
theorem xinvc (o : OpA) : Statement (.xinvc o) := .inr ⟨_, _, rfl, fE_packR ..⟩
theorem xinva (o : OpA) : Statement (.xinva o) := .inr ⟨_, _, rfl, fE_packR ..⟩
theorem xinvt (o : Op0) : Statement (.xinvt o) := .inr ⟨_, _, rfl, fE_packR ..⟩
theorem xsync (o : Op0) : Statement (.xsync o) := .inr ⟨_, _, rfl, fE_packR ..⟩
theorem vadd (o : OpDabT3) : Statement (.vadd o) := .inr ⟨_, _, rfl, fE_packR ..⟩
theorem vsub (o : OpDabT3) : Statement (.vsub o) := .inr ⟨_, _, rfl, fE_packR ..⟩
theorem vmul (o : OpDabT3) : Statement (.vmul o) := .inr ⟨_, _, rfl, fE_packR ..⟩
theorem vmla (o : OpDabT2) : Statement (.vmla o) := .inr ⟨_, _, rfl, fE_packR ..⟩
theorem vfma (o : OpDabT2) : Statement (.vfma o) := .inr ⟨_, _, rfl, fE_packR ..⟩
theorem vdiv (o : OpDabT2) : Statement (.vdiv o) := .inr ⟨_, _, rfl, fE_packR ..⟩
theorem vsqrt (o : OpDaT2) : Statement (.vsqrt o) := .inr ⟨_, _, rfl, fE_packR ..⟩
theorem vmin (o : OpDabT3) : Statement (.vmin o) := .inr ⟨_, _, rfl, fE_packR ..⟩
theorem vmax (o : OpDabT3) : Statement (.vmax o) := .inr ⟨_, _, rfl, fE_packR ..⟩
theorem vminu (o : OpDabT2) : Statement (.vminu o) := .inr ⟨_, _, rfl, fE_packR ..⟩
theorem vmaxu (o : OpDabT2) : Statement (.vmaxu o) := .inr ⟨_, _, rfl, fE_packR ..⟩
theorem vadds (o : OpDabT3) : Statement (.vadds o) := .inr ⟨_, _, rfl, fE_packR ..⟩
theorem vsubs (o : OpDabT3) : Statement (.vsubs o) := .inr ⟨_, _, rfl, fE_packR ..⟩
theorem vand (o : OpDab) : Statement (.vand o) := .inr ⟨_, _, rfl, fE_packR ..⟩
theorem vor (o : OpDab) : Statement (.vor o) := .inr ⟨_, _, rfl, fE_packR ..⟩
theorem vxor (o : OpDab) : Statement (.vxor o) := .inr ⟨_, _, rfl, fE_packR ..⟩
theorem vandn (o : OpDab) : Statement (.vandn o) := .inr ⟨_, _, rfl, fE_packR ..⟩
theorem vsel (o : OpDab) : Statement (.vsel o) := .inr ⟨_, _, rfl, fE_packR ..⟩
theorem vsll (o : OpDabT2) : Statement (.vsll o) := .inr ⟨_, _, rfl, fE_packR ..⟩
theorem vsrl (o : OpDabT2) : Statement (.vsrl o) := .inr ⟨_, _, rfl, fE_packR ..⟩
theorem vsra (o : OpDabT2) : Statement (.vsra o) := .inr ⟨_, _, rfl, fE_packR ..⟩
theorem vcmpeq (o : OpDabT3) : Statement (.vcmpeq o) := .inr ⟨_, _, rfl, fE_packR ..⟩
theorem vcmplt (o : OpDabT3) : Statement (.vcmplt o) := .inr ⟨_, _, rfl, fE_packR ..⟩
theorem vcmpltu (o : OpDabT2) : Statement (.vcmpltu o) := .inr ⟨_, _, rfl, fE_packR ..⟩
theorem vcmple (o : OpDabT2) : Statement (.vcmple o) := .inr ⟨_, _, rfl, fE_packR ..⟩
theorem mand (o : OpDab) : Statement (.mand o) := .inr ⟨_, _, rfl, fE_packR ..⟩
theorem mor (o : OpDab) : Statement (.mor o) := .inr ⟨_, _, rfl, fE_packR ..⟩
theorem mxor (o : OpDab) : Statement (.mxor o) := .inr ⟨_, _, rfl, fE_packR ..⟩
theorem mandn (o : OpDab) : Statement (.mandn o) := .inr ⟨_, _, rfl, fE_packR ..⟩
theorem mset (o : OpDa) : Statement (.mset o) := .inr ⟨_, _, rfl, fE_packR ..⟩
theorem vshuf (o : OpDab) : Statement (.vshuf o) := .inr ⟨_, _, rfl, fE_packR ..⟩
theorem vzipl (o : OpDab) : Statement (.vzipl o) := .inr ⟨_, _, rfl, fE_packR ..⟩
theorem vziph (o : OpDab) : Statement (.vziph o) := .inr ⟨_, _, rfl, fE_packR ..⟩
theorem vuzpe (o : OpDab) : Statement (.vuzpe o) := .inr ⟨_, _, rfl, fE_packR ..⟩
theorem vuzpo (o : OpDab) : Statement (.vuzpo o) := .inr ⟨_, _, rfl, fE_packR ..⟩
theorem vsplat (o : OpDaT2) : Statement (.vsplat o) := .inr ⟨_, _, rfl, fE_packR ..⟩
theorem vget (o : OpDai) : Statement (.vget o) := .inr ⟨_, _, rfl, fE_packI ..⟩
theorem vput (o : OpDai) : Statement (.vput o) := .inr ⟨_, _, rfl, fE_packI ..⟩
theorem vcvtBf16F32 (o : OpDab) : Statement (.vcvtBf16F32 o) := .inr ⟨_, _, rfl, fE_packR ..⟩
theorem vcvtF32Bf16 (o : OpDab) : Statement (.vcvtF32Bf16 o) := .inr ⟨_, _, rfl, fE_packR ..⟩
theorem vcvtF16F32 (o : OpDab) : Statement (.vcvtF16F32 o) := .inr ⟨_, _, rfl, fE_packR ..⟩
theorem vcvtF32F16 (o : OpDab) : Statement (.vcvtF32F16 o) := .inr ⟨_, _, rfl, fE_packR ..⟩
theorem vcvtI32F32 (o : OpDa) : Statement (.vcvtI32F32 o) := .inr ⟨_, _, rfl, fE_packR ..⟩
theorem vcvtF32I32 (o : OpDa) : Statement (.vcvtF32I32 o) := .inr ⟨_, _, rfl, fE_packR ..⟩
theorem vcvtF64F32 (o : OpDab) : Statement (.vcvtF64F32 o) := .inr ⟨_, _, rfl, fE_packR ..⟩
theorem vcvtF32F64 (o : OpDab) : Statement (.vcvtF32F64 o) := .inr ⟨_, _, rfl, fE_packR ..⟩
theorem vcvtE4m3F32 (o : OpDab) : Statement (.vcvtE4m3F32 o) := .inr ⟨_, _, rfl, fE_packR ..⟩
theorem vcvtsE4m3F32 (o : OpDab) : Statement (.vcvtsE4m3F32 o) := .inr ⟨_, _, rfl, fE_packR ..⟩
theorem vcvtE5m2F32 (o : OpDab) : Statement (.vcvtE5m2F32 o) := .inr ⟨_, _, rfl, fE_packR ..⟩
theorem vcvtE2m1F32 (o : OpDab) : Statement (.vcvtE2m1F32 o) := .inr ⟨_, _, rfl, fE_packR ..⟩
theorem vcvtF32E4m3 (o : OpDab) : Statement (.vcvtF32E4m3 o) := .inr ⟨_, _, rfl, fE_packR ..⟩
theorem vcvtF32E5m2 (o : OpDab) : Statement (.vcvtF32E5m2 o) := .inr ⟨_, _, rfl, fE_packR ..⟩
theorem vcvtF32E2m1 (o : OpDab) : Statement (.vcvtF32E2m1 o) := .inr ⟨_, _, rfl, fE_packR ..⟩
theorem vdec (o : OpDabT2) : Statement (.vdec o) := .inr ⟨_, _, rfl, fE_packR ..⟩
theorem vquant (o : OpDabT2) : Statement (.vquant o) := .inr ⟨_, _, rfl, fE_packR ..⟩
theorem vbsc (o : OpDab) : Statement (.vbsc o) := .inr ⟨_, _, rfl, fE_packR ..⟩
theorem vdotE2m1 (o : OpDab) : Statement (.vdotE2m1 o) := .inr ⟨_, _, rfl, fE_packR ..⟩
theorem vdotE4m3 (o : OpDab) : Statement (.vdotE4m3 o) := .inr ⟨_, _, rfl, fE_packR ..⟩
theorem vdotE5m2 (o : OpDab) : Statement (.vdotE5m2 o) := .inr ⟨_, _, rfl, fE_packR ..⟩
theorem vdotI8 (o : OpDab) : Statement (.vdotI8 o) := .inr ⟨_, _, rfl, fE_packR ..⟩
theorem vdotBf16 (o : OpDab) : Statement (.vdotBf16 o) := .inr ⟨_, _, rfl, fE_packR ..⟩
theorem vdotF16 (o : OpDab) : Statement (.vdotF16 o) := .inr ⟨_, _, rfl, fE_packR ..⟩
theorem vdotb (o : OpDab) : Statement (.vdotb o) := .inr ⟨_, _, rfl, fE_packR ..⟩
theorem vhsumF32 (o : OpDa) : Statement (.vhsumF32 o) := .inr ⟨_, _, rfl, fE_packR ..⟩
theorem vhminF32 (o : OpDa) : Statement (.vhminF32 o) := .inr ⟨_, _, rfl, fE_packR ..⟩
theorem vhmaxF32 (o : OpDa) : Statement (.vhmaxF32 o) := .inr ⟨_, _, rfl, fE_packR ..⟩
theorem vhamaxF32 (o : OpDa) : Statement (.vhamaxF32 o) := .inr ⟨_, _, rfl, fE_packR ..⟩
theorem vhsumI32 (o : OpDa) : Statement (.vhsumI32 o) := .inr ⟨_, _, rfl, fE_packR ..⟩
theorem vhsumF16 (o : OpDa) : Statement (.vhsumF16 o) := .inr ⟨_, _, rfl, fE_packR ..⟩
theorem vhsumBf16 (o : OpDa) : Statement (.vhsumBf16 o) := .inr ⟨_, _, rfl, fE_packR ..⟩
theorem vhsumF64 (o : OpDa) : Statement (.vhsumF64 o) := .inr ⟨_, _, rfl, fE_packR ..⟩
theorem vtopkF32 (o : OpDab) : Statement (.vtopkF32 o) := .inr ⟨_, _, rfl, fE_packR ..⟩
theorem vtopkBf16 (o : OpDab) : Statement (.vtopkBf16 o) := .inr ⟨_, _, rfl, fE_packR ..⟩
theorem vamaxF32 (o : OpDab) : Statement (.vamaxF32 o) := .inr ⟨_, _, rfl, fE_packR ..⟩
theorem vamaxBf16 (o : OpDab) : Statement (.vamaxBf16 o) := .inr ⟨_, _, rfl, fE_packR ..⟩
theorem vamaxF16 (o : OpDab) : Statement (.vamaxF16 o) := .inr ⟨_, _, rfl, fE_packR ..⟩
theorem vcurve (o : OpDaT2) : Statement (.vcurve o) := .inr ⟨_, _, rfl, fE_packR ..⟩
theorem vabsF32 (o : OpDa) : Statement (.vabsF32 o) := .inr ⟨_, _, rfl, fE_packR ..⟩
theorem vnegF32 (o : OpDa) : Statement (.vnegF32 o) := .inr ⟨_, _, rfl, fE_packR ..⟩
theorem vabsI32 (o : OpDa) : Statement (.vabsI32 o) := .inr ⟨_, _, rfl, fE_packR ..⟩
theorem vnegI32 (o : OpDa) : Statement (.vnegI32 o) := .inr ⟨_, _, rfl, fE_packR ..⟩
theorem vabsF16 (o : OpDa) : Statement (.vabsF16 o) := .inr ⟨_, _, rfl, fE_packR ..⟩
theorem vnegF16 (o : OpDa) : Statement (.vnegF16 o) := .inr ⟨_, _, rfl, fE_packR ..⟩
theorem vabsF64 (o : OpDa) : Statement (.vabsF64 o) := .inr ⟨_, _, rfl, fE_packR ..⟩
theorem vnegF64 (o : OpDa) : Statement (.vnegF64 o) := .inr ⟨_, _, rfl, fE_packR ..⟩
theorem ldU8R (o : OpDab) : Statement (.ldU8R o) := .inr ⟨_, _, rfl, fE_packR ..⟩
theorem ldI8R (o : OpDab) : Statement (.ldI8R o) := .inr ⟨_, _, rfl, fE_packR ..⟩
theorem ldU16R (o : OpDab) : Statement (.ldU16R o) := .inr ⟨_, _, rfl, fE_packR ..⟩
theorem ldI16R (o : OpDab) : Statement (.ldI16R o) := .inr ⟨_, _, rfl, fE_packR ..⟩
theorem ldU32R (o : OpDab) : Statement (.ldU32R o) := .inr ⟨_, _, rfl, fE_packR ..⟩
theorem ldI32R (o : OpDab) : Statement (.ldI32R o) := .inr ⟨_, _, rfl, fE_packR ..⟩
theorem ldU64R (o : OpDab) : Statement (.ldU64R o) := .inr ⟨_, _, rfl, fE_packR ..⟩
theorem vldR (o : OpDab) : Statement (.vldR o) := .inr ⟨_, _, rfl, fE_packR ..⟩
theorem stU8R (o : OpDab) : Statement (.stU8R o) := .inr ⟨_, _, rfl, fE_packR ..⟩
theorem stU16R (o : OpDab) : Statement (.stU16R o) := .inr ⟨_, _, rfl, fE_packR ..⟩
theorem stU32R (o : OpDab) : Statement (.stU32R o) := .inr ⟨_, _, rfl, fE_packR ..⟩
theorem stU64R (o : OpDab) : Statement (.stU64R o) := .inr ⟨_, _, rfl, fE_packR ..⟩
theorem vstR (o : OpDab) : Statement (.vstR o) := .inr ⟨_, _, rfl, fE_packR ..⟩
theorem ldU8I (o : OpDai) : Statement (.ldU8I o) := .inr ⟨_, _, rfl, fE_packI ..⟩
theorem ldI8I (o : OpDai) : Statement (.ldI8I o) := .inr ⟨_, _, rfl, fE_packI ..⟩
theorem ldU16I (o : OpDai) : Statement (.ldU16I o) := .inr ⟨_, _, rfl, fE_packI ..⟩
theorem ldI16I (o : OpDai) : Statement (.ldI16I o) := .inr ⟨_, _, rfl, fE_packI ..⟩
theorem ldU32I (o : OpDai) : Statement (.ldU32I o) := .inr ⟨_, _, rfl, fE_packI ..⟩
theorem ldI32I (o : OpDai) : Statement (.ldI32I o) := .inr ⟨_, _, rfl, fE_packI ..⟩
theorem ldU64I (o : OpDai) : Statement (.ldU64I o) := .inr ⟨_, _, rfl, fE_packI ..⟩
theorem vldI (o : OpDai) : Statement (.vldI o) := .inr ⟨_, _, rfl, fE_packI ..⟩
theorem stU8I (o : OpDai) : Statement (.stU8I o) := .inr ⟨_, _, rfl, fE_packI ..⟩
theorem stU16I (o : OpDai) : Statement (.stU16I o) := .inr ⟨_, _, rfl, fE_packI ..⟩
theorem stU32I (o : OpDai) : Statement (.stU32I o) := .inr ⟨_, _, rfl, fE_packI ..⟩
theorem stU64I (o : OpDai) : Statement (.stU64I o) := .inr ⟨_, _, rfl, fE_packI ..⟩
theorem vstI (o : OpDai) : Statement (.vstI o) := .inr ⟨_, _, rfl, fE_packI ..⟩
theorem rel (o : OpD) : Statement (.rel o) := .inr ⟨_, _, rfl, fE_packR ..⟩
theorem acq (o : OpA) : Statement (.acq o) := .inr ⟨_, _, rfl, fE_packR ..⟩
theorem acqall (o : Op0) : Statement (.acqall o) := .inr ⟨_, _, rfl, fE_packR ..⟩
theorem lmark (o : OpD) : Statement (.lmark o) := .inr ⟨_, _, rfl, fE_packR ..⟩
theorem ldrop (o : OpA) : Statement (.ldrop o) := .inr ⟨_, _, rfl, fE_packR ..⟩
theorem fence (o : Op0) : Statement (.fence o) := .inr ⟨_, _, rfl, fE_packR ..⟩
theorem drain (o : Op0) : Statement (.drain o) := .inr ⟨_, _, rfl, fE_packR ..⟩
theorem pref (o : OpAb) : Statement (.pref o) := .inr ⟨_, _, rfl, fE_packR ..⟩
theorem radd (o : OpDabT3) : Statement (.radd o) := .inr ⟨_, _, rfl, fE_packR ..⟩
theorem vradd (o : OpDabT3) : Statement (.vradd o) := .inr ⟨_, _, rfl, fE_packR ..⟩
theorem ldpt (o : OpDabN2) : Statement (.ldpt o) := .inr ⟨_, _, rfl, fE_packR ..⟩
theorem ldpn (o : OpDabN2) : Statement (.ldpn o) := .inr ⟨_, _, rfl, fE_packR ..⟩
theorem pupd (o : OpDab) : Statement (.pupd o) := .inr ⟨_, _, rfl, fE_packR ..⟩
theorem padam (o : OpDab) : Statement (.padam o) := .inr ⟨_, _, rfl, fE_packR ..⟩
theorem stq (o : OpDab) : Statement (.stq o) := .inr ⟨_, _, rfl, fE_packR ..⟩
theorem scommit (o : OpA) : Statement (.scommit o) := .inr ⟨_, _, rfl, fE_packR ..⟩
theorem scalc (o : OpDa) : Statement (.scalc o) := .inr ⟨_, _, rfl, fE_packR ..⟩
theorem rpush (o : OpDa) : Statement (.rpush o) := .inr ⟨_, _, rfl, fE_packR ..⟩
theorem rpop (o : OpA) : Statement (.rpop o) := .inr ⟨_, _, rfl, fE_packR ..⟩
theorem sbind (o : OpDa) : Statement (.sbind o) := .inr ⟨_, _, rfl, fE_packR ..⟩
theorem sfree (o : OpD) : Statement (.sfree o) := .inr ⟨_, _, rfl, fE_packR ..⟩
theorem scld (o : OpDa) : Statement (.scld o) := .inr ⟨_, _, rfl, fE_packR ..⟩
theorem scst (o : OpAb) : Statement (.scst o) := .inr ⟨_, _, rfl, fE_packR ..⟩
theorem scadd (o : OpDab) : Statement (.scadd o) := .inr ⟨_, _, rfl, fE_packR ..⟩
theorem scswp (o : OpDab) : Statement (.scswp o) := .inr ⟨_, _, rfl, fE_packR ..⟩
theorem sccas (o : OpDab) : Statement (.sccas o) := .inr ⟨_, _, rfl, fE_packR ..⟩
theorem scmin (o : OpDab) : Statement (.scmin o) := .inr ⟨_, _, rfl, fE_packR ..⟩
theorem scmax (o : OpDab) : Statement (.scmax o) := .inr ⟨_, _, rfl, fE_packR ..⟩
theorem scminu (o : OpDab) : Statement (.scminu o) := .inr ⟨_, _, rfl, fE_packR ..⟩
theorem scmaxu (o : OpDab) : Statement (.scmaxu o) := .inr ⟨_, _, rfl, fE_packR ..⟩
theorem mmE2m1 (o : OpTab) : Statement (.mmE2m1 o) := .inr ⟨_, _, rfl, fE_packR ..⟩
theorem mmE4m3 (o : OpTab) : Statement (.mmE4m3 o) := .inr ⟨_, _, rfl, fE_packR ..⟩
theorem mmE5m2 (o : OpTab) : Statement (.mmE5m2 o) := .inr ⟨_, _, rfl, fE_packR ..⟩
theorem mmBf16 (o : OpTab) : Statement (.mmBf16 o) := .inr ⟨_, _, rfl, fE_packR ..⟩
theorem mmF16 (o : OpTab) : Statement (.mmF16 o) := .inr ⟨_, _, rfl, fE_packR ..⟩
theorem mmd (o : OpTab) : Statement (.mmd o) := .inr ⟨_, _, rfl, fE_packR ..⟩
theorem mmb (o : OpTab) : Statement (.mmb o) := .inr ⟨_, _, rfl, fE_packR ..⟩
theorem mspE2m1 (o : OpTab) : Statement (.mspE2m1 o) := .inr ⟨_, _, rfl, fE_packR ..⟩
theorem mspE4m3 (o : OpTab) : Statement (.mspE4m3 o) := .inr ⟨_, _, rfl, fE_packR ..⟩
theorem mspE5m2 (o : OpTab) : Statement (.mspE5m2 o) := .inr ⟨_, _, rfl, fE_packR ..⟩
theorem mspBf16 (o : OpTab) : Statement (.mspBf16 o) := .inr ⟨_, _, rfl, fE_packR ..⟩
theorem mspF16 (o : OpTab) : Statement (.mspF16 o) := .inr ⟨_, _, rfl, fE_packR ..⟩
theorem mspd (o : OpTab) : Statement (.mspd o) := .inr ⟨_, _, rfl, fE_packR ..⟩
theorem mspb (o : OpTab) : Statement (.mspb o) := .inr ⟨_, _, rfl, fE_packR ..⟩
theorem mmgE2m1 (o : OpTab) : Statement (.mmgE2m1 o) := .inr ⟨_, _, rfl, fE_packR ..⟩
theorem mmgE4m3 (o : OpTab) : Statement (.mmgE4m3 o) := .inr ⟨_, _, rfl, fE_packR ..⟩
theorem mmgE5m2 (o : OpTab) : Statement (.mmgE5m2 o) := .inr ⟨_, _, rfl, fE_packR ..⟩
theorem mmgBf16 (o : OpTab) : Statement (.mmgBf16 o) := .inr ⟨_, _, rfl, fE_packR ..⟩
theorem mmgF16 (o : OpTab) : Statement (.mmgF16 o) := .inr ⟨_, _, rfl, fE_packR ..⟩
theorem mmgd (o : OpTab) : Statement (.mmgd o) := .inr ⟨_, _, rfl, fE_packR ..⟩
theorem mmgb (o : OpTab) : Statement (.mmgb o) := .inr ⟨_, _, rfl, fE_packR ..⟩
theorem mzero (o : OpT) : Statement (.mzero o) := .inr ⟨_, _, rfl, fE_packR ..⟩
theorem mtld (o : OpTab) : Statement (.mtld o) := .inr ⟨_, _, rfl, fE_packR ..⟩
theorem mtst (o : OpTab) : Statement (.mtst o) := .inr ⟨_, _, rfl, fE_packR ..⟩
theorem mepi (o : OpTa) : Statement (.mepi o) := .inr ⟨_, _, rfl, fE_packR ..⟩
theorem copy (o : OpDab) : Statement (.copy o) := .inr ⟨_, _, rfl, fE_packR ..⟩
theorem copy2 (o : OpDab) : Statement (.copy2 o) := .inr ⟨_, _, rfl, fE_packR ..⟩
theorem copyr (o : OpDab) : Statement (.copyr o) := .inr ⟨_, _, rfl, fE_packR ..⟩
theorem ccan (o : OpA) : Statement (.ccan o) := .inr ⟨_, _, rfl, fE_packR ..⟩
theorem send (o : OpDai) : Statement (.send o) := .inr ⟨_, _, rfl, fE_packI ..⟩
theorem recv (o : OpDai) : Statement (.recv o) := .inr ⟨_, _, rfl, fE_packI ..⟩
theorem eos (o : OpI) : Statement (.eos o) := .inr ⟨_, _, rfl, fE_packI ..⟩
theorem bcast (o : OpDai) : Statement (.bcast o) := .inr ⟨_, _, rfl, fE_packI ..⟩
theorem route (o : OpA) : Statement (.route o) := .inr ⟨_, _, rfl, fE_packR ..⟩
theorem rclose (o : OpA) : Statement (.rclose o) := .inr ⟨_, _, rfl, fE_packR ..⟩
theorem launch (o : OpAb) : Statement (.launch o) := .inr ⟨_, _, rfl, fE_packR ..⟩
theorem spawn (o : OpAb) : Statement (.spawn o) := .inr ⟨_, _, rfl, fE_packR ..⟩
theorem spawnc (o : OpAb) : Statement (.spawnc o) := .inr ⟨_, _, rfl, fE_packR ..⟩
theorem cset (o : OpAb) : Statement (.cset o) := .inr ⟨_, _, rfl, fE_packR ..⟩
theorem cadd (o : OpAb) : Statement (.cadd o) := .inr ⟨_, _, rfl, fE_packR ..⟩
theorem crd (o : OpDa) : Statement (.crd o) := .inr ⟨_, _, rfl, fE_packR ..⟩
theorem carm (o : OpAb) : Statement (.carm o) := .inr ⟨_, _, rfl, fE_packR ..⟩
theorem cdisarm (o : OpAb) : Statement (.cdisarm o) := .inr ⟨_, _, rfl, fE_packR ..⟩
theorem cstage (o : OpAb) : Statement (.cstage o) := .inr ⟨_, _, rfl, fE_packR ..⟩
theorem waitc (o : OpAb) : Statement (.waitc o) := .inr ⟨_, _, rfl, fE_packR ..⟩
theorem waitct (o : OpDab) : Statement (.waitct o) := .inr ⟨_, _, rfl, fE_packR ..⟩
theorem mpost (o : OpDab) : Statement (.mpost o) := .inr ⟨_, _, rfl, fE_packR ..⟩
theorem mtake (o : OpDab) : Statement (.mtake o) := .inr ⟨_, _, rfl, fE_packR ..⟩
theorem xPrefix (i : BitVec 24) : Statement (.xPrefix i) := .inr ⟨none, packX 1#1 i, rfl, by simp⟩
theorem powerOn : Statement (.powerOn) := .inl rfl
theorem hostLinkTrain (gen : Nat) (width : Nat) (cxlVer : Nat) (cache : Bool) : Statement (.hostLinkTrain gen width cxlVer cache) := .inl rfl
theorem hostLinkDown : Statement (.hostLinkDown) := .inl rfl
theorem gomondPortTrain (port : Nat) (gen : Nat) : Statement (.gomondPortTrain port gen) := .inl rfl
theorem gomondPortDown (port : Nat) : Statement (.gomondPortDown port) := .inl rfl
theorem channelRouteLoss (region : Nat) (ch : Nat) : Statement (.channelRouteLoss region ch) := .inl rfl
theorem thermalThrottle (cluster : Nat) (stop : Bool) : Statement (.thermalThrottle cluster stop) := .inl rfl
theorem thermalShutdown (die : Nat) : Statement (.thermalShutdown die) := .inl rfl
theorem temperatureSample (die : Nat) (celsius : Nat) : Statement (.temperatureSample die celsius) := .inl rfl
theorem timeRateAdjust (ppm : Int) : Statement (.timeRateAdjust ppm) := .inl rfl
theorem registerWrite (off : BitVec 48) (v : BitVec 64) : Statement (.registerWrite off v) := .inl rfl
theorem translationRootWrite (core : Nat) (v : BitVec 64) : Statement (.translationRootWrite core v) := .inl rfl
theorem ringDescriptorWrite (core : Nat) (ring : Nat) (v : BitVec 64) : Statement (.ringDescriptorWrite core ring v) := .inl rfl
theorem logDescriptorWrite (core : Nat) (v : BitVec 64) : Statement (.logDescriptorWrite core v) := .inl rfl
theorem logDescriptorEffect (core : Nat) : Statement (.logDescriptorEffect core) := .inl rfl
theorem logSpillDescriptorWrite (core : Nat) (v : BitVec 64) : Statement (.logSpillDescriptorWrite core v) := .inl rfl
theorem arrivalSpillDescriptorWrite (core : Nat) (v : BitVec 64) : Statement (.arrivalSpillDescriptorWrite core v) := .inl rfl
theorem mhbWrite (svc : Nat) (ctx : Nat) (v : BitVec 64) : Statement (.mhbWrite svc ctx v) := .inl rfl
theorem chronographRequest (core : Nat) (seq : BitVec 64) : Statement (.chronographRequest core seq) := .inl rfl
theorem hostLaunchPost (fn : Nat) (w0 : BitVec 64) : Statement (.hostLaunchPost fn w0) := .inl rfl
theorem regionCreate : Statement (.regionCreate) := .inl rfl
theorem regionChange : Statement (.regionChange) := .inl rfl
theorem regionDestroy : Statement (.regionDestroy) := .inl rfl
theorem regionPreempt : Statement (.regionPreempt) := .inl rfl
theorem regionResume : Statement (.regionResume) := .inl rfl
theorem regionLaunch : Statement (.regionLaunch) := .inl rfl
theorem attestationQuote : Statement (.attestationQuote) := .inl rfl
theorem handOver : Statement (.handOver) := .inl rfl
theorem hostEventQueueSetup : Statement (.hostEventQueueSetup) := .inl rfl
theorem stageImagePart : Statement (.stageImagePart) := .inl rfl
theorem probationCommit (body : Nat) : Statement (.probationCommit body) := .inl rfl
theorem heartbeatFallback (body : Nat) : Statement (.heartbeatFallback body) := .inl rfl
theorem bodyRestart (body : Nat) : Statement (.bodyRestart body) := .inl rfl
theorem clusterTlbLookup (core : Nat) (ctx : Nat) : Statement (.clusterTlbLookup core ctx) := .inl rfl
theorem walkComplete (cluster : Nat) (idx : Nat) : Statement (.walkComplete cluster idx) := .inl rfl
theorem invalidationComplete (idx : Nat) : Statement (.invalidationComplete idx) := .inl rfl
theorem fetchPortServe (cluster : Nat) : Statement (.fetchPortServe cluster) := .inl rfl
theorem fetchLineDeliver (cluster : Nat) : Statement (.fetchLineDeliver cluster) := .inl rfl
theorem icacheFillComplete (cluster : Nat) : Statement (.icacheFillComplete cluster) := .inl rfl
theorem pendingResultArrive (idx : Nat) : Statement (.pendingResultArrive idx) := .inl rfl
theorem realignRelease (core : Nat) (ctx : Nat) : Statement (.realignRelease core ctx) := .inl rfl
theorem workerTrapStop (core : Nat) (ctx : Nat) : Statement (.workerTrapStop core ctx) := .inl rfl
theorem trapHandlerEntry (core : Nat) : Statement (.trapHandlerEntry core) := .inl rfl
theorem userInterruptEntry (core : Nat) (ctx : Nat) : Statement (.userInterruptEntry core ctx) := .inl rfl
theorem matrixFaultStop (core : Nat) : Statement (.matrixFaultStop core) := .inl rfl
theorem freezeEnd (core : Nat) : Statement (.freezeEnd core) := .inl rfl
theorem hostLineWriteback (line : Nat) : Statement (.hostLineWriteback line) := .inl rfl
theorem hostSnoop (line : Nat) : Statement (.hostSnoop line) := .inl rfl
theorem hostCxlMemAccess (line : Nat) (write : Bool) (data : BitVec 512) : Statement (.hostCxlMemAccess line write data) := .inl rfl
theorem shipperSend (core : Nat) : Statement (.shipperSend core) := .inl rfl
theorem homeRecordArrive (idx : Nat) : Statement (.homeRecordArrive idx) := .inl rfl
theorem batchApply (core : Nat) (ctx : Nat) (home : Nat) : Statement (.batchApply core ctx home) := .inl rfl
theorem forcedCompaction (core : Nat) : Statement (.forcedCompaction core) := .inl rfl
theorem recordArrival (idx : Nat) : Statement (.recordArrival idx) := .inl rfl
theorem spillRefill (core : Nat) : Statement (.spillRefill core) := .inl rfl
theorem dispatch (core : Nat) : Statement (.dispatch core) := .inl rfl
theorem loadComplete (core : Nat) (ctx : Nat) : Statement (.loadComplete core ctx) := .inl rfl
theorem dispenserPlace (cluster : Nat) : Statement (.dispenserPlace cluster) := .inl rfl
theorem extensionMigrate (core : Nat) (ctx : Nat) : Statement (.extensionMigrate core ctx) := .inl rfl
theorem frameRestoreDispatch (core : Nat) : Statement (.frameRestoreDispatch core) := .inl rfl
theorem frameMoveRetry (core : Nat) (ctx : Nat) : Statement (.frameMoveRetry core ctx) := .inl rfl
theorem deadlockDetect (region : Nat) : Statement (.deadlockDetect region) := .inl rfl
theorem preemptArrive (core : Nat) : Statement (.preemptArrive core) := .inl rfl
theorem preemptSave (core : Nat) : Statement (.preemptSave core) := .inl rfl
theorem resumeRestore (core : Nat) : Statement (.resumeRestore core) := .inl rfl
theorem regionFaultKill : Statement (.regionFaultKill) := .inl rfl
theorem placementApply (region : Nat) (chg : List PlaceChange) : Statement (.placementApply region chg) := .inl rfl
theorem counterCycleUpdate (core : Nat) (ctr : Nat) : Statement (.counterCycleUpdate core ctr) := .inl rfl
theorem triggerActionResume (core : Nat) : Statement (.triggerActionResume core) := .inl rfl
theorem waitcTimeout (core : Nat) (idx : Nat) : Statement (.waitcTimeout core idx) := .inl rfl
theorem packetAcknowledge (idx : Nat) : Statement (.packetAcknowledge idx) := .inl rfl
theorem copyPacketLand (core : Nat) (idx : Nat) (pkt : Nat) : Statement (.copyPacketLand core idx pkt) := .inl rfl
theorem copyEnd (core : Nat) (idx : Nat) : Statement (.copyEnd core idx) := .inl rfl
theorem copyCancelArrive (core : Nat) (idx : Nat) (pkts : List Nat) : Statement (.copyCancelArrive core idx pkts) := .inl rfl
theorem copyTimeout (core : Nat) (idx : Nat) : Statement (.copyTimeout core idx) := .inl rfl
theorem sendEngineInject (core : Nat) : Statement (.sendEngineInject core) := .inl rfl
theorem channelElementLand (idx : Nat) : Statement (.channelElementLand idx) := .inl rfl
theorem creditReturn (idx : Nat) : Statement (.creditReturn idx) := .inl rfl
theorem recvCopyComplete (idx : Nat) : Statement (.recvCopyComplete idx) := .inl rfl
theorem treeNodeCombine (region : Nat) (ch : Nat) (node : Nat) : Statement (.treeNodeCombine region ch node) := .inl rfl
theorem broadcastLand (idx : Nat) : Statement (.broadcastLand idx) := .inl rfl
theorem mailboxArrive (idx : Nat) : Statement (.mailboxArrive idx) := .inl rfl
theorem completionRecordPost (idx : Nat) : Statement (.completionRecordPost idx) := .inl rfl
theorem scaleOpPerform (idx : Nat) : Statement (.scaleOpPerform idx) := .inl rfl
theorem syncCellPerform (idx : Nat) : Statement (.syncCellPerform idx) := .inl rfl
theorem tableLoadEffect (core : Nat) (ctx : Nat) : Statement (.tableLoadEffect core ctx) := .inl rfl
theorem patternReadahead (core : Nat) (ctx : Nat) (reg : Nat) : Statement (.patternReadahead core ctx reg) := .inl rfl
theorem routeJobStart (cluster : Nat) : Statement (.routeJobStart cluster) := .inl rfl
theorem permitRequestArrive (idx : Nat) : Statement (.permitRequestArrive idx) := .inl rfl
theorem roundCloseArrive (idx : Nat) : Statement (.roundCloseArrive idx) := .inl rfl
theorem permitAnswer (idx : Nat) : Statement (.permitAnswer idx) := .inl rfl
theorem binRowLand (idx : Nat) : Statement (.binRowLand idx) := .inl rfl
theorem routeJobEnd (cluster : Nat) : Statement (.routeJobEnd cluster) := .inl rfl
theorem rcloseRun (cluster : Nat) : Statement (.rcloseRun cluster) := .inl rfl
theorem closingCountArrive (idx : Nat) : Statement (.closingCountArrive idx) := .inl rfl
theorem matrixStepStart (core : Nat) : Statement (.matrixStepStart core) := .inl rfl
theorem matrixStepRetire (core : Nat) : Statement (.matrixStepRetire core) := .inl rfl
theorem mmgGroupTake (core : Nat) (idx : Nat) : Statement (.mmgGroupTake core idx) := .inl rfl
theorem mmgComplete (core : Nat) (idx : Nat) : Statement (.mmgComplete core idx) := .inl rfl
theorem epilogueStart (core : Nat) : Statement (.epilogueStart core) := .inl rfl
theorem epilogueRowEmit (core : Nat) : Statement (.epilogueRowEmit core) := .inl rfl
theorem epilogueComplete (core : Nat) : Statement (.epilogueComplete core) := .inl rfl
theorem mtldComplete (core : Nat) : Statement (.mtldComplete core) := .inl rfl
theorem comparePoint (core : Nat) (ctx : Nat) : Statement (.comparePoint core ctx) := .inl rfl
theorem tieBreakResult (core : Nat) (ctx : Nat) : Statement (.tieBreakResult core ctx) := .inl rfl
theorem binMove (core : Nat) : Statement (.binMove core) := .inl rfl
theorem selfTestResult (core : Nat) (pass : Bool) (unit : BitVec 64) : Statement (.selfTestResult core pass unit) := .inl rfl
theorem binRecovery (core : Nat) : Statement (.binRecovery core) := .inl rfl
theorem directStorePerform (idx : Nat) : Statement (.directStorePerform idx) := .inl rfl

end Sys2Proof.Laws.Framed
end

