-- ==== Sys2Proof/Tests/Slice0.lean ====
section
/-! SUPPORT. The modeller's own tests: states that meet the hypotheses of the statements, one theorem `test_witness_…` for each, words
written out from the encoding, terms that the checks of well-formedness refuse, and results of single instructions worked out by hand
from the rules. -/

open Sys2Proof Sys2Proof.Machine

namespace Sys2Proof.Tests

set_option Elab.async false

/-! ### States -/

/-- A leaf of tenant 5 in a micro-TLB: page number of 64 KiB, frame, bits 8 to 0 of the leaf, owner (R112, R115). -/
def page (vpn frame bits owner : Nat) : Tlb :=
  { tag := 5, level := 3, vpn := vpn, leaf := BitVec.ofNat 64 (owner * 2 ^ 52 + frame + 5 * 2 ^ 9 + bits) }

/-- Pages of core 5's slice (1, plane group 2), of bulk memory (3, plane group 4, logged 5, logged plane group 6), of core 6's slice,
logged (7), and of host memory (8). -/
def pages : List Tlb :=
  [page 1 (5 * 2 ^ 21) 0x10F 0, page 2 (5 * 2 ^ 21 + 0x10000) 0x18F 0, page 3 (2 ^ 48 + 0x10000) 0x0F 5, page 4 (2 ^ 48 + 0x20000) 0x8F 5,
   page 5 (2 ^ 48 + 0x30000) 0x2F 6, page 6 (2 ^ 48 + 0x40000) 0xAF 6, page 7 (6 * 2 ^ 21) 0x2F 6, page 8 (2 ^ 49 + 0x10000) 0x0F 5]

/-- A context of region 7 at 0x90000, with p1 to p7 true, every latch valid and r in each x register r; privilege l. -/
def thread (l : Nat) : Ctx :=
  { mode := .running, pc := 0x90000, region := 7, p := 0xFF, qv := 0xF, x := Vector.ofFn (fun i => BitVec.ofNat 64 i.val)
    status := BitVec.ofNat 64 l, tiles := 0x402 }

/-- Core c whose cycle belongs to context t, which is k. -/
def coreWith (c t : Nat) (k : Ctx) : Core :=
  { (Core.reset c) with ctxs := (Core.reset c).ctxs.setIfInBounds t k, cycle := t, root := 0x8000000000000005, utlb := pages }

def region7 : Region :=
  { parent := some 0, tag := 5, root := 0x8000000000000005, chan := 0x18000, expd := 0x18800, scale := 0x14000, cq := 0x19000
    cqn := 6, nch := 64, save := 2 ^ 48 + 0x100000, savev := 0x30000 }

/-- The machine in which context t of core c, which is k, issues next; package 3, 1 us after a moment that software has set. -/
def machine (c t : Nat) (k : Ctx) (f : Core → Core := id) : State :=
  { State.reset with turn := c, pkg := 3, time := 1000, regions := State.reset.regions.set 7 region7, cores := [(c, f (coreWith c t k))] }

/-- A worker of core 5, one of a core with the FP64 extension, the steward of core 5, a context of service core 3. -/
def base : State := machine 5 3 (thread 0)
def fp64 : State := machine 7 3 (thread 0)
def steward : State := machine 5 0 (thread 1)
def firm : State := machine 4099 3 (thread 3)

/-- `base` with another context, with another core, and with some x or v registers changed. -/
def withK (f : Ctx → Ctx) (s : State := base) : State := s.modCtx s.turn (nowCtx s) f
def withC (f : Core → Core) (s : State := base) : State := s.modCore s.turn f
def withX (l : List (Nat × Word)) (s : State := base) : State :=
  withK (fun k => l.foldl (fun k e => { k with x := k.x.setIfInBounds e.1 e.2 }) k) s
def withV (l : List (Nat × Vec)) (s : State := base) : State :=
  withK (fun k => l.foldl (fun k e => { k with v := k.v.setIfInBounds e.1 e.2 }) k) s

/-- Bytes of a length that no two neighbours share. -/
def bytes (n m : Nat) : List Byte := (List.range n).map (fun i => BitVec.ofNat 8 (i * 7 + m))

/-- Words put at an address of core 5's slice. -/
def put (a : Nat) (l : List Nat) (s : State) : State := s.wrBytes (5 * 2 ^ 21 + a) ((l.map (toBytes 8)).flatten)

/-! ### What most statements assume -/

/-- The context that issues is ready, binds no register, and its predicates and latches are all set. -/
def Full (s : State) : Prop :=
  Ready s ∧ Unbound s ∧ (∀ g, Guard s g) ∧ ∀ l : List (BitVec 6), (∀ c ∈ l, c.toNat < 36) → Readable s l

theorem ready_of {s : State} (h : (now s).mode = .running ∧ (now s).stop = none ∧ (now s).pair = none ∧ (now s).pendX = 0
    ∧ (now s).pendY = 0 ∧ (now s).pendV = 0 ∧ (now s).pendQ = 0 ∧ (now s).regErr = []) : Ready s :=
  ⟨h.1, h.2.1, h.2.2.1, h.2.2.2.1, h.2.2.2.2.1, h.2.2.2.2.2.1, h.2.2.2.2.2.2.1, h.2.2.2.2.2.2.2⟩

theorem unbound_of {s : State} (h : (now s).bind = Vector.replicate 8 0) : Unbound s := by
  intro r
  have z : (now s).rb (r - 24) = 0 := by simp [Ctx.rb, h]
  simp only [Ctx.bindKind, z]
  split <;> rfl

theorem full_of {s : State} (r : (now s).mode = .running ∧ (now s).stop = none ∧ (now s).pair = none ∧ (now s).pendX = 0
    ∧ (now s).pendY = 0 ∧ (now s).pendV = 0 ∧ (now s).pendQ = 0 ∧ (now s).regErr = [])
    (h : (now s).bind = Vector.replicate 8 0 ∧ (∀ g : BitVec 3, (now s).rp g.toNat = true) ∧ (now s).qv = 0xF) : Full s := by
  refine ⟨ready_of r, unbound_of h.1, h.2.1, fun l hl c hc => ?_⟩
  by_cases hlt : c.toNat < 32
  · exact .inl hlt
  · exact .inr ⟨hl c hc, by
      have : c.toNat < 36 := hl c hc
      have e : c.toNat - 32 = 0 ∨ c.toNat - 32 = 1 ∨ c.toNat - 32 = 2 ∨ c.toNat - 32 = 3 := by omega
      rcases e with e | e | e | e <;> rw [e, h.2.2] <;> decide⟩

/-- The same as a value. -/
def fullB (s : State) : Bool :=
  let k := now s
  decide (k.mode = .running ∧ k.stop = none ∧ k.pair = none ∧ k.pendX = 0 ∧ k.pendY = 0 ∧ k.pendV = 0 ∧ k.pendQ = 0 ∧ k.regErr = [])
  && decide (k.bind = Vector.replicate 8 0 ∧ (∀ g : BitVec 3, k.rp g.toNat = true) ∧ k.qv = 0xF)

/-- The hypotheses that most statements about instructions share, for a slot with guard g whose operand fields are l. -/
def Meets (s : State) (g : BitVec 3) (l : List (BitVec 6)) : Prop := Ready s ∧ Unbound s ∧ Guard s g ∧ Readable s l

theorem meets_of {s : State} {g : BitVec 3} {l : List (BitVec 6)} (h : fullB s = true) (hl : ∀ c ∈ l, c.toNat < 36) : Meets s g l := by
  simp only [fullB, Bool.and_eq_true, decide_eq_true_eq] at h
  have f := full_of h.1 h.2
  exact ⟨f.1, f.2.1, f.2.2.1 g, f.2.2.2 l hl⟩

/-! ### Checks that the kernel evaluates -/

/-- The address is reached, with P of its translation. -/
def hitsB (s : State) (acc : Acc) (ea : Word) (P : Xl → Bool) : Bool :=
  match translate s s.turn (nowCtx s) acc ea with
  | .ok x => P x
  | .error _ => false

theorem hits_of {s : State} {acc : Acc} {ea : Word} {P : Xl → Bool} (h : hitsB s acc ea P = true) : ∃ x, Reaches s acc ea x ∧ P x = true := by
  unfold hitsB at h
  split at h
  · exact ⟨_, ‹_›, h⟩
  · cases h

/-- The access traps with this cause. -/
def failsB (s : State) (acc : Acc) (ea : Word) (code : BitVec 8) : Bool :=
  match translate s s.turn (nowCtx s) acc ea with
  | .error (.trap c _) => c == code
  | _ => false

theorem fails_of {s : State} {acc : Acc} {ea : Word} {code : BitVec 8} (h : failsB s acc ea code = true) :
    ∃ v, translate s s.turn (nowCtx s) acc ea = .error (.trap code v) := by
  unfold failsB at h
  split at h
  · rename_i c v e
    exact ⟨v, by rw [e, eq_of_beq h]⟩
  · cases h

/-- The value of an access, or of a step that may answer nothing, with P of it. -/
def okB {α ε : Type} (e : Except ε α) (P : α → Bool) : Bool :=
  match e with
  | .ok x => P x
  | .error _ => false

theorem ok_of {α ε : Type} {e : Except ε α} {P : α → Bool} (h : okB e P = true) : ∃ x, e = .ok x ∧ P x = true := by
  unfold okB at h
  split at h
  · exact ⟨_, rfl, h⟩
  · cases h

def errB {α ε : Type} (e : Except ε α) (P : ε → Bool) : Bool :=
  match e with
  | .ok _ => false
  | .error x => P x

theorem err_of {α ε : Type} {e : Except ε α} {P : ε → Bool} (h : errB e P = true) : ∃ x, e = .error x ∧ P x = true := by
  unfold errB at h
  split at h
  · cases h
  · exact ⟨_, rfl, h⟩

def someB {α : Type} (e : Option α) (P : α → Bool) : Bool :=
  match e with
  | some x => P x
  | none => false

theorem some_of {α : Type} {e : Option α} {P : α → Bool} (h : someB e P = true) : ∃ x, e = some x ∧ P x = true := by
  unfold someB at h
  split at h
  · exact ⟨_, rfl, h⟩
  · cases h

theorem none_of {α : Type} {e : Option α} (h : e.isNone = true) : e = none := by
  cases e
  · rfl
  · cases h

theorem reach {s : State} {acc : Acc} {a : Word} (h : hitsB s acc a (fun _ => true) = true) : ∃ x, Reaches s acc a x :=
  (hits_of h).elim fun x h => ⟨x, h.1⟩

theorem good {α ε : Type} {e : Except ε α} (h : okB e (fun _ => true) = true) : ∃ x, e = .ok x := (ok_of h).elim fun x h => ⟨x, h.1⟩

theorem found {α : Type} {e : Option α} (h : e.isSome = true) : ∃ x, e = some x := Option.isSome_iff_exists.mp h

/-! ### Witnesses: scalar and vector instructions -/

/-- A worker whose floating-point traps are all enabled, and one with every predicate false. -/
def trapping : State := withK (fun k => { k with status := 0x1F00 })
def falsePreds : State := withK (fun k => { k with p := 0 })

theorem test_witness_IntegerArithmeticResults : Meets base 7 [31, 35] ∧ Unmodified (some 0) ∧ Meets base 0 [0] ∧ Unmodified none :=
  ⟨meets_of (by decide +kernel) (by decide), .inr rfl, meets_of (by decide +kernel) (by decide), .inl rfl⟩

theorem test_witness_ShiftCountFieldResults : Meets base 7 [31, 35] ∧ Unmodified (some 0) ∧ Meets steward 7 [35] ∧ Ready base :=
  ⟨meets_of (by decide +kernel) (by decide), .inr rfl, meets_of (by decide +kernel) (by decide), ready_of (by decide +kernel)⟩

theorem test_witness_ComparePredicateResults : Meets base 7 [31, 35] ∧ Unmodified (some 0) ∧ Meets base 7 [32] :=
  ⟨meets_of (by decide +kernel) (by decide), .inr rfl, meets_of (by decide +kernel) (by decide)⟩

theorem test_witness_ScalarFloatResults :
    Meets base 7 [31, 35] ∧ Unmodified (some 0) ∧ Quiet base 0x1F ∧ Meets trapping 7 [31, 35] ∧ ¬ Quiet trapping 1 ∧ Quiet trapping 0 :=
  ⟨meets_of (by decide +kernel) (by decide), .inr rfl, (by unfold Quiet; decide +kernel), meets_of (by decide +kernel) (by decide),
    (by unfold Quiet; decide +kernel), (by unfold Quiet; decide +kernel)⟩

theorem test_witness_BranchCallJumpResults :
    Ready base ∧ (now base).rp 7 = true ∧ Ready falsePreds ∧ (now falsePreds).rp 7 = false ∧ (now falsePreds).rp 0 = true
    ∧ Meets (withX [(1, 2)]) 7 [1] ∧ (X (withX [(1, 2)]) 1).toNat % 4 ≠ 0
    ∧ Meets (withX [(1, 2 ^ 60)]) 7 [1] ∧ 2 ^ 60 ≤ (X (withX [(1, 2 ^ 60)]) 1).toNat ∧ (X (withX [(1, 2 ^ 60)]) 1).toNat % 4 = 0
    ∧ Meets (withX [(1, 2 ^ 60 - 4)]) 7 [1] ∧ (X (withX [(1, 2 ^ 60 - 4)]) 1).toNat < 2 ^ 60
    ∧ (X (withX [(1, 2 ^ 60 - 4)]) 1).toNat % 4 = 0 :=
  ⟨ready_of (by decide +kernel), by decide +kernel, ready_of (by decide +kernel), by decide +kernel, by decide +kernel,
    meets_of (by decide +kernel) (by decide), by decide +kernel,
    meets_of (by decide +kernel) (by decide), by decide +kernel, by decide +kernel,
    meets_of (by decide +kernel) (by decide), by decide +kernel, by decide +kernel⟩

theorem test_witness_LoopControlRegisterResults :
    Ready base ∧ Meets base 7 [35] ∧ (now base).prv = 0 ∧ Meets steward 7 [35] ∧ (now steward).prv = 1
    ∧ Meets firm 7 [35] ∧ 4096 ≤ firm.turn ∧ (now firm).prv = 3
    ∧ (immU (none : Option (BitVec 24)) 0x22).toNat = 0x022 ∧ (immU (none : Option (BitVec 24)) 0x85).toNat = 0x085
    ∧ (immU (none : Option (BitVec 24)) 0x86).toNat = 0x086 ∧ (immU (none : Option (BitVec 24)) 0x10B).toNat = 0x10B
    ∧ (immU (none : Option (BitVec 24)) 0x10C).toNat = 0x10C
    ∧ base.tilesOk base.turn (nowCtx base) (0x403 &&& 0x3F1F#64) = true ∧ base.tilesOk base.turn (nowCtx base) (0x201F &&& 0x3F1F#64) = false :=
  ⟨ready_of (by decide +kernel), meets_of (by decide +kernel) (by decide), by decide +kernel, meets_of (by decide +kernel) (by decide), by decide +kernel,
    meets_of (by decide +kernel) (by decide), by decide +kernel, by decide +kernel, by decide +kernel, by decide +kernel, by decide +kernel,
    by decide +kernel, by decide +kernel, by decide +kernel, by decide +kernel⟩

/-- What most statements about vector instructions assume. -/
theorem vector_meets : Meets base 7 [31, 35] ∧ MaskOnly (some 7) ∧ MaskOnly none ∧ Meets fp64 7 [31, 35] ∧ Fp64 fp64 true ∧ Fp64 base false :=
  ⟨meets_of (by decide +kernel) (by decide), .inr ⟨7, rfl, by decide⟩, .inl rfl, meets_of (by decide +kernel) (by decide), fun _ => by decide +kernel,
    fun h => nomatch h⟩

theorem test_witness_VectorArithmeticResults :
    Meets base 7 [31, 35] ∧ MaskOnly (some 7) ∧ MaskOnly none ∧ Meets fp64 7 [31, 35] ∧ Fp64 fp64 true ∧ Fp64 base false := vector_meets

theorem test_witness_VectorMoveLogicResults :
    Meets base 7 [31, 35] ∧ MaskOnly (some 7) ∧ MaskOnly none ∧ Meets fp64 7 [31, 35] ∧ Fp64 fp64 true
    ∧ (immS (none : Option (BitVec 24)) 1).toNat < 2 ∧ 2 ≤ (immS (none : Option (BitVec 24)) 2).toNat :=
  ⟨vector_meets.1, vector_meets.2.1, vector_meets.2.2.1, vector_meets.2.2.2.1, vector_meets.2.2.2.2.1, by decide, by decide⟩

theorem test_witness_VectorCompareMaskResults :
    Meets base 7 [31, 35] ∧ MaskOnly (some 7) ∧ Unmodified (some 0) ∧ Meets fp64 7 [31, 35] ∧ Fp64 fp64 true ∧ Quiet base 0x1F
    ∧ Meets trapping 7 [31, 35] ∧ ¬ Quiet trapping 1 :=
  ⟨vector_meets.1, vector_meets.2.1, .inr rfl, vector_meets.2.2.2.1, vector_meets.2.2.2.2.1, test_witness_ScalarFloatResults.2.2.1,
    meets_of (by decide +kernel) (by decide), test_witness_ScalarFloatResults.2.2.2.2.1⟩

theorem test_witness_VectorConversionResults :
    Meets base 7 [31, 35] ∧ MaskOnly (some 7) ∧ MaskOnly none ∧ Meets fp64 7 [31, 35] ∧ Fp64 fp64 true ∧ Fp64 base false := vector_meets

/-- Decode table 1 of core 5 does not encode; table 0 does. -/
def noEncode : State := withC (fun k => { k with dec := [(1, { (defaultDec 1) with enc := false })] })

theorem test_witness_VectorTableScaleResults :
    Meets noEncode 7 [31, 35] ∧ MaskOnly (some 7) ∧ (now noEncode).loaded = [] ∧ ((noEncode.core noEncode.turn).decTab 1).enc = false
    ∧ ((noEncode.core noEncode.turn).decTab 0).enc = true ∧ ((noEncode.core noEncode.turn).decTab 2).nib = true
    ∧ (∀ f ∈ [0x0007, 0x0017, 0x1007, 0x2007, 0x3007, 0x0C07, 0x0307, 0x0087], bitsN (BitVec.ofNat 24 f) 14 10 = 0 ∧ bit (BitVec.ofNat 24 f) 3 = false)
    ∧ bitsN (BitVec.ofNat 10 0x100) 8 2 = 1 ∧ bitsN (BitVec.ofNat 10 0x200) 8 2 = 2 ∧ bitsN (BitVec.ofNat 10 0x300) 8 2 = 3 :=
  ⟨meets_of (by decide +kernel) (by decide), .inr ⟨7, rfl, by decide⟩, by decide +kernel, by decide +kernel, by decide +kernel,
    by decide +kernel, by decide +kernel, by decide, by decide, by decide⟩

theorem test_witness_VectorReductionResults :
    Meets base 7 [31, 35] ∧ MaskOnly (some 7) ∧ MaskOnly none ∧ Meets fp64 7 [31, 35] ∧ Fp64 fp64 true ∧ Quiet base 0x1F
    ∧ Meets trapping 7 [31, 35] ∧ ¬ Quiet trapping 1 :=
  ⟨vector_meets.1, vector_meets.2.1, vector_meets.2.2.1, vector_meets.2.2.2.1, vector_meets.2.2.2.2.1, test_witness_ScalarFloatResults.2.2.1,
    meets_of (by decide +kernel) (by decide), test_witness_ScalarFloatResults.2.2.2.2.1⟩

/-! ### Witnesses: memory -/

/-- An access that reaches memory, at an address which is a multiple of n, with no record of the core's own log and no poison in its
way. -/
def Loads (s : State) (ea : Word) (n : Nat) (P : Xl → Bool) : Prop :=
  ea.toNat % n = 0 ∧ ∃ x, Reaches s .load ea x ∧ Clear s x [lineOf x.pa] ∧ (s.eccRange x.pa n).poisoned x.pa n = none ∧ P x = true

theorem loads_of {s : State} {ea : Word} {n : Nat} {P : Xl → Bool} (h : ea.toNat % n = 0)
    (hx : hitsB s .load ea (fun x => (s.ownHit s.turn (leafL x.leaf) [lineOf x.pa]).isNone && ((s.eccRange x.pa n).poisoned x.pa n).isNone
      && P x) = true) : Loads s ea n P := by
  obtain ⟨x, hr, hp⟩ := hits_of hx
  simp only [Bool.and_eq_true] at hp
  exact ⟨h, x, hr, none_of hp.1.1, none_of hp.1.2, hp.2⟩

/-- The place is in the slice of the issuing core. -/
def near (s : State) (x : Xl) : Bool := decide (kindOf x.pa = 0) && decide (sliceCore x.pa = s.turn)

/-- States whose x1 holds an address: misaligned, of a host page while the link is down, of the own slice, of direct bulk memory; and
one whose logged-read buffer holds the line. -/
def askew : State := withX [(1, 0x10007)]
def unlinked : State := withX [(1, 0x80000)]
def nearby : State := withX [(1, 0x1FFF8)]
def remote : State := withX [(1, 0x30000)]
def buffered : State := withC (fun k => { k with rbuf := [((2 ^ 48 + 0x30080) / 64, bytes 64 3)] }) (withX [(1, 0x50080)])

/-- The address of a load or store whose operand fields name x1 and x0. -/
def ea (s : State) : Word := X s 1 + X s 0

theorem test_witness_LoadResults :
    (Meets askew 7 [1, 0] ∧ (ea askew).toNat % 8 ≠ 0)
    ∧ (Meets unlinked 7 [1, 0] ∧ (ea unlinked).toNat % 16 = 0 ∧ ∃ v, translate unlinked 5 3 .load (ea unlinked) = .error (.trap cAccess v))
    ∧ (Meets nearby 7 [1, 0] ∧ Loads nearby (ea nearby) 8 (near nearby))
    ∧ (Meets buffered 7 [1, 0] ∧ Loads buffered (ea buffered) 16 (fun x => !near buffered x && (buffered.heldRead 5 x 16).isSome))
    ∧ (Meets remote 7 [1, 0] ∧ MaskOnly (some 7) ∧ Loads remote (ea remote) 16 (fun x => !near remote x && (remote.heldRead 5 x 16).isNone)) :=
  ⟨⟨meets_of (by decide +kernel) (by decide), by decide +kernel⟩,
    ⟨meets_of (by decide +kernel) (by decide), by decide +kernel, fails_of (by decide +kernel)⟩,
    ⟨meets_of (by decide +kernel) (by decide), loads_of (by decide +kernel) (by decide +kernel)⟩,
    ⟨meets_of (by decide +kernel) (by decide), loads_of (by decide +kernel) (by decide +kernel)⟩,
    ⟨meets_of (by decide +kernel) (by decide), .inr ⟨7, rfl, by decide⟩, loads_of (by decide +kernel) (by decide +kernel)⟩⟩

/-- What a store leaves exists: on a logged page with room, on a direct page of a slice, on a direct bulk or host page. -/
theorem stored_logged {s : State} {n : Nat} {x : Xl} {bytes : List Byte} {en : Nat → Bool} {add : Option (BitVec 8)}
    (hl : leafL x.leaf = true)
    (hr : (s.core s.turn).log.room (maskRuns (fun j => decide (j < bytes.length) && en j) 16 0).length = true) :
    ∃ u, Stored s n x bytes en add u := by
  simp only [Stored, hl, if_true]
  exact ⟨_, hr, rfl⟩

theorem stored_slice {s : State} {n : Nat} {x : Xl} {bytes : List Byte} {en : Nat → Bool} {add : Option (BitVec 8)}
    (hl : leafL x.leaf = false) (hk : kindOf x.pa = 0) : ∃ u, Stored s n x bytes en add u := by
  simp only [Stored, hl, hk, if_true, Bool.false_eq_true, if_false]
  exact ⟨_, rfl⟩

theorem stored_far {s : State} {n : Nat} {x : Xl} {bytes : List Byte} {add : Option (BitVec 8)}
    (hl : leafL x.leaf = false) (hk : kindOf x.pa = 1) (hn : bytes.length = 16) : ∃ u, Stored s n x bytes (fun _ => true) add u := by
  simp only [Stored, hl, hk, hn, Bool.false_eq_true, if_false, Nat.one_ne_zero, true_or, if_true]
  split
  · exact ⟨_, rfl⟩
  · exact ⟨_, 0xFFFF, by decide, rfl⟩

theorem stored_device {s u : State} {n : Nat} {x : Xl} {bytes : List Byte} {en : Nat → Bool}
    (hl : leafL x.leaf = false) (hk : kindOf x.pa = 3)
    (h : (maskRuns (fun j => decide (j < bytes.length) && en j) 16 0).foldlM
      (fun v r => v.devStore ((x.pa + r.1) % 2 ^ 48) (v.summed s.turn none (x.pa + r.1) ((bytes.drop r.1).take (2 ^ r.2)))) s = some u) :
    ∃ u, Stored s n x bytes en none u := by
  simp only [Stored, hl, hk, Bool.false_eq_true, if_false, Option.isSome_none]
  exact ⟨u, h⟩

/-- The places of stores: a logged page of another core's memory, the own slice, own bulk memory. -/
def loggedAt : State := withX [(1, 0x50010)]
/-- A word of device control space, named by firmware: the host-managed window word. -/
def device : State := withX [(1, 3 * 2 ^ 48 + 0x4000010)] firm

theorem test_witness_StoreResults :
    (Meets askew 7 [1, 0] ∧ dN 0x1F = false ∧ (ea askew).toNat % 8 ≠ 0 ∧ dN 0x3F = true)
    ∧ (Meets unlinked 7 [1, 0] ∧ (ea unlinked).toNat % 16 = 0 ∧ ∃ v, translate unlinked 5 3 .store (ea unlinked) = .error (.trap cAccess v))
    ∧ (Meets loggedAt 7 [1, 0] ∧ MaskOnly (some 7) ∧ (ea loggedAt).toNat % 16 = 0
      ∧ ∃ x u, Reaches loggedAt .store (ea loggedAt) x ∧ Stored loggedAt 0 x (bytes 16 0) (bit 0xA5A5#16) (some (addFmt 5)) u)
    ∧ (Meets nearby 7 [1, 0] ∧ (ea nearby).toNat % 8 = 0
      ∧ ∃ x u, Reaches nearby .store (ea nearby) x ∧ Stored nearby 0 x (bytes 8 0) (fun _ => true) none u)
    ∧ (Meets remote 7 [1, 0] ∧ (ea remote).toNat % 16 = 0
      ∧ ∃ x u, Reaches remote .store (ea remote) x ∧ Stored remote 1 x (bytes 16 0) (fun _ => true) none u)
    ∧ (Meets device 7 [1, 0] ∧ (ea device).toNat % 8 = 0
      ∧ ∃ x u, Reaches device .store (ea device) x ∧ Stored device 0 x (bytes 8 0) (fun _ => true) none u)
    ∧ (Meets remote 7 [1, 0] ∧ ∃ x, Reaches remote .load (ea remote &&& ~~~(63#64)) x) := by
  refine ⟨⟨meets_of (by decide +kernel) (by decide), by decide, by decide +kernel, by decide⟩,
    ⟨meets_of (by decide +kernel) (by decide), by decide +kernel, fails_of (by decide +kernel)⟩,
    ⟨meets_of (by decide +kernel) (by decide), .inr ⟨7, rfl, by decide⟩, by decide +kernel, ?_⟩,
    ⟨meets_of (by decide +kernel) (by decide), by decide +kernel, ?_⟩,
    ⟨meets_of (by decide +kernel) (by decide), by decide +kernel, ?_⟩,
    ⟨meets_of (by decide +kernel) (by decide), by decide +kernel, ?_⟩,
    ⟨meets_of (by decide +kernel) (by decide), ?_⟩⟩
  · obtain ⟨x, hr, hp⟩ := hits_of (P := fun x => leafL x.leaf) (show hitsB loggedAt .store (ea loggedAt) _ = true by decide +kernel)
    exact ⟨x, (stored_logged hp (by decide +kernel)).elim fun u h => ⟨u, hr, h⟩⟩
  · obtain ⟨x, hr, hp⟩ := hits_of (P := fun x => decide (leafL x.leaf = false ∧ kindOf x.pa = 0))
      (show hitsB nearby .store (ea nearby) _ = true by decide +kernel)
    simp only [decide_eq_true_eq] at hp
    exact ⟨x, (stored_slice hp.1 hp.2).elim fun u h => ⟨u, hr, h⟩⟩
  · obtain ⟨x, hr, hp⟩ := hits_of (P := fun x => decide (leafL x.leaf = false ∧ kindOf x.pa = 1))
      (show hitsB remote .store (ea remote) _ = true by decide +kernel)
    simp only [decide_eq_true_eq] at hp
    exact ⟨x, (stored_far hp.1 hp.2 (by decide)).elim fun u h => ⟨u, hr, h⟩⟩
  · obtain ⟨x, hr, hp⟩ := hits_of (P := fun x => decide (leafL x.leaf = false ∧ kindOf x.pa = 3) && someB
        ((maskRuns (fun j => decide (j < (bytes 8 0).length) && true) 16 0).foldlM (fun v r =>
          v.devStore ((x.pa + r.1) % 2 ^ 48) (v.summed device.turn none (x.pa + r.1) (((bytes 8 0).drop r.1).take (2 ^ r.2)))) device)
        (fun _ => true)) (show hitsB device .store (ea device) _ = true by decide +kernel)
    simp only [Bool.and_eq_true, decide_eq_true_eq] at hp
    obtain ⟨u, hu, -⟩ := some_of hp.2
    exact ⟨x, (stored_device hp.1.1 hp.1.2 hu).elim fun u h => ⟨u, hr, h⟩⟩
  · exact (hits_of (P := fun _ => true) (by decide +kernel)).elim fun x h => ⟨x, h.1⟩

/-- The four planes at an address: reached, on a plane-group page, with no record of the own log, no access of the core and no poison in
their way. -/
def Planes (s : State) (acc : Acc) (ea : Word) (planes : Nat) (P : Xl → Bool) : Prop :=
  ¬ (256 ≤ ea.toNat % 1024 ∨ ea.toNat % 256 % 4 ≠ 0) ∧ ∃ x, Reaches s acc ea x ∧ leafB x.leaf = true ∧ Clear s x (planeLines x.pa planes)
    ∧ (∀ j, j < 4 → s.unitBusy s.turn (x.pa + 256 * j) = false) ∧ s.serves x.pa = true
    ∧ planePoison (s.eccPlanes x.pa 4 planes) x.pa 4 planes = .ok () ∧ P x = true

theorem planes_of {s : State} {acc : Acc} {ea : Word} {planes : Nat} {P : Xl → Bool} (h : ¬ (256 ≤ ea.toNat % 1024 ∨ ea.toNat % 256 % 4 ≠ 0))
    (hx : hitsB s acc ea (fun x => leafB x.leaf && (s.ownHit s.turn (leafL x.leaf) (planeLines x.pa planes)).isNone
      && (List.range 4).all (fun j => !s.unitBusy s.turn (x.pa + 256 * j)) && s.serves x.pa
      && okB (planePoison (s.eccPlanes x.pa 4 planes) x.pa 4 planes) (fun _ => true) && P x) = true) : Planes s acc ea planes P := by
  obtain ⟨x, hr, hp⟩ := hits_of hx
  simp only [Bool.and_eq_true, List.all_eq_true, List.mem_range, Bool.not_eq_true'] at hp
  exact ⟨h, x, hr, hp.1.1.1.1.1, none_of hp.1.1.1.1.2, hp.1.1.1.2, hp.1.1.2, (ok_of hp.1.2).elim fun _ h => h.1, hp.2⟩

/-- x1 names planes of the own slice, of direct and of logged bulk memory; x2 a scale byte or a descriptor in the own slice. -/
def planesNear : State := withX [(1, 0x200FC), (2, 0x10100)]
def planesFar : State := withX [(1, 0x40000), (2, 0x10100)]
def planesLogged : State := withX [(1, 0x60400), (2, 0x10100)]
/-- A descriptor of `padam` that names a scale: word 0 is its address. -/
def planesAdam : State := put 0x100 [0x10200, 0x3F8000003F800000] planesNear

theorem test_witness_PlanedResults :
    (Meets (withX [(1, 0x20100)]) 7 [1, 0] ∧ 256 ≤ (ea (withX [(1, 0x20100)])).toNat % 1024)
    ∧ (Meets (withX [(1, 0x20002)]) 7 [1, 0] ∧ (ea (withX [(1, 0x20002)])).toNat % 256 % 4 ≠ 0)
    ∧ (Meets remote 7 [1, 0] ∧ ∃ x, Reaches remote .load (ea remote) x ∧ leafB x.leaf = false)
    ∧ (Meets planesNear 7 [1, 2] ∧ Unmodified (some 0) ∧ modCheck (some 8) false true false = none ∧ dN 0x1F = false ∧ dN 0x3F = true
      ∧ Planes planesNear .load (ea planesNear) 4 (near planesNear) ∧ Planes planesNear .store (X planesNear 1) 4 (near planesNear))
    ∧ (Meets planesFar 7 [1, 2] ∧ Planes planesFar .load (ea planesFar) 4 (fun x => !near planesFar x)
      ∧ Planes planesFar .store (X planesFar 1) 4 (fun x => !leafL x.leaf && decide (kindOf x.pa = 1)))
    ∧ (Meets planesLogged 7 [1, 2] ∧ Planes planesLogged .store (X planesLogged 1) 4 (fun x => leafL x.leaf)
      ∧ (planesLogged.core 5).log.room 1 = true)
    ∧ (∃ y raw, Reaches planesNear .load (X planesNear 2 + BitVec.ofNat 64 ((X planesNear 1).toNat % 256 / 32)) y
      ∧ (envOf (.pupd ⟨none, 3, 1, 2, 0⟩) planesNear).readNow y 1 = .ok raw)
    ∧ ((X planesNear 2).toNat % 16 = 0 ∧ ∃ y, Reaches planesNear .load (X planesNear 2) y
      ∧ ∃ raw, (envOf (.padam ⟨none, 3, 1, 2, 0⟩) planesNear).readNow y 16 = .ok raw ∧ decide (ofBytes raw % 2 ^ 60 = 0) = true)
    ∧ (Meets planesAdam 7 [1, 2] ∧ ∃ y, Reaches planesAdam .load (X planesAdam 2) y
      ∧ ∃ raw, (envOf (.padam ⟨none, 3, 1, 2, 0⟩) planesAdam).readNow y 16 = .ok raw ∧ decide (ofBytes raw % 2 ^ 60 = 0x10200) = true) := by
  refine ⟨⟨meets_of (by decide +kernel) (by decide), by decide +kernel⟩, ⟨meets_of (by decide +kernel) (by decide), by decide +kernel⟩,
    ⟨meets_of (by decide +kernel) (by decide), ?_⟩,
    ⟨meets_of (by decide +kernel) (by decide), .inr rfl, by decide, by decide, by decide, planes_of (by decide +kernel) (by decide +kernel),
      planes_of (by decide +kernel) (by decide +kernel)⟩,
    ⟨meets_of (by decide +kernel) (by decide), planes_of (by decide +kernel) (by decide +kernel), planes_of (by decide +kernel) (by decide +kernel)⟩,
    ⟨meets_of (by decide +kernel) (by decide), planes_of (by decide +kernel) (by decide +kernel), by decide +kernel⟩, ?_, ⟨by decide +kernel, ?_⟩,
    ⟨meets_of (by decide +kernel) (by decide), ?_⟩⟩
  · obtain ⟨x, hr, hp⟩ := hits_of (P := fun x => !leafB x.leaf) (show hitsB remote .load (ea remote) _ = true by decide +kernel)
    exact ⟨x, hr, by simpa using hp⟩
  · obtain ⟨y, hr, hp⟩ := hits_of (P := fun y => okB ((envOf (.pupd ⟨none, 3, 1, 2, 0⟩) planesNear).readNow y 1) (fun _ => true))
      (show hitsB planesNear .load (X planesNear 2 + BitVec.ofNat 64 ((X planesNear 1).toNat % 256 / 32)) _ = true by decide +kernel)
    exact ⟨y, (ok_of hp).elim fun raw h => ⟨raw, hr, h.1⟩⟩
  · obtain ⟨y, hr, hp⟩ := hits_of (P := fun y => okB ((envOf (.padam ⟨none, 3, 1, 2, 0⟩) planesNear).readNow y 16)
      (fun raw => decide (ofBytes raw % 2 ^ 60 = 0))) (show hitsB planesNear .load (X planesNear 2) _ = true by decide +kernel)
    exact ⟨y, hr, ok_of hp⟩
  · obtain ⟨y, hr, hp⟩ := hits_of (P := fun y => okB ((envOf (.padam ⟨none, 3, 1, 2, 0⟩) planesAdam).readNow y 16)
      (fun raw => decide (ofBytes raw % 2 ^ 60 = 0x10200))) (show hitsB planesAdam .load (X planesAdam 2) _ = true by decide +kernel)
    exact ⟨y, hr, ok_of hp⟩

/-- A record of the worker's in the log of its core, published or not. -/
def rec' (st : RecState) (seq : BitVec 48) : LogRec :=
  { kind := 0, size := 3, fmt := 0, pa := BitVec.ofNat 52 (2 ^ 48 + 0x30000), rm := false, ctx := 3, seq := seq, data := 0, home := 6, st := st }

def withLog (l : List LogRec) : State :=
  withC (fun k => { k with log := { k.log with
    recs := l, tail := BitVec.ofNat 48 l.length, lastPub := (l.filter (fun r => r.st == .published)).map (fun r => (3, r.seq)) |>.reverse } }) (withX [(1, 1), (2, 0x10000)])

/-- An acquire of the next bundle in its stages: none yet, its set fixed, and completed. -/
def acquiring (a : Option (Nat × Option (List Point))) : State := withK (fun k => { k with acq := a }) (withLog [])

/-- A direct store and a load of the thread are on their way. -/
def storing : State := { base with flight := [{ src := 5, dst := 2 ^ 60, body := .store 3 (2 ^ 48 + 0x10000) [1] 1 none }] }

theorem test_witness_LogInstructionResults :
    (Meets (withLog [rec' .published 0, rec' .unpublished 1]) 7 [1] ∧ ∃ l, ((withLog [rec' .published 0, rec' .unpublished 1]).core 5).log.drop 3
      ((X (withLog [rec' .published 0, rec' .unpublished 1]) 1).setWidth 48) = some l)
    ∧ (Meets (withLog [rec' .published 0, rec' .published 1]) 7 [1]
      ∧ ((withLog [rec' .published 0, rec' .published 1]).core 5).log.drop 3 ((X (withLog [rec' .published 0, rec' .published 1]) 1).setWidth 48) = none)
    ∧ (Meets (withLog []) 7 [1, 2] ∧ (X (withLog []) 1).toNat % 8 ≠ 0 ∧ (X (withLog []) 2).toNat % 8 = 0)
    ∧ (Meets (acquiring (some (1, none))) 7 [2] ∧ 0 < (now (acquiring (some (1, none)))).acquired
      ∧ ∃ x, Reaches (acquiring (some (1, none))) .load (X (acquiring (some (1, none))) 2) x)
    ∧ (Meets (acquiring (some (0, some [⟨5, 0⟩]))) 7 [2] ∧ (now (acquiring (some (0, some [⟨5, 0⟩])))).acq = some (0, some [⟨5, 0⟩]))
    ∧ (Meets (acquiring none) 7 [2] ∧ (now (acquiring none)).acq = none
      ∧ ∃ set, (envOf (.acq ⟨none, 2, 0⟩) (acquiring none)).logSet (X (acquiring none) 2) = .ok set)
    ∧ base.fenced 5 3 = true ∧ base.storesDone 5 3 = true
    ∧ (Meets storing 7 [] ∧ storing.fenced 5 3 = false ∧ storing.storesDone 5 3 = false) := by
  refine ⟨⟨meets_of (by decide +kernel) (by decide), ?_⟩, ⟨meets_of (by decide +kernel) (by decide), none_of (by decide +kernel)⟩,
    ⟨meets_of (by decide +kernel) (by decide), by decide +kernel, by decide +kernel⟩,
    ⟨meets_of (by decide +kernel) (by decide), by decide +kernel, ?_⟩, ⟨meets_of (by decide +kernel) (by decide), rfl⟩,
    ⟨meets_of (by decide +kernel) (by decide), rfl, ?_⟩, by decide +kernel, by decide +kernel,
    ⟨meets_of (by decide +kernel) (by decide), by decide +kernel, by decide +kernel⟩⟩
  · exact (some_of (P := fun _ => true) (by decide +kernel)).elim fun l h => ⟨l, h.1⟩
  · exact (hits_of (P := fun _ => true) (by decide +kernel)).elim fun x h => ⟨x, h.1⟩
  · exact (ok_of (P := fun _ => true) (by decide +kernel)).elim fun x h => ⟨x, h.1⟩

/-- A scale entry, of format t, in the own slice (entry 1) whose number x2 holds; x1 names a place of the own slice for the codes. -/
def scaled (t : Nat) : State := put 0x4078 [t * 2 ^ 16] (withX [(1, 0x10100), (2, 1)] noEncode)

/-- The entry of the statements. -/
def entryOf (s : State) : Word := (s.region (now s).region.toNat).scale.setWidth 64 + BitVec.ofNat 64 (64 * ((X s 2).toNat % 4096))

def Entry (s : State) (P : Xl → Bool) : Prop :=
  (entryOf s).toNat % 8 = 0 ∧ ∃ y, Reaches s .load (entryOf s) y ∧ leafL y.leaf = false ∧ leafW y.leaf = true ∧ kindOf y.pa ≤ 1
    ∧ (∃ raw, (envOf (.stq ⟨none, 3, 1, 2, 0⟩) s).readNow y 64 = .ok raw) ∧ (∃ raw, (envOf (.scalc ⟨none, 3, 2, 0⟩) s).readNow y 64 = .ok raw)
    ∧ P y = true

theorem entry_of {s : State} {P : Xl → Bool} (h : (entryOf s).toNat % 8 = 0)
    (hx : hitsB s .load (entryOf s) (fun y => decide (leafL y.leaf = false ∧ leafW y.leaf = true ∧ kindOf y.pa ≤ 1)
      && okB ((envOf (.stq ⟨none, 3, 1, 2, 0⟩) s).readNow y 64) (fun _ => true)
      && okB ((envOf (.scalc ⟨none, 3, 2, 0⟩) s).readNow y 64) (fun _ => true) && P y) = true) : Entry s P := by
  obtain ⟨y, hr, hp⟩ := hits_of hx
  simp only [Bool.and_eq_true, decide_eq_true_eq] at hp
  exact ⟨h, y, hr, hp.1.1.1.1, hp.1.1.1.2.1, hp.1.1.1.2.2, (ok_of hp.1.1.2).elim fun r h => ⟨r, h.1⟩, (ok_of hp.1.2).elim fun r h => ⟨r, h.1⟩, hp.2⟩

theorem test_witness_ScaleEntryResults :
    (Meets (scaled 10) 7 [1, 2] ∧ modCheck (some 8) false true false = none ∧ Unmodified (some 0) ∧ dN 0x1F = false
      ∧ (now (scaled 10)).loaded = [] ∧ Entry (scaled 10) (fun y => decide (((scaled 10).scaleEnt y.pa).tfmt = 10)))
    ∧ (Meets (scaled 7) 7 [1, 2] ∧ Entry (scaled 7) (fun y => decide (((scaled 7).scaleEnt y.pa).tfmt = 7))
      ∧ (((scaled 7).core 5).decTab 1).enc = false)
    ∧ (Meets (scaled 6) 7 [1, 2] ∧ Entry (scaled 6) (fun y => (tfmtTrap ((scaled 6).core 5) ((scaled 6).scaleEnt y.pa)).isNone)
      ∧ (X (scaled 6) 1).toNat % 16 = 0 ∧ ∃ x u, Reaches (scaled 6) .store (X (scaled 6) 1) x
        ∧ Stored (scaled 6) 0 x (bytes 4 0) (fun _ => true) none u) := by
  refine ⟨⟨meets_of (by decide +kernel) (by decide), by decide, .inr rfl, by decide, by decide +kernel, entry_of (by decide +kernel) (by decide +kernel)⟩,
    ⟨meets_of (by decide +kernel) (by decide), entry_of (by decide +kernel) (by decide +kernel), by decide +kernel⟩,
    ⟨meets_of (by decide +kernel) (by decide), entry_of (by decide +kernel) (by decide +kernel), by decide +kernel, ?_⟩⟩
  obtain ⟨x, hr, hp⟩ := hits_of (P := fun x => decide (leafL x.leaf = false ∧ kindOf x.pa = 0))
    (show hitsB (scaled 6) .store (X (scaled 6) 1) _ = true by decide +kernel)
  simp only [decide_eq_true_eq] at hp
  exact ⟨x, (stored_slice hp.1 hp.2).elim fun u h => ⟨u, hr, h⟩⟩

/-- Rings of core 5: 0 and 1 of four entries of 8 KiB, the first with one full entry, the other full; 2 too small; 3 disabled; 4 of a
reserved layout. x1 and x2 hold binding words. -/
def ring (entry layout en : Nat) : Ring := { desc := BitVec.ofNat 64 (layout * 2 ^ 60 + 3 * 2 ^ 40 + entry * 2 ^ 37 + en) }
def rings : Tab Ring :=
  [(0, { (ring 4 1 1) with tail := 1, ents := [(0, { st := 2 })] }),
   (1, { (ring 4 1 1) with tail := 4, ents := [(0, { st := 2 }), (1, { st := 2 }), (2, { st := 2 }), (3, { st := 2 })] }),
   (2, ring 0 1 1), (3, ring 4 1 0), (4, ring 4 11 1)]
def ringed : State :=
  put 0x240 [0x100, 2, 3, 0, 0, 0, 0, 0] (put 0x200 [0x108, 2, 3, 0, 0, 0, 0, 0]
    (withX [(1, 2 ^ 61 + 0x1000007), (2, 3 * 2 ^ 61 + 0x200), (3, 3 * 2 ^ 61 + 0x240), (4, 3 * 2 ^ 61 + 0x1C0000), (5, 5 * 2 ^ 61), (6, 2 ^ 61 + 0x1000)]
      (withC (fun k => { k with rings := rings }))))

theorem test_witness_RingStreamResults :
    Meets ringed 7 [1, 2, 3, 4, 5, 6] ∧ Unmodified (some 0)
    ∧ (dN 0x1C = false ∧ (0x1C : BitVec 6).toNat % 4 = 0 ∧ (0x1D : BitVec 6).toNat % 4 ≠ 0 ∧ 31 < (0x20 : BitVec 6).toNat)
    ∧ (∃ u, ringed.ringWrite 5 0 (((List.range 4).map (fun j => toBytes 16 ((now ringed).rv (28 + j)).toNat)).flatten) = some u)
    ∧ ringed.ringWrite 5 1 (((List.range 4).map (fun j => toBytes 16 ((now ringed).rv (28 + j)).toNat)).flatten) = none
    ∧ ringEn ((ringed.core 5).ring 3).desc = false ∧ efmtReserved (ringLayout ((ringed.core 5).ring 4).desc) = true
    ∧ ((ringed.core 5).ring 0).head < ((ringed.core 5).ring 0).tail ∧ ¬ ((ringed.core 5).ring 2).head < ((ringed.core 5).ring 2).tail
    ∧ bitsN (X ringed 1) 61 3 = 1 ∧ bitsN (X ringed 1) 12 12 = 0 ∧ bitsN (X ringed 6) 12 12 ≠ 0 ∧ 4 < bitsN (X ringed 5) 61 3
    ∧ 0x1C0000 ≤ 64 * bitsN (X ringed 4) 6 15
    ∧ (∃ raw, (envOf (.sbind ⟨none, 24, 2, 0⟩) ringed).readNow { pa := 5 * 2 ^ 21 + 0x200, leaf := 0 } 64 = .ok raw)
    ∧ (∃ raw, (envOf (.sbind ⟨none, 31, 3, 0⟩) ringed).readNow { pa := 5 * 2 ^ 21 + 0x240, leaf := 0 } 64 = .ok raw)
    ∧ Meets firm 7 [1] ∧ 4096 ≤ firm.turn := by
  refine ⟨meets_of (by decide +kernel) (by decide), .inr rfl, by decide, ?_, none_of (by decide +kernel), by decide +kernel, by decide +kernel,
    by decide +kernel, by decide +kernel, by decide +kernel, by decide +kernel, by decide +kernel, by decide +kernel, by decide +kernel, ?_, ?_,
    meets_of (by decide +kernel) (by decide), by decide +kernel⟩
  · exact (some_of (P := fun _ => true) (by decide +kernel)).elim fun u h => ⟨u, h.1⟩
  · exact (ok_of (P := fun _ => true) (by decide +kernel)).elim fun u h => ⟨u, h.1⟩
  · exact (ok_of (P := fun _ => true) (by decide +kernel)).elim fun u h => ⟨u, h.1⟩

/-- Cluster 3 has a window of 24 cells from cell 16 for tenant 5: x1 and x2 name its first and last cell, x3 and x4 the cells beside
them, x5 no cell. -/
def celled : State :=
  { (withX [(1, 3088), (2, 3111), (3, 3087), (4, 3112), (5, 524288)]) with
    clusters := [(3, { window := BitVec.ofNat 64 (5 * 2 ^ 25 + 24 * 2 ^ 10 + 16) })] }

theorem test_witness_SyncCellResults :
    Meets celled 7 [1, 2] ∧ Unmodified (some 0)
    ∧ (let w := (celled.cluster 3).window
      bitsN w 25 7 ≠ 0 ∧ field w 25 7 = (celled.core 5).tag
      ∧ (∀ a ∈ [(1 : BitVec 6), 2], (X celled a).toNat / 1024 = 3 ∧ bitsN w 0 10 ≤ (X celled a).toNat % 1024
        ∧ (X celled a).toNat % 1024 < bitsN w 0 10 + bitsN w 10 11)
      ∧ (X celled 3).toNat % 1024 < bitsN w 0 10 ∧ bitsN w 0 10 + bitsN w 10 11 ≤ (X celled 4).toNat % 1024)
    ∧ ¬ (X celled 5).toNat < 524288 :=
  ⟨meets_of (by decide +kernel) (by decide), .inr rfl, by decide +kernel, by decide +kernel⟩

/-! ### Witnesses: matrix instructions -/

/-- Descriptors in the own slice: an epilogue that stores FP32 rows at 0x30000 (0x10300), grouped operations on bin channel 9 (0x10600),
with a reserved bit (0x10640) and on channel 8 (0x10680). x1 holds the operand word of rings 0 and 0, x2 one with reserved bits, x3 one
whose A is ring 2, x4 one whose B is ring 2, x8 names the epilogue. -/
def descriptors (s : State) : State :=
  put 0x680 [0x10000, 2 ^ 16 + 8, 0x3F * 2 ^ 32, 0, 0, 0, 0, 0] (put 0x640 [0x10000, 2 ^ 26 + 9, 0x3F * 2 ^ 32, 0, 0, 0, 0, 0]
    (put 0x600 [0x10000, 2 ^ 16 + 9, 0x3F * 2 ^ 32, 0, 0, 0, 0, 0] (put 0x300 [2 ^ 60 + 0x30000, 6 * 2 ^ 60 + 0x3F * 2 ^ 47, 64, 0, 0, 0, 0, 0] s)))

def bin (kind : Nat) : Chan :=
  { kind := kind, state := 1, shape := 4096, depth := 8, rpkg := 3, rcore := 5, buf := 0x40000 }

/-- A dense multiply of queue q. -/
def op (n q : Nat) : MatOp :=
  { id := n, ctx := 3, gen := none, region := 7, pc := 0, q := q, tile := 9, sparse := false, fa := 0, fb := 0, fw := none, z := false
    ck := false, word := 0, a := none, b := none, grp := none, epi := none }

def matrix (mat : List MatOp) (busy : BitVec 32) : State :=
  { (descriptors (withX [(1, 0), (2, 2 ^ 40), (3, 2), (4, 2 * 2 ^ 8), (5, 0x10600), (6, 0x10640), (7, 0x10680), (8, 0x10300)]
      (withC (fun k => { k with rings := rings, mat := mat, busy := busy })))) with
    chans := [(7 * 4096 + 8, bin 1), (7 * 4096 + 9, bin 3)] }

/-- The parts of an operand word that make it illegal for a plain format. -/
def badWord (w : Word) : Bool :=
  decide (bitsN w 32 32 ≠ 0 ∨ bit w 19 = true ∨ bitsN w 14 2 ≠ 0 ∨ bitsN w 6 2 ≠ 0 ∨ bitsN w 20 4 ≠ 0
    ∨ (bitsN w 26 3 ≠ 0 ∧ bit w 24 = true) ∨ (bitsN w 29 3 ≠ 0 ∧ bit w 25 = false))

theorem test_witness_MatrixMultiplyResults :
    (Meets (matrix [] 0) 7 [1, 8] ∧ (now (matrix [] 0)).loaded = [] ∧ badWord (X (matrix [] 0) 1) = false ∧ ((matrix [] 0).core 5).queueLen 0 < 2
      ∧ TileFree (matrix [] 0) 3 ∧ ringTooSmall (((matrix [] 0).core 5).ring 0) (regionsOf 128 false true none).size = false
      ∧ (matrix [] 0).storesDone 5 3 = true ∧ ∃ d, (envOf (.mmE4m3 ⟨none, 3, 1, 8, 0⟩) (matrix [] 0)).epi (X (matrix [] 0) 8) = .ok d)
    ∧ (badWord (X (matrix [] 0) 2) = true ∧ bit ((matrix [] 0).core 5).busy (physTile (now (matrix [] 0)).tiles 3) = false
      ∧ winCount (now (matrix [] 0)).tiles ≤ 4)
    ∧ (bitsN (X (matrix [] 0) 3) 0 5 = 2 ∧ bitsN (X (matrix [] 0) 4) 8 5 = 2
      ∧ ringTooSmall (((matrix [] 0).core 5).ring 2) (regionsOf 128 false false none).size = true)
    ∧ (Meets (matrix [op 1 0, op 2 0] 0) 7 [1, 0] ∧ 2 ≤ ((matrix [op 1 0, op 2 0] 0).core 5).queueLen 0)
    ∧ (modCheck (some 0x1F00) true false false = none ∧ fwReserved (modFw (some 0x0000)) = false ∧ fwReserved (modFw (some 0x3000)) = true) := by
  refine ⟨⟨meets_of (by decide +kernel) (by decide), by decide +kernel, by decide +kernel, by decide +kernel, by unfold TileFree; decide +kernel,
    by decide +kernel, by decide +kernel, ?_⟩, by decide +kernel, by decide +kernel, ⟨meets_of (by decide +kernel) (by decide), by decide +kernel⟩,
    by decide⟩
  exact (ok_of (P := fun _ => true) (by decide +kernel)).elim fun d h => ⟨d, h.1⟩

theorem test_witness_GroupedMultiplyResults :
    (Meets (matrix [] 0) 7 [5, 8] ∧ (now (matrix [] 0)).loaded = [] ∧ TileFree (matrix [] 0) 3
      ∧ (∃ ed, (envOf (.mmgE4m3 ⟨none, 3, 5, 8, 0⟩) (matrix [] 0)).epi (X (matrix [] 0) 8) = .ok ed ∧ (!ed.tr) = true)
      ∧ (matrix [] 0).storesDone 5 3 = true ∧ ((matrix [] 0).core 5).queueLen 0 < 2
      ∧ (∃ x, Reaches (matrix [] 0) .load 0x10000 x ∧ decide (kindOf x.pa = 0 ∧ sliceCore x.pa = 5) = true)
      ∧ (∃ ch, (matrix [] 0).chans.get? (chanKey 7 9) = some ch ∧ decide (ch.kind = 3 ∧ ch.rcore = 5 ∧ 2 * 128 * 8 / 8 ≤ ch.shape) = true))
    ∧ (∃ gw, (envOf (.mmgE4m3 ⟨none, 3, 5, 8, 0⟩) (matrix [] 0)).desc (X (matrix [] 0) 5) 8 64 = .ok gw
      ∧ decide (bitsN (gw.getD 1 0) 26 38 = 0 ∧ bitsN (gw.getD 1 0) 0 12 = 9) = true)
    ∧ (∃ gw, (envOf (.mmgE4m3 ⟨none, 3, 6, 8, 0⟩) (matrix [] 0)).desc (X (matrix [] 0) 6) 8 64 = .ok gw
      ∧ decide (bitsN (gw.getD 1 0) 26 38 ≠ 0) = true)
    ∧ (∃ gw, (envOf (.mmgE4m3 ⟨none, 3, 7, 8, 0⟩) (matrix [] 0)).desc (X (matrix [] 0) 7) 8 64 = .ok gw
      ∧ decide (bitsN (gw.getD 1 0) 0 12 = 8) = true)
    ∧ (∃ ch, (matrix [] 0).chans.get? (chanKey 7 8) = some ch ∧ decide (ch.kind ≠ 3) = true)
    ∧ bit ((matrix [] 0).core 5).busy (physTile (now (matrix [] 0)).tiles 3) = false :=
  ⟨⟨meets_of (by decide +kernel) (by decide), by decide +kernel, by unfold TileFree; decide +kernel, ok_of (by decide +kernel), by decide +kernel,
    by decide +kernel, hits_of (by decide +kernel), some_of (by decide +kernel)⟩, ok_of (by decide +kernel), ok_of (by decide +kernel),
    ok_of (by decide +kernel), some_of (by decide +kernel), by decide +kernel⟩

/-- Entries in the epilogue queue. -/
def waiting (n : Nat) : State := withC (fun k => { k with epi := (List.range n).map (fun i =>
  { kind := 1, ctx := 3, region := 7, gen := none, tile := 9, desc := plainDesc 0 64 0, id := i }) }) (matrix [] 0)

/-- Operands of tile transfers: x1 an address of the own slice, x2 one of bulk memory that is no multiple of 64, x5 a counter and the
stride 64, x6 reserved bits, x7 a stride of 32, x8 the epilogue. -/
def tiled (n : Nat) (busy : BitVec 32) : State :=
  withX [(1, 0x10400), (2, 0x30020), (5, 64 * 2 ^ 32 + 3), (6, 0x40), (7, 32 * 2 ^ 32)] (withC (fun k => { k with busy := busy }) (waiting n))

theorem test_witness_TileInstructionResults :
    (Meets (tiled 3 0) 7 [1, 5] ∧ Unmodified (some 0) ∧ TileFree (tiled 3 0) 3 ∧ winCount (now (tiled 3 0)).tiles ≤ 4
      ∧ bitsN (X (tiled 3 0) 5) 6 26 = 0 ∧ ((tiled 3 0).core 5).epi.length < 4
      ∧ (envOf (.mtld ⟨none, 3, 1, 5, 0⟩) (tiled 3 0)).forkWait ((List.range 16).map (fun r => ((X (tiled 3 0) 1).toNat + r * 64, 64))) = []
      ∧ (X (tiled 3 0) 1).toNat % 64 = 0 ∧ (∃ x, Reaches (tiled 3 0) .load (X (tiled 3 0) 1) x) ∧ ∃ x, Reaches (tiled 3 0) .store (X (tiled 3 0) 1) x)
    ∧ ((X (tiled 3 0) 2).toNat % 64 ≠ 0 ∧ (∃ x, Reaches (tiled 3 0) .load (X (tiled 3 0) 2) x)
      ∧ (envOf (.mtld ⟨none, 3, 2, 5, 0⟩) (tiled 3 0)).forkWait ((List.range 16).map (fun r => ((X (tiled 3 0) 2).toNat + r * 64, 64))) = [])
    ∧ (bitsN (X (tiled 3 0) 6) 6 26 ≠ 0 ∧ bitsN (X (tiled 3 0) 7) 32 32 % 64 ≠ 0)
    ∧ (Meets (tiled 4 8) 7 [8] ∧ 3 < winCount (now (tiled 4 8)).tiles ∧ bit ((tiled 4 (1#32 <<< physTile 0x402 3)).core 5).busy (physTile 0x402 3) = true)
    ∧ (Meets (tiled 3 0) 7 [8] ∧ (tiled 3 0).storesDone 5 3 = true ∧ ∃ d, (envOf (.mepi ⟨none, 3, 8, 0⟩) (tiled 3 0)).epi (X (tiled 3 0) 8) = .ok d)
    ∧ (Meets (tiled 4 0) 7 [8] ∧ TileFree (tiled 4 0) 3 ∧ 4 ≤ ((tiled 4 0).core 5).epi.length
      ∧ ∃ d, (envOf (.mepi ⟨none, 3, 8, 0⟩) (tiled 4 0)).epi (X (tiled 4 0) 8) = .ok d) := by
  exact ⟨⟨meets_of (by decide +kernel) (by decide), .inr rfl, by unfold TileFree; decide +kernel, by decide +kernel, by decide +kernel, by decide +kernel,
      by decide +kernel, by decide +kernel, reach (by decide +kernel), reach (by decide +kernel)⟩,
    ⟨by decide +kernel, reach (by decide +kernel), by decide +kernel⟩, by decide +kernel,
    ⟨meets_of (by decide +kernel) (by decide), by decide +kernel, by decide +kernel⟩,
    ⟨meets_of (by decide +kernel) (by decide), by decide +kernel, good (by decide +kernel)⟩,
    ⟨meets_of (by decide +kernel) (by decide), by unfold TileFree; decide +kernel, by decide +kernel, good (by decide +kernel)⟩⟩

/-! ### Witnesses: copies, channels, routing -/

/-- A control word of a copy: length, operation number, and the low bits. -/
def control (len opn rest : Nat) : Nat := len * 2 ^ 40 + opn * 2 ^ 24 + rest

/-- A copy of the core's list. -/
def copyNo (n opn : Nat) : Copy :=
  { id := n, ctx := 3, region := 7, opn := BitVec.ofNat 16 opn, src := 0x30000, dst := 0x10100, rows := 2, len := 320, sstr := 1024, dstr := 512
    tag := 3, cq := 0, mb := false, deadline := none }

/-- n copies stand in the list, m commands in the queue. x1 and x2 are source and destination, x3 and x4 control words, the second with
a reserved bit, x5 a misaligned source, x8 and x9 descriptors of `copy2`, the second with a reserved bit; x10 a control word whose
length is that of an entry of ring 0. -/
def copying (n m : Nat) : State :=
  put 0x320 [control 64 4 0x41, 3, 128, 64] (put 0x300 [control 64 4 1, 0xFFFF, 128, 64]
    (withX [(1, 0x10800), (2, 0x30900), (3, BitVec.ofNat 64 (control 64 3 0x3F)), (4, BitVec.ofNat 64 (control 64 3 0x40)), (5, 0x10708),
            (8, 0x10300), (9, 0x10320), (10, BitVec.ofNat 64 (control 8192 3 0x3F))]
      (withC (fun k => { k with copies := (List.range n).map (copyNo · 1), cmdq := (List.range m).map .copy, rings := rings }))))

theorem test_witness_CopyResults :
    (Meets (copying 63 15) 7 [1, 2] ∧ Unmodified (some 0) ∧ dN 0x03 = false ∧ ((copying 63 15).core 5).copies.length < 64
      ∧ ((copying 63 15).core 5).cmdq.length < 16 ∧ bitsN ((now (copying 63 15)).rx 3) 6 7 = 0 ∧ bitsN ((now (copying 63 15)).rx 4) 6 7 ≠ 0
      ∧ (∃ x, Reaches (copying 63 15) .load (X (copying 63 15) 1) x) ∧ (∃ x, Reaches (copying 63 15) .store (X (copying 63 15) 2) x)
      ∧ (envOf (.copy ⟨none, 3, 1, 2, 0⟩) (copying 63 15)).forkWait (copySources (X (copying 63 15) 1) 1 64 0) = []
      ∧ (X (copying 63 15) 5).toNat % 16 ≠ 0 ∧ ∃ x, Reaches (copying 63 15) .load (X (copying 63 15) 5) x)
    ∧ (∃ l, (envOf (.copy2 ⟨none, 8, 1, 2, 0⟩) (copying 63 15)).desc ((now (copying 63 15)).rx 8) 4 32 = .ok l
      ∧ decide (bitsN (l.getD 0 0) 6 7 = 0 ∧ bitsN (l.getD 1 0) 16 48 = 0) = true)
    ∧ (∃ l, (envOf (.copy2 ⟨none, 9, 1, 2, 0⟩) (copying 63 15)).desc ((now (copying 63 15)).rx 9) 4 32 = .ok l
      ∧ decide (bitsN (l.getD 0 0) 6 7 ≠ 0) = true)
    ∧ (envOf (.copy2 ⟨none, 9, 1, 2, 0⟩) (copying 63 15)).forkWait (copySources (X (copying 63 15) 1) 4 64 128) = []
    ∧ (Meets (copying 64 0) 7 [1, 2] ∧ ((copying 64 0).core 5).copies.length = 64 ∧ bitsN ((now (copying 64 0)).rx 3) 6 7 = 0)
    ∧ (Meets (copying 63 15) 7 [1] ∧ (0x1F : BitVec 6).toNat = 31 ∧ ringEn (((copying 63 15).core 5).ring 0).desc = true
      ∧ bitsN ((now (copying 63 15)).rx 10) 40 24 = ringEntry (((copying 63 15).core 5).ring 0).desc
      ∧ bitsN ((now (copying 63 15)).rx 3) 40 24 ≠ ringEntry (((copying 63 15).core 5).ring 0).desc
      ∧ ringEn (((copying 63 15).core 5).ring 3).desc = false
      ∧ (envOf (.copyr ⟨none, 10, 1, 0, 0⟩) (copying 63 15)).forkWait [((X (copying 63 15) 1).toNat, 8192)] = []) :=
  ⟨⟨meets_of (by decide +kernel) (by decide), .inr rfl, by decide, by decide +kernel, by decide +kernel, by decide +kernel, by decide +kernel,
      reach (by decide +kernel), reach (by decide +kernel), by decide +kernel, by decide +kernel, reach (by decide +kernel)⟩,
    ok_of (by decide +kernel), ok_of (by decide +kernel), by decide +kernel,
    ⟨meets_of (by decide +kernel) (by decide), by decide +kernel, by decide +kernel⟩,
    ⟨meets_of (by decide +kernel) (by decide), by decide, by decide +kernel, by decide +kernel, by decide +kernel, by decide +kernel, by decide +kernel⟩⟩

/-- A parked continuation of region 7, a waiter, and an endpoint of a core with n credits. -/
def contAt (n : Nat) : Cont := { rcd := { pc := BitVec.ofNat 60 (64 * n), region := 7 } }
def waiter : Waiter := { cont := contAt 9, core := 5, a := 0x10840, d := 0xFFF }
def endpoint (c n r : Nat) (w : Option Waiter) : SendEp := { pkg := 3, core := c, efb := 0x5000, credit := n, reserved := r, sent := n, waiter := w }
def element (slot : Nat) (token reserved : Bool) : Elem := { src := 0, token := token, slot := slot, reserved := reserved }

/-- A point-to-point channel whose receiver is core c. -/
def chan (c : Nat) (eps : List SendEp) (elems : List Elem) : Chan :=
  { kind := 0, state := 1, shape := 64, depth := 8, rpkg := 3, rcore := c, buf := 0x6000, eps := eps, elems := elems
    used := elems.map (·.slot) }

/-- Channels of region 7: 0 with a credit, 1 without, 2 with another sender parked, 3 with an element and one reserved in slot 1, 4
empty, 5 empty with another receiver parked, 6 a tree, 7 closed. x1 an address, x2 tags, x3 bad tags, x4 a misaligned address. -/
def channels (w : Wake) (s : State := base) : State :=
  { (withX [(1, 0x10800), (2, 0x123), (3, 0x1000), (4, 0x10808)] (withK (fun k => { k with wake := w }) s)) with
    chans := [(28672, chan 6 [endpoint 5 1 0 none] []), (28673, chan 6 [endpoint 5 1 1 none] []),
      (28674, chan 6 [endpoint 5 0 0 (some waiter)] []), (28675, chan 5 [] [element 1 false true, element 0 false false]),
      (28676, chan 5 [] []), (28677, { (chan 5 [] []) with rwaiter := some waiter }),
      (28678, { (chan 5 [endpoint 5 1 0 none] []) with kind := 2 }), (28679, { (chan 6 [endpoint 5 1 0 none] []) with state := 3 })] }

def sends (i : Instr) (s : State) (n : Nat) (P : SendEp → Bool) : Bool :=
  okB ((envOf i s).sendCheck (BitVec.ofNat 64 n)) (fun r => someB (r.2.1.eps[r.2.2]?) P)

theorem test_witness_ChannelResults :
    let s := channels .none
    let woken := channels (.credit 0x10800 0x123)
    let taking := channels (.element 0x10840 1)
    (Meets s 7 [1] ∧ (∀ a d, (now s).wake ≠ .credit a d) ∧ (∀ a b, (now s).wake ≠ .element a b) ∧ dN 0x02 = false ∧ nowCtx s ≠ 0 ∧ s.turn < 4096
      ∧ bitsN ((now s).rx 2) 12 52 = 0 ∧ bitsN ((now s).rx 3) 12 52 ≠ 0 ∧ (s.core 5).cmdq.length < 16
      ∧ (∃ x, Reaches s .load (X s 1) x) ∧ (envOf (.send ⟨none, 2, 1, 0, 0⟩) s).forkWait [((X s 1).toNat, 64)] = [])
    ∧ (sends (.send ⟨none, 2, 1, 0, 0⟩) s 0 (fun p => decide (p.reserved < p.credit)) = true
      ∧ sends (.send ⟨none, 2, 1, 1, 0⟩) s 1 (fun p => decide (p.credit ≤ p.reserved) && p.waiter.isNone) = true
      ∧ sends (.send ⟨none, 2, 1, 2, 0⟩) s 2 (fun p => decide (p.credit ≤ p.reserved) && p.waiter.isSome) = true
      ∧ sends (.eos ⟨none, 0, 0⟩) s 0 (fun p => decide (p.reserved < p.credit)) = true
      ∧ errB ((envOf (.send ⟨none, 2, 1, 7, 0⟩) s).sendCheck 7) (fun q => match q with | .trap c v => c == cChannel && v == 7 | _ => false) = true
      ∧ errB ((envOf (.recv ⟨none, 2, 1, 7, 0⟩) s).recvCheck 7) (fun q => match q with | .trap c v => c == cChannel && v == 7 | _ => false) = true)
    ∧ (okB ((envOf (.bcast ⟨none, 2, 1, 6, 0⟩) s).chan 6) (fun r => r.2.bcast && decide (r.2.kind = 2)) = true
      ∧ okB ((envOf (.bcast ⟨none, 2, 1, 0, 0⟩) s).chan 0) (fun r => r.2.bcast && decide (r.2.kind ≠ 2)) = true)
    ∧ (Meets woken 7 [1] ∧ (now woken).wake = .credit 0x10800 0x123 ∧ sends (.send ⟨none, 2, 1, 1, 0⟩) woken 1 (fun _ => true) = true)
    ∧ (okB ((envOf (.recv ⟨none, 2, 1, 3, 0⟩) s).recvCheck 3) (fun r => r.2.oldest == some 1) = true
      ∧ okB ((envOf (.recv ⟨none, 2, 1, 4, 0⟩) s).recvCheck 4) (fun r => r.2.oldest.isNone && r.2.rwaiter.isNone) = true
      ∧ okB ((envOf (.recv ⟨none, 2, 1, 5, 0⟩) s).recvCheck 5) (fun r => r.2.oldest.isNone && r.2.rwaiter.isSome) = true
      ∧ okB ((envOf (.recv ⟨none, 2, 1, 3, 0⟩) s).recvDst (chan 5 [] []) (X s 1)) (fun _ => true) = true)
    ∧ (Meets taking 7 [1] ∧ (now taking).wake = .element 0x10840 1
      ∧ okB ((envOf (.recv ⟨none, 2, 1, 3, 0⟩) taking).recvCheck 3) (fun r => r.2.reservedAt 1 == some 0) = true
      ∧ okB ((envOf (.recv ⟨none, 2, 1, 3, 0⟩) taking).recvDst (chan 5 [] []) 0x10840) (fun _ => true) = true)
    ∧ (Meets (channels .none steward) 7 [1] ∧ nowCtx (channels .none steward) = 0) :=
  ⟨⟨meets_of (by decide +kernel) (by decide), fun _ _ h => (nomatch h), fun _ _ h => (nomatch h), by decide, by decide +kernel, by decide +kernel,
      by decide +kernel, by decide +kernel, by decide +kernel, reach (by decide +kernel), by decide +kernel⟩,
    ⟨by decide +kernel, by decide +kernel, by decide +kernel, by decide +kernel, by decide +kernel, by decide +kernel⟩,
    ⟨by decide +kernel, by decide +kernel⟩, ⟨meets_of (by decide +kernel) (by decide), rfl, by decide +kernel⟩,
    ⟨by decide +kernel, by decide +kernel, by decide +kernel, by decide +kernel⟩,
    ⟨meets_of (by decide +kernel) (by decide), rfl, by decide +kernel, by decide +kernel⟩,
    ⟨meets_of (by decide +kernel) (by decide), by decide +kernel⟩⟩

/-- Route descriptors in the own slice for layer 0 (0x10600), layer 1 (0x10640), with a reserved bit (0x10680) and with scores in tile 4
of the window (0x106C0); layer 0 is enabled and ordered, layer 1 disabled. n jobs are queued; `half` tells which half of layer 0 is
routed and not closed. -/
def routing (n half : Nat) : State :=
  let row (layer rest sc : Nat) (w5 : Nat) : List Nat := [sc, 0x10900, 0x10A00, 5 * 2 ^ 40 + 2 ^ 38 + layer * 2 ^ 32 + rest, 16 * 2 ^ 32 + 64, w5, 0, 0]
  { (put 0x8800 [2 ^ 63 + 2 ^ 62 + 0x11000, 8 * 2 ^ 6, 0, 0, 0, 8 * 2 ^ 6, 0, 0]
      (put 0x600 (row 0 3 0x10800 0 ++ row 1 3 0x10800 0 ++ row 0 3 0x10800 7 ++ row 0 (2 ^ 14 + 4 * 2 ^ 9) 0 0)
        (withX [(1, 0x10600), (2, 0x10640), (3, 0x10680), (4, 0x106C0), (5, 0x100), (6, 0x40)]))) with
    clusters := [(0, { routes := List.replicate n { core := 5, ctx := 3, region := 7, close := false, layer := 0, half := 0 }
                       opened := [7 * 128 + half] })] }

/-- A route whose descriptor and directory entry are in order. -/
def Routes (s : State) (o : OpA) (P : List Word → DirEnt → Bool) : Prop :=
  ∃ l, (envOf (.route o) s).desc (X s o.a) 8 64 = .ok l ∧ ∃ d, (envOf (.route o) s).dirEnt (bitsN (l.getD 3 0) 32 6) = .ok d
    ∧ bitsN (l.getD 2 0) 0 60 % 32 = 0
    ∧ (∃ x, Reaches s .store ((field (l.getD 2 0) 0 60).setWidth 64) x ∧ decide (kindOf x.pa = 0 ∧ sliceCore x.pa = s.turn) = true)
    ∧ (envOf (.route o) s).forkWait ((if bit (l.getD 3 0) 14 then [] else
        (List.range (bitsN (l.getD 3 0) 40 13)).map (fun t => (bitsN (l.getD 0 0) 0 60 + t * bitsN (l.getD 4 0) 32 32, 4 * d.nexp)))
      ++ (List.range (bitsN (l.getD 3 0) 40 13)).map (fun t => (bitsN (l.getD 1 0) 0 60 + t * bitsN (l.getD 4 0) 0 32, 1))) = []
    ∧ P l d = true

theorem routes_of {s : State} {o : OpA} {P : List Word → DirEnt → Bool} (h : okB ((envOf (.route o) s).desc (X s o.a) 8 64) (fun l =>
    okB ((envOf (.route o) s).dirEnt (bitsN (l.getD 3 0) 32 6)) (fun d => decide (bitsN (l.getD 2 0) 0 60 % 32 = 0)
      && hitsB s .store ((field (l.getD 2 0) 0 60).setWidth 64) (fun x => decide (kindOf x.pa = 0 ∧ sliceCore x.pa = s.turn))
      && ((envOf (.route o) s).forkWait ((if bit (l.getD 3 0) 14 then [] else
        (List.range (bitsN (l.getD 3 0) 40 13)).map (fun t => (bitsN (l.getD 0 0) 0 60 + t * bitsN (l.getD 4 0) 32 32, 4 * d.nexp)))
      ++ (List.range (bitsN (l.getD 3 0) 40 13)).map (fun t => (bitsN (l.getD 1 0) 0 60 + t * bitsN (l.getD 4 0) 0 32, 1)))).isEmpty
      && P l d)) = true) : Routes s o P := by
  obtain ⟨l, hl, h⟩ := ok_of h
  obtain ⟨d, hd, h⟩ := ok_of h
  simp only [Bool.and_eq_true, decide_eq_true_eq, List.isEmpty_iff] at h
  exact ⟨l, hl, d, hd, h.1.1.1, hits_of h.1.1.2, h.1.2, h.2⟩

theorem test_witness_RouteResults :
    let s := routing 7 1
    (Meets s 7 [1, 2, 3, 4] ∧ Unmodified (some 0) ∧ (s.cluster 0).routes.length < 8
      ∧ Routes s ⟨none, 1, 0⟩ (fun l d => d.en && d.ord && !bit (l.getD 3 0) 14 && decide (2 ≤ d.nexp) && decide (bitsN (l.getD 3 0) 15 1 = 0)))
    ∧ Routes s ⟨none, 2, 0⟩ (fun _ d => !d.en)
    ∧ Routes s ⟨none, 3, 0⟩ (fun l _ => (l.drop 5).any (fun v => decide (v ≠ 0)))
    ∧ Routes s ⟨none, 4, 0⟩ (fun l d => bit (l.getD 3 0) 14 && decide (winCount (now s).tiles ≤ bitsN (l.getD 3 0) 9 5) && decide (d.nexp ≤ 16))
    ∧ ((routing 7 0).cluster 0).opened = [7 * 128 + 0]
    ∧ (bitsN (X s 5) 6 2 = 0 ∧ bitsN (X s 5) 9 55 = 0 ∧ bitsN (X s 6) 6 2 ≠ 0)
    ∧ (Meets (routing 8 0) 7 [5] ∧ 8 ≤ ((routing 8 0).cluster 0).routes.length) :=
  ⟨⟨meets_of (by decide +kernel) (by decide), .inr rfl, by decide +kernel, routes_of (by decide +kernel)⟩, routes_of (by decide +kernel),
    routes_of (by decide +kernel), routes_of (by decide +kernel), by decide +kernel, by decide +kernel, meets_of (by decide +kernel) (by decide), by decide +kernel⟩

/-! ### Witnesses: threads, counters, the system -/

/-- The worker or the steward with n records in the arrival queue, m commands in the command queue, and c continuations allowed. x1 a
record (0x10600), x2 a place in core 6's slice, x3 one in the own slice, x4 core 6, x5 cluster 511, x6 no cluster, x7 4095, x8 4096, x9
an entry address, x10 a misaligned one. -/
def threads (n m : Nat) (c : BitVec 32) (s : State := base) : State :=
  (put 0x600 [0x7800000000012344, 7, 3, 4, 5, 6, 7, 8]
    (withX [(1, 0x10600), (2, 0x70000), (3, 0x10000), (4, 6), (5, 0x80000000000001FF), (6, 0x8000000000000200), (7, 4095), (8, 4096), (9, 0x20000), (10, 0x20002)]
      (withC (fun k => { k with aq := (List.range n).map contAt, cmdq := (List.range m).map .copy }) s))).modRegion 7 (fun g => { g with cont := c, conts := 1 })

theorem test_witness_SuspensionLaunchResults :
    let s := threads 47 15 2
    let full := threads 48 15 1
    let u (v : State) : State := v.release 5 3
    (Meets s 7 [1, 4] ∧ Unmodified (some 0) ∧ nowCtx s ≠ 0 ∧ s.fenced 5 3 = true ∧ s.backed 5 = false ∧ (s.core 5).cmdq.length < 16
      ∧ (u s).contRoom 7 = true ∧ s.acceptsRegion 6 7 = true)
    ∧ (Meets full 7 [1, 4] ∧ full.fenced 5 3 = true ∧ full.backed 5 = true ∧ (u full).contRoom 7 = false)
    ∧ (Meets storing 7 [] ∧ storing.fenced 5 3 = false)
    ∧ (Meets (threads 0 0 2 steward) 7 [1, 4] ∧ nowCtx (threads 0 0 2 steward) = 0 ∧ ((threads 0 0 2 steward).core 5).notices = [])
    ∧ ((∃ x, Reaches s .load (X s 2) x ∧ decide (homeOf x.leaf x.pa = 6) = true) ∧ ∃ x, Reaches full .load (X full 3) x ∧ decide (homeOf x.leaf x.pa = 5) = true)
    ∧ (targetOk (X s 4) = true ∧ targetOk (X s 5) = true ∧ targetOk (X s 6) = false ∧ targetOk (X s 7) = true ∧ targetOk (X s 8) = false
      ∧ (X s 1).toNat % 64 = 0 ∧ (X s 10).toNat % 64 ≠ 0 ∧ (∃ x, Reaches s .load (X s 1) x)
      ∧ ∃ l, (envOf (.launch ⟨none, 1, 4, 0⟩) s).words64 8 (X s 1) = .ok l)
    ∧ ((X s 7).toNat < 4096 ∧ 512 ≤ (X s 7).toNat ∧ 4096 ≤ (X s 8).toNat ∧ (X s 4).toNat < 512 ∧ bitsN (X s 9) 0 2 = 0 ∧ bitsN (X s 9) 60 4 = 0
      ∧ bitsN (X s 10) 0 2 ≠ 0) :=
  ⟨⟨meets_of (by decide +kernel) (by decide), .inr rfl, by decide +kernel, by decide +kernel, by decide +kernel, by decide +kernel, by decide +kernel, by decide +kernel⟩,
    ⟨meets_of (by decide +kernel) (by decide), by decide +kernel, by decide +kernel, by decide +kernel⟩,
    ⟨meets_of (by decide +kernel) (by decide), by decide +kernel⟩, ⟨meets_of (by decide +kernel) (by decide), by decide +kernel, by decide +kernel⟩,
    ⟨hits_of (by decide +kernel), hits_of (by decide +kernel)⟩,
    ⟨by decide +kernel, by decide +kernel, by decide +kernel, by decide +kernel, by decide +kernel, by decide +kernel, by decide +kernel, reach (by decide +kernel),
      good (by decide +kernel)⟩, by decide +kernel⟩


def waitOn (c : WaitFor) : WaitEntry := { cont := contAt 9, ctx := 3, cond := c }

/-- Counter 2 stands at 100 with one armed slot, counter 3 has all four armed; n entries in the wait list. x1 is the target 100, x2 the
target 101, x3 an action, x4 one with a reserved bit, x5 slot 3, x6 no slot, x7 a staged command that is not there. -/
def counters (n : Nat) (w : Wake) (s : State := base) : State :=
  withX [(1, 100), (2, 101), (3, 0x2000000500000064), (4, 0x8000000000000064), (5, 3), (6, 4), (7, 0x4000000300000064), (8, 0)]
    (withK (fun k => { k with wake := w }) (withC (fun k => { k with
      ctrs := [(2, { val := 100, trig := (Vector.replicate 4 0).set 0 0x8000000000000000 }), (3, { trig := Vector.replicate 4 0x8000000000000000 })]
      waits := List.replicate n (waitOn .place) }) s))

theorem test_witness_CounterInstructionResults :
    let s := counters 63 .none
    let full := counters 64 .none
    let there (v t : BitVec 32) : Prop := (v - t).toNat < 2 ^ 31
    let listed (s : State) : Nat := ((s.core s.turn).waits.filter (fun w => !s.frozenOn s.turn w.cont.rcd.region.toNat)).length
    (Meets s 7 [1] ∧ Unmodified (some 0) ∧ (∀ b, (now s).wake ≠ .status b) ∧ nowCtx s ≠ 0 ∧ s.turn < 4096 ∧ listed s < 64)
    ∧ (there ((((s.core 5).ctr 2).steps).1.val) (field (X s 1) 0 32) ∧ ¬ there ((((s.core 5).ctr 2).steps).1.val) (field (X s 2) 0 32))
    ∧ (Meets full 7 [2] ∧ ¬ listed full < 64)
    ∧ (Meets (counters 0 (.status true)) 7 [2] ∧ (now (counters 0 (.status true))).wake = .status true)
    ∧ ((((s.core 5).ctr 2).steps).1.armed.length ≠ 4 ∧ (((s.core 5).ctr 3).steps).1.armed.length = 4)
    ∧ (bitsN (X s 3) 52 9 = 0 ∧ bit (X s 3) 63 = false ∧ bitsN (X s 3) 61 2 = 1 ∧ bit (X s 4) 63 = true ∧ bitsN (X s 7) 61 2 = 2
      ∧ (s.core 5).staged.get? (bitsN (X s 7) 32 4) = none ∧ bitsN (X s 5) 2 62 = 0 ∧ bitsN (X s 6) 2 62 ≠ 0)
    ∧ (dN 0x08 = false ∧ (now s).rx 8 = 0 ∧ (now s).rx 1 ≠ 0 ∧ s.time < s.time + ((now s).rx 1).toNat ∧ dN 0x28 = true)
    ∧ (Meets (counters 0 .none steward) 7 [2] ∧ nowCtx (counters 0 .none steward) = 0) :=
  ⟨⟨meets_of (by decide +kernel) (by decide), .inr rfl, fun _ h => (nomatch h), by decide +kernel, by decide +kernel, by decide +kernel⟩,
    by decide +kernel, ⟨meets_of (by decide +kernel) (by decide), by decide +kernel⟩, ⟨meets_of (by decide +kernel) (by decide), by decide +kernel⟩,
    by decide +kernel, by decide +kernel, by decide +kernel, ⟨meets_of (by decide +kernel) (by decide), by decide +kernel⟩⟩


def msg (t : Nat) : Msg := { kind := 0, ctx := 3, core := 9, tag := BitVec.ofNat 32 t, val := BitVec.ofNat 64 (7 * t) }

/-- Descriptors of staged commands: a copy (0x10600), one with a guard (0x10620), a word that may not be staged (0x10640). n messages of
tag 5 in the mailbox, m commands in the queue, w entries in the wait list. -/
def staging (n m w : Nat) (wake : Wake) (s : State := base) : State :=
  put 0x600 ([0xF4105180, control 64 0 0x3F, 0x10800, 0x30800] ++ [0xF4105181, control 64 0 0x3F, 0x10800, 0x30800] ++ [0x80000000, 0, 0, 0])
    (withX [(1, 0x10600), (2, 0x10620), (3, 0x10640), (4, 5), (5, 6), (6, 0xFFFFFFFF), (7, 4095), (8, 4096), (9, 0x100000000), (10, 77)]
      (withK (fun k => { k with wake := wake }) (withC (fun k => { k with
        mail := List.replicate n (msg 5), cmdq := (List.range m).map .copy, waits := List.replicate w (waitOn .place) }) s)))

/-- A descriptor's command. -/
def staged (s : State) (a : BitVec 6) (P : List Word → Option StagedOp → Bool) : Prop :=
  ∃ l, (envOf (.cstage ⟨none, 15, a, 0⟩) s).desc (X s a) 4 32 = .ok l ∧ P l (stagedOp (field (l.getD 0 0) 0 32) (l.getD 1 0) (l.getD 2 0) (l.getD 3 0)) = true

theorem test_witness_StageMailboxResults :
    let s := staging 63 15 63 .none
    let full := staging 64 16 64 .none
    let listed (s : State) : Nat := ((s.core s.turn).waits.filter (fun w => !s.frozenOn s.turn w.cont.rcd.region.toNat)).length
    (Meets s 7 [1, 2, 3] ∧ Unmodified (some 0) ∧ (15 : BitVec 6).toNat ≤ 15 ∧ 15 < (16 : BitVec 6).toNat
      ∧ staged s 1 (fun l y => someB y (fun y => !y.bad && decide (fG (field (l.getD 0 0) 0 32) = 0) && decide (bitsN (l.getD 0 0) 32 32 = 0)
        && ((envOf (.cstage ⟨none, 15, 1, 0⟩) s).stageCause { s := s } y).isNone))
      ∧ staged s 2 (fun l y => y.isSome && decide (fG (field (l.getD 0 0) 0 32) ≠ 0)) ∧ staged s 3 (fun _ y => y.isNone))
    ∧ (Meets s 7 [4, 7] ∧ dN 0x0A = false ∧ (X s 7).toNat < 4096 ∧ 4096 ≤ (X s 8).toNat ∧ bitsN ((now s).rx 10) 32 32 = 0
      ∧ bitsN ((now s).rx 9) 32 32 ≠ 0 ∧ (X s 4).toNat = s.turn ∧ (s.core 5).mail.length < 64 ∧ (s.core 5).cmdq.length < 16)
    ∧ (Meets full 7 [4, 7] ∧ 64 ≤ (full.core 5).mail.length ∧ 16 ≤ (full.core 5).cmdq.length)
    ∧ ((∀ v, (now s).wake ≠ .message v) ∧ ((s.core 5).mail[0]?).map (·.tag) = some (field (X s 4) 0 32)
      ∧ (∀ x ∈ (s.core 5).mail, x.tag &&& field (X s 6) 0 32 ≠ field (X s 5) 0 32 &&& field (X s 6) 0 32) ∧ listed s < 64 ∧ ¬ listed full < 64)
    ∧ (now (staging 0 0 0 (.message 7))).wake = .message 7
    ∧ (Meets (staging 0 0 0 .none steward) 7 [5, 6] ∧ nowCtx (staging 0 0 0 .none steward) = 0) :=
  ⟨⟨meets_of (by decide +kernel) (by decide), .inr rfl, by decide, by decide, ok_of (by decide +kernel), ok_of (by decide +kernel), ok_of (by decide +kernel)⟩,
    ⟨meets_of (by decide +kernel) (by decide), by decide +kernel⟩, ⟨meets_of (by decide +kernel) (by decide), by decide +kernel⟩,
    ⟨fun _ h => (nomatch h), by decide +kernel⟩, by decide +kernel, ⟨meets_of (by decide +kernel) (by decide), by decide +kernel⟩⟩


/-- The worker or steward with these status bits, in a region whose placement count is n; core 4, its buddy, has an idle worker where
`twin`; x1 is context 15, x2 context 16. -/
def entered (status : Word) (n : BitVec 16) (twin : Bool) (f : Ctx → Ctx := id) (s : State := base) : State :=
  let u := withX [(1, 15), (2, 16)] (withK (fun k => f { k with status := k.status ||| status, epc := 0x1000, uepc := 0x2000 }) s)
  { (u.modRegion 7 (fun g => { g with pq := n })) with
    cores := (if twin then [(4, { (coreWith 4 6 { (thread 0) with mode := .idle }) with cycle := 0 })] else []) ++ u.cores }

/-- A worker paired with context 6 of core 4, as the primary. -/
def paired : State :=
  let s := entered 0 0 true (fun k => { k with pair := some { twinCore := 4, twinCtx := 6, primary := true, agreed := true } })
  s.modCtx 4 6 (fun k => { k with mode := .running, pair := some { twinCore := 5, twinCtx := 3, primary := false, agreed := true } })

theorem test_witness_TrapContextResults :
    let s := entered 0 0 true
    let held (n : Nat) : State := entered 0 1 false (fun k => { k with realign := some n })
    (Meets s 7 [1] ∧ Unmodified (some 0) ∧ bit (now s).status 3 = false ∧ bit (now s).status 4 = false ∧ nowCtx s ≠ 0
      ∧ (s.region 7).pq = 0 ∧ (∃ tt, s.twinOf 5 3 = some tt) ∧ (now s).prv = 0 ∧ (X s 1).toNat = 15 ∧ 15 < (X s 2).toNat)
    ∧ (Meets (entered 8 1 false) 7 [] ∧ bit (now (entered 8 1 false)).status 3 = true ∧ (now (entered 8 1 false)).prv = 0
      ∧ (entered 8 1 false).twinOf 5 3 = none ∧ ((entered 8 1 false).region 7).pq ≠ 0 ∧ (now (entered 8 1 false)).wake ≠ .placed)
    ∧ (Meets (entered 8 0 false id steward) 7 [1] ∧ bit (now (entered 8 0 false id steward)).status 3 = true
      ∧ 1 ≤ (now (entered 8 0 false id steward)).prv ∧ nowCtx (entered 8 0 false id steward) = 0)
    ∧ (Meets (entered 16 0 false) 7 [] ∧ bit (now (entered 16 0 false)).status 4 = true)
    ∧ ((now (entered 0 1 false (fun k => { k with wake := .placed }))).wake = .placed)
    ∧ (Meets (held 63) 7 [] ∧ (now (held 63)).realigned = false ∧ (now (held 63)).realign.getD 0 < 64
      ∧ ((held 63).alignedAt (clusterOf 5) 7 (now (held 63)).pc).length = 1 ∧ 64 ≤ (now (held 64)).realign.getD 0
      ∧ (now (entered 0 1 false (fun k => { k with realigned := true }))).realigned = true)
    ∧ ((immU (none : Option (BitVec 24)) 0).toNat = 0 ∧ (immU (none : Option (BitVec 24)) 1).toNat = 1 ∧ (immU (none : Option (BitVec 24)) 128).toNat = 128
      ∧ 128 < (immU (none : Option (BitVec 24)) 129).toNat)
    ∧ (Guard paired 7 ∧ (now paired).mode = .running ∧ (now paired).stop = none ∧ (now paired).regErr = []
      ∧ ∃ p, (now paired).pair = some p ∧ decide (p.primary = true ∧ p.phase = 0 ∧ p.agreed = true ∧ p.twinCore ≠ paired.turn ∧ p.twinCtx < 16) = true) :=
  ⟨⟨meets_of (by decide +kernel) (by decide), .inr rfl, by decide +kernel, by decide +kernel, by decide +kernel, by decide +kernel, found (by decide +kernel),
      by decide +kernel⟩, ⟨meets_of (by decide +kernel) (by decide), by decide +kernel, by decide +kernel, by decide +kernel, by decide +kernel, nofun⟩,
    ⟨meets_of (by decide +kernel) (by decide), by decide +kernel⟩, ⟨meets_of (by decide +kernel) (by decide), by decide +kernel⟩, by decide +kernel,
    ⟨meets_of (by decide +kernel) (by decide), by decide +kernel⟩, by decide,
    ⟨by unfold Guard; decide +kernel, by decide +kernel, by decide +kernel, by decide +kernel, some_of (by decide +kernel)⟩⟩


/-- The worker or steward beside these invalidations and table loads. x1 a table image of the own slice, x2 a misaligned one, x3 a
channel number, x4 4096, x5 the page of the instructions, x6 a region command (0x10700), x7 one with reserved bits (0x10740), x8 an
unknown region. -/
def system (invs : List Inv) (loads : List TableLoad) (f : Ctx → Ctx := id) (s : State := base) : State :=
  { (put 0x80C0 [3 * 2 ^ 61 + 7 * 2 ^ 20, 5, 0, 0, 3 * 2 ^ 61, 0, 2 ^ 60, 0] (put 0x700 [5 + 9 * 2 ^ 56, 0x10600, 0, 0, 0, 0, 0, 0, 5 + 2 ^ 24, 0, 0, 0, 0, 0, 0, 0]
      (withX [(1, 0x11000), (2, 0x11020), (3, 6), (4, 4096), (5, 0x10000), (6, 0x10700), (7, 0x10740), (8, 9), (9, 7), (0, 0)]
        (withK f (withC (fun k => { k with tload := loads }) s))))) with
    invs := invs, nextInv := 6, regions := [(0, {}), (7, region7), (9, { region7 with tag := 6 })] }

def inval (n : Nat) (kind : Nat) (done : Bool) : Inv := { id := n, core := 5, ctx := 3, gen := 0, kind := kind, tag := 5, va := 0, done := done }

theorem test_witness_SystemInstructionResults :
    let s := system [] []
    let load : TableLoad := { ctx := 3, table := 1, dec := none, cur := none, before := 0, gen := 0 }
    let loaded := system [] [] (fun k => { k with loaded := [{ table := 0, dec := none, cur := none }] })
    let invalid (done : Bool) : State := system [inval 4 4 done] [] (fun k => { k with inv := some 4 })
    let boss := system [] [] id steward
    (Meets s 7 [1] ∧ Unmodified (some 0) ∧ (now s).loaded = [] ∧ (s.core 5).tload = [] ∧ (X s 1).toNat % 64 = 0 ∧ (X s 2).toNat % 64 ≠ 0
      ∧ (∃ x, Reaches s .load (X s 1) x) ∧ (∃ d, (envOf (.ldtab ⟨none, 1, 3, 0⟩) s).decImage (X s 1) = .ok d)
      ∧ ∃ l, (envOf (.ldcurve ⟨none, 1, 3, 0⟩) s).curImage (X s 1) = .ok l)
    ∧ (Meets (system [] [load]) 7 [1] ∧ ∃ y ∈ ((system [] [load]).core 5).tload, y.ctx = nowCtx (system [] [load]) ∧ y.gen = (now (system [] [load])).gen)
    ∧ (Meets loaded 7 [1] ∧ (now loaded).loaded ≠ [])
    ∧ (Meets s 7 [5] ∧ (now s).prv = 0 ∧ (now s).inv = none ∧ s.storesDone 5 3 = true ∧ ∃ x, Reaches (s.modCore 5 (fun k => { k with
        utlb := [page 1 (5 * 2 ^ 21) 0x11F 0] })) .fetch (X s 5) x)
    ∧ ((now (invalid true)).inv = some 4 ∧ (∀ v ∈ (invalid true).invs, v.id = 4 → v.done = true)
      ∧ ∃ v ∈ (invalid false).invs, v.id = 4 ∧ v.done = false)
    ∧ (Meets boss 7 [3, 9] ∧ 1 ≤ (now boss).prv ∧ boss.syncWaits 5 0 = false
      ∧ (system [{ inval 4 1 false with ctx := 0 }] [] id steward).syncWaits 5 0 = true ∧ storing.storesDone 5 3 = false)
    ∧ ((X boss 3).toNat < 4096 ∧ 4096 ≤ (X boss 4).toNat ∧ (X boss 9).toNat < 2 ^ 24 ∧ (envOf (.chinst ⟨none, 3, 3, 9, 0⟩) boss).ownTenant 7 = true
      ∧ (envOf (.chinst ⟨none, 3, 3, 8, 0⟩) boss).ownTenant 9 = false ∧ ((boss.region 7).chan.setWidth 64 + BitVec.ofNat 64 (32 * 6) : Word).toNat % 8 = 0
      ∧ (∃ x, Reaches boss .load ((boss.region 7).chan.setWidth 64 + BitVec.ofNat 64 (32 * 6)) x)
      ∧ (∃ l, (envOf (.chinst ⟨none, 3, 3, 9, 0⟩) boss).words64 4 ((boss.region 7).chan.setWidth 64 + BitVec.ofNat 64 (32 * 6)) = .ok l
        ∧ decide (bitsN (l.getD 2 0) 60 4 = 0 ∧ bitsN (l.getD 0 0) 61 3 = 3) = true)
      ∧ ∃ l, (envOf (.chinst ⟨none, 3, 3, 9, 0⟩) boss).words64 4 ((boss.region 7).chan.setWidth 64 + BitVec.ofNat 64 (32 * 7)) = .ok l
        ∧ decide (bitsN (l.getD 2 0) 60 4 ≠ 0) = true)
    ∧ ((∃ l, (envOf (.rgcmd ⟨none, 3, 6, 0⟩) boss).desc (X boss 6) 8 64 = .ok l ∧ (decide (bitsN (l.getD 0 0) 24 32 = 0) && (l.drop 2).all (fun v => v == 0)) = true)
      ∧ ∃ l, (envOf (.rgcmd ⟨none, 3, 7, 0⟩) boss).desc (X boss 7) 8 64 = .ok l ∧ decide (bitsN (l.getD 0 0) 24 32 ≠ 0) = true) :=
  ⟨⟨meets_of (by decide +kernel) (by decide), .inr rfl, by decide +kernel, by decide +kernel, by decide +kernel, by decide +kernel, reach (by decide +kernel),
      good (by decide +kernel), good (by decide +kernel)⟩,
    ⟨meets_of (by decide +kernel) (by decide), by decide +kernel⟩, ⟨meets_of (by decide +kernel) (by decide), by decide +kernel⟩,
    ⟨meets_of (by decide +kernel) (by decide), by decide +kernel, by decide +kernel, by decide +kernel, reach (by decide +kernel)⟩,
    ⟨by decide +kernel, by decide +kernel, by decide +kernel⟩,
    ⟨meets_of (by decide +kernel) (by decide), by decide +kernel⟩,
    ⟨by decide +kernel, by decide +kernel, by decide +kernel, by decide +kernel, by decide +kernel, by decide +kernel, reach (by decide +kernel), ok_of (by decide +kernel),
      ok_of (by decide +kernel)⟩, ok_of (by decide +kernel), ok_of (by decide +kernel)⟩

/-! ### Witnesses: firmware, the host and the links -/

/-- Cores 5, 9 (retired) and 4097; the host link up; ports 3 and 4, the second without a link; channels 0 to another package and 1 within;
two entries in a queue of sixteen that the host has not read. -/
def platform (up : Bool) (tail : Nat) : State :=
  { base with
    cores := base.cores ++ [(9, { (Core.reset 9) with bin := .retired }), (4097, Core.reset 4097)]
    link := { up := up, gen := 5, width := 4, cxlVer := 31, cache := true }, ports := [(3, { gen := 1 })]
    chans := [(28672, { (chan 6 [] []) with rpkg := 4 }), (28673, chan 6 [] [])]
    hostq := some { base := 2 ^ 49 + 0x1000, n := 4, tail := tail }, time := 1000000000, tempAt := [(3, 0), (4, 1)] }

theorem test_witness_LinkPowerEvents :
    ((platform true 14).cores.map (·.1)).Nodup
    ∧ ((platform true 14).shut = false ∧ (platform true 14).link.up = true ∧ (platform false 14).link.up = false
      ∧ (5 : Nat) ∈ [5, 6, 7] ∧ (16 : Nat) ∈ [4, 8, 16] ∧ (32 : Nat) ∈ [20, 31, 32] ∧ (2 : Nat) ∈ [1, 2]
      ∧ ((platform true 14).ports.getD 3 {}).gen ≠ 0)
    ∧ (∃ x, (platform true 14).chans.get? (chanKey 7 0) = some x ∧ decide (x.live = true ∧ x.rpkg ≠ (platform true 14).pkg.toNat) = true)
    ∧ (∃ x, (platform true 14).chans.get? (chanKey 7 1) = some x ∧ decide (x.rpkg = (platform true 14).pkg.toNat) = true)
    ∧ ((∀ f ∈ (platform true 14).flight, f.dst ≠ dstQueue hostQueueNo) ∧ base.hostq = none
      ∧ (∃ q, (platform true 14).hostq = some q ∧ decide (q.tail + 1 < ((platform true 14).rd64 q.base).toNat + 2 ^ q.n) = true)
      ∧ ∃ q, (platform true 15).hostq = some q ∧ decide (((platform true 15).rd64 q.base).toNat + 2 ^ q.n ≤ q.tail + 1) = true)
    ∧ ((platform true 14).tempAt.get? 3 = some 0 ∧ 0 + 1000000000 ≤ (platform true 14).time
      ∧ (platform true 14).tempAt.get? 4 = some 1 ∧ ¬ 1 + 1000000000 ≤ (platform true 14).time)
    ∧ ((-200 : Int) ≤ -200 ∧ (200 : Int) ≤ 200 ∧ ((platform true 14).body 2).probation = none) :=
  ⟨by decide +kernel, by decide +kernel, some_of (by decide +kernel), some_of (by decide +kernel),
    ⟨by decide +kernel, by decide +kernel, some_of (by decide +kernel), some_of (by decide +kernel)⟩, by decide +kernel, by decide +kernel⟩

/-- An operand of matrix operation n: tile 9, no ring but where a says so. -/
def operation (n : Nat) (a : Option Claim) : MatOp :=
  { id := n, ctx := 3, gen := none, region := 7, pc := 0x90000, q := 0, tile := 9, sparse := false, fa := 0, fb := 0, fw := none, z := false
    ck := false, word := 0, a := a, b := none, grp := none, epi := none }

def record (n : Nat) : LogRec := { kind := 0, size := 2, pa := 2 ^ 48 + 0x30000, ctx := 3, seq := BitVec.ofNat 48 n, data := 77, home := 6 }

/-- What is kept of tenant t of core c. -/
def kept (c t : Nat) : SavedTenant :=
  { core := c, tag := BitVec.ofNat 7 t, log := { recs := [record 3], tail := 5 }, notices := [], aspill := 7, spilled := [], queue := [contAt 4]
    mail := [], dec := [], cur := [], ctrs := [(3, { val := 5 })], staged := [], rings := [], perf := Vector.replicate 8 {}
    steward := thread 1, waits := [], root := 77 }

/-- Launch windows: 3 to core 5, 4 to cluster 512 (none), 5 disabled; the tenant of core 5 (5) has left it behind nothing; tenant 9 was
kept there; core 6 belongs to nobody; ring 2 of core 5 is claimed. -/
def registers (f : Core → Core) : State :=
  { (withC f) with
    cores := (withC f).cores ++ [(6, Core.reset 6)], tenants := [kept 5 9], link := { up := true, gen := 5, width := 4, cxlVer := 31, cache := true }
    windows := [(3, { words := Vector.replicate 8 0, tgt := 5, ctl := 0x8000000000000007 })
               ,(4, { words := Vector.replicate 8 0, tgt := 0x8000000000000200, ctl := 0x8000000000000007 })
               ,(5, { words := Vector.replicate 8 0, tgt := 0x80000000000001FF, ctl := 0x8000000000000007 })] }

def vacant (k : Core) : Core := { k with ctxs := (Core.reset 5).ctxs, cycle := 0 }

theorem test_witness_RegisterWriteEvents :
    let s := registers id
    let free := registers vacant
    let used := registers (fun k => { k with mat := [operation 1 (some ⟨2, 0, false⟩)], spilled := [contAt 3] })
    let logged := registers (fun k => { k with log := { recs := [{ record 3 with spilled := true }], tail := 5 } })
    let due := registers (fun k => { k with log := { descNext := some 0x1A0002, spillNext := some 7 } })
    (s.shut = false ∧ (0x4000 * 4095 : BitVec 48).toNat = 0x4000 * 4095 ∧ (0x3FE0600 : BitVec 48).toNat = 0x20000 * 511 + 0x600
      ∧ (0x4000010 : BitVec 48).toNat = 0x4000010 ∧ (0x408F038 : BitVec 48).toNat = 0x4010000 + 0x1000 * 127 + 8 * 7)
    ∧ ((s.core 5).tag = 5 ∧ (s.core 5).tag ≠ 9 ∧ s.emptied 5 = false ∧ free.emptied 5 = true ∧ (s.core 6).tag = 0
      ∧ free.tenants[0]? = some (kept 5 9) ∧ free.resvRoom (kept 5 9) = true
      ∧ (∀ y ∈ free.tenants.take 0, ¬ (y.core = 5 ∧ y.tag = 9)) ∧ (∀ x ∈ free.tenants, ¬ (x.core = 5 ∧ x.tag = 8)) ∧ free.liveTag 5 = true)
    ∧ ((used.core 5).ringInUse 2 = true ∧ (s.core 5).ringInUse 31 = false ∧ (used.core 5).spilled ≠ [] ∧ (s.core 5).spilled = [])
    ∧ ((logged.core 5).log.spillUse ≠ 0 ∧ (s.core 5).log.spillUse = 0 ∧ (due.core 5).log.descNext.isSome ∧ (due.core 5).log.ringUse = 0
      ∧ (due.core 5).log.spillNext.isSome)
    ∧ (s.contRoom 7 = true ∧ (s.regions.get? 7).map (·.dead) = some false ∧ bit (s.window 3).ctl 63 = true ∧ (s.window 3).tgt.toNat < 4096
      ∧ s.acceptsRegion 5 7 = true ∧ ¬ bitsN (s.window 4).tgt 0 63 < 512 ∧ bitsN (s.window 5).tgt 0 63 < 512 ∧ bit (s.window 6).ctl 63 = false) := by
  decide +kernel

/-- A command of the physical function with these words after the first. -/
def pfCommand (op : Nat) (l : List Nat) : RgCmd := { words := BitVec.ofNat 64 (op * 2 ^ 56) :: l.map (BitVec.ofNat 64), from? := none }

/-- One command waits for the management body; the scheduler's image 9 is on probation since 100 ns, the management body with b. -/
def firmware (op : Nat) (l : List Nat) (b : FwBody := {}) (time : Nat := 1000) : State :=
  { base with
    cmds := [pfCommand op l], time := time, bodies := [(0, b), (1, { probation := some (100, 9, 77), beats := [(1, time), (2, time)] })]
    cores := [(5, { (base.core 5) with binNext := some .vPlus }), (6, { (Core.reset 6) with binNext := some .vPlus })
             ,(7, { (Core.reset 7) with oos := true }), (8, { (Core.reset 8) with bin := .cMinus, suspect := some 0 })
             ,(9, { (Core.reset 9) with bin := .vPlus, suspect := some 0 })] }

/-- That the command is the management body's next. -/
def ordered (op : Nat) (l : List Nat) : Bool :=
  decide ((firmware op l).shut = false ∧ (firmware op l).nextCmd true = some (0, pfCommand op l) ∧ (pfCommand op l).op = op)

def wordOf (op : Nat) (l : List Nat) (j : Nat) : Word := (pfCommand op l).w j

/-- No other statement can say which images the opaque check of signatures accepts: the hand-over's clauses divide on it, and one of
them applies whichever way it answers. -/
theorem test_witness_FirmwareCommandEvents :
    let early := firmware 0 [] {} 50000099
    let e := firmware 0 [] {} 50000100
    let s := firmware 0 [] {} (30 * 86400 * 1000000000)
    (ordered 7 [1, 2, 3, 4, 448] ∧ bitsN (wordOf 7 [1, 2, 3, 4, 448] 5) 52 12 = 0 ∧ bitsN (wordOf 7 [1, 2, 3, 4, 448] 5) 0 6 = 0
      ∧ ordered 7 [1, 2, 3, 4, 449] ∧ bitsN (wordOf 7 [1, 2, 3, 4, 449] 5) 0 6 ≠ 0 ∧ (firmware 7 []).leaf < 2 ^ 20
      ∧ 2 ^ 20 ≤ ({ firmware 7 [1, 2, 3, 4, 448] with leaf := 2 ^ 20 } : State).leaf)
    ∧ (ordered 9 [288, 4] ∧ (wordOf 9 [288, 4] 2).toNat = 4 ∧ ordered 9 [288, 16] ∧ (wordOf 9 [288, 16] 2).toNat = 16
      ∧ ordered 9 [288, 3] ∧ (wordOf 9 [288, 3] 2).toNat < 4 ∧ ordered 9 [288, 17] ∧ 16 < (wordOf 9 [288, 17] 2).toNat)
    ∧ (ordered 10 [0x10000, 64, 2 ^ 26 - 64] ∧ ¬ 2 ^ 26 < (wordOf 10 [0x10000, 64, 2 ^ 26 - 64] 3).toNat + (wordOf 10 [0x10000, 64, 2 ^ 26 - 64] 2).toNat
      ∧ ordered 10 [0x10000, 64, 2 ^ 26] ∧ 2 ^ 26 < (wordOf 10 [0x10000, 64, 2 ^ 26] 3).toNat + (wordOf 10 [0x10000, 64, 2 ^ 26] 2).toNat)
    ∧ (ordered 8 [2] ∧ ¬ 2 < (wordOf 8 [2] 1).toNat ∧ ((firmware 8 [2]).body 2).probation = none ∧ ordered 8 [3] ∧ 2 < (wordOf 8 [3] 1).toNat
      ∧ ordered 8 [1] ∧ ((firmware 8 [1]).body 1).probation ≠ none)
    ∧ (((early.body 1).probation = some (100, 9, 77) ∧ early.missed 1 = false ∧ (early.body 1).failed = false ∧ early.time < 100 + 50000000)
      ∧ (e.missed 1 = false ∧ 100 + 50000000 ≤ e.time) ∧ ({ e with bodies := [(1, { probation := some (100, 9, 77), beats := [(1, 0), (2, 0)] })] } : State).missed 1 = true)
    ∧ ((firmware 0 [] { failed := true, beats := [(0, 0)] } 60000000).missed 0 = true
      ∧ ((firmware 0 [] { failed := true, beats := [(0, 0)] } 60000000).body 0).failed = true
      ∧ ((firmware 0 [] { beats := [(0, 0)] }).body 0).failed = false ∧ (firmware 0 [] { beats := [(0, 0)] }).booting 0 = false
      ∧ ((firmware 0 []).body 0).probation = none)
    ∧ (let boots : State := { firmware 0 [] {} 60000000 with bodies := [(1, { beats := [(1, 0)] })] }
       boots.missed 1 = true ∧ boots.booting 1 = true ∧ (boots.body 1).probation = none)
    ∧ (((s.core 6).binNext = some .vPlus ∧ bit (s.core 6).root 63 = false ∧ (s.core 6).mat = [] ∧ (s.core 6).epi = []
          ∧ ∀ u, u < 16 → 0 < u → (s.ctx 6 u).occupied = false)
        ∧ ((s.core 5).binNext = some .vPlus ∧ bit (s.core 5).root 63 = true)
        ∧ ((s.core 7).oos = true ∧ (s.core 7).bin ≠ .retired)
        ∧ ((s.core 8).suspect = some 0 ∧ 0 + 30 * 86400 * 1000000000 ≤ s.time ∧ (s.core 8).binNext = none ∧ (s.core 8).oos = false
          ∧ (s.core 8).bin = .cMinus)
        ∧ ((s.core 9).suspect = some 0 ∧ (s.core 9).binNext = none ∧ (s.core 9).oos = false ∧ (s.core 9).bin = .vPlus)) := 
  ⟨by decide +kernel, by decide +kernel, by decide +kernel, by decide +kernel, by decide +kernel, by decide +kernel, by decide +kernel⟩

/-- A region command of the PF or of context 3 of core 5 (region 7) for region n, with an image at an address. -/
def regionCommand (op n img : Nat) (issuer : Bool) : RgCmd :=
  { words := [BitVec.ofNat 64 (op * 2 ^ 56 + n), BitVec.ofNat 64 img, 0, 0, 0, 0, 0, 0]
    from? := if issuer then some (5, 3, 9, 7) else none, root := 0x8001000000200005 }

/-- The memory cells of words at an address. -/
def cells (a : Nat) (l : List Nat) : List Host.Cell :=
  (((l.map (toBytes 8)).flatten.zipIdx).filter (fun e => e.1 != 0)).map (fun e => (a + e.2, e.1))

/-- The image of a region control block with these bounds on continuations and channels. -/
def blockImage (cont nch : Nat) : List Nat :=
  [0, 0, 0, 3 * 2 ^ 56 + 2 ^ 62, 4 * 2 ^ 59 + 0x3F * 2 ^ 53 + cont, 0, 0, 0x11000, 0x12000, 0, 0, 0, 0, nch * 2 ^ 48, 0, 0] ++ List.replicate 16 0

/-- The image: good at 0x10600, with a bound above the parent's at 0x10700, malformed at 0x10800, of a record at 0x10900 of host memory, for region 8 without an address
space; the issuer's space has no table. Regions 8 (child of 7), 9 (of another tenant) and 10 (dead). -/
def regionState (op n img : Nat) (issuer : Bool) (conts : Nat := 2) (faults : List RegFault := []) (poison : List Nat := []) : State :=
  let image := match img with
    | 0x10600 => blockImage 10 64
    | 0x10700 => blockImage 200 64
    | 0x10800 => blockImage 10 4097
    | _ => [0x7000000000012340, 77, 1, 2, 3, 4, 5, 6]
  let s : State := { base with mem := cells (2 ^ 49 + img) image }
  let s := s.modRegion 7 (fun g => { g with cont := 100, wctx := 8, conts := conts, fdb := true })
  { s with
    cmds := [regionCommand op n img issuer], faults := faults, poison := poison
    regions := s.regions ++ [(8, { region7 with parent := some 7, root := 0, cont := 50, conts := 1 }), (9, { region7 with tag := 6, fdb := true })
                            ,(10, { region7 with dead := true, parent := some 7 })] }

/-- That the command is next, and names a region it may name. -/
def commanded (op n img : Nat) (issuer : Bool) : Bool :=
  let s := regionState op n img issuer
  let q := regionCommand op n img issuer
  decide (s.shut = false ∧ s.nextCmd false = some (0, q) ∧ q.target = n ∧ q.op = op
    ∧ ((s.regions.get? n).map (·.dead) = some false ∧ ∀ z ∈ q.from?, n ≠ 0 ∧ (s.region n).tag = (s.region z.2.2.2.toNat).tag))

theorem test_witness_RegionCommandEvents :
    let s := regionState 0 0 0 false 2 [{ region := 8, code := 0x12 }]
    let inner := s.modRegion 8 (fun g => { g with fdb := true })
    let bad := regionState 0 0 0 false 2 [] [rcbAddr 9 / 64]
    ((regionState 0 0 0 false).nextCmd false = some (0, regionCommand 0 0 0 false) ∧ base.nextCmd false = none)
    ∧ (∀ op ∈ [1, 2], commanded op 8 0x10600 false ∧ commanded op 8 0x10900 true
      ∧ (regionState op 8 0x10600 true).image? (regionCommand op 8 0x10600 true) 32 = none)
    ∧ (∀ op ∈ [1, 2], ∀ e ∈ [(0x10600, false), (0x10700, true)], someB ((regionState op 8 e.1 false).image? (regionCommand op 8 e.1 false) 32) (fun w =>
        !rcbMalformed w && (regionState op 8 e.1 false).overBudget (some 8) ((regionState 1 8 e.1 false).newRegion 8 1 w) == e.2
        && (regionState op 8 e.1 false).overBudget (some 7) (((regionState op 8 e.1 false).region 8).ofImage w) == e.2) = true)
    ∧ ((∀ op ∈ [1, 2], someB ((regionState op 8 0x10800 false).image? (regionCommand op 8 0x10800 false) 32) rcbMalformed = true)
      ∧ (regionState 1 7 0x10600 false).regions.get? 1 = none)
    ∧ (commanded 3 7 0 true ∧ commanded 3 0 0 false ∧ (regionState 3 7 0 true).within 8 7 = true ∧ (regionState 3 7 0 true).within 9 7 = false
      ∧ commanded 4 8 0 true ∧ commanded 5 8 0 true ∧ (regionState 4 10 0 false).regions.get? 10 ≠ none
      ∧ ((regionState 4 10 0 false).region 10).dead = true ∧ ((regionState 4 9 0 true).region 9).tag ≠ ((regionState 4 9 0 true).region 7).tag)
    ∧ (commanded 6 8 0x10900 false ∧ ((regionState 6 8 0x10900 false).image? (regionCommand 6 8 0x10900 false) 8).isSome ∧ (regionState 6 8 0x10900 true).contRoom 8 = true ∧ (regionState 6 8 0x10900 true 100).contRoom 8 = false
      ∧ (regionState 6 8 0x10900 true).image? (regionCommand 6 8 0x10900 true) 8 = none)
    ∧ ((∀ e ∈ base.regions, e.1 ≠ 0 → e.2.dead = false → base.poisoned (rcbAddr e.1) 256 = none)
      ∧ (s.faultsFound = { region := 8, code := 0x12 } :: s.faultsFound.tail ∧ (s.region 8).dead = false ∧ s.domainRoot 8 = some 7
          ∧ (s.region 7).parent = some 0)
      ∧ (inner.domainRoot 8 = some 8 ∧ (inner.region 8).parent ≠ some 0)
      ∧ ((regionState 0 0 0 false 2 [{ region := 10, code := 0x12 }]).region 10).dead = true
      ∧ (bad.faultsFound = { region := 9, code := cPoison } :: bad.faultsFound.tail ∧ bad.domainRoot 9 = some 9)) :=
  ⟨by decide +kernel, by decide +kernel, by decide +kernel, by decide +kernel, by decide +kernel, by decide +kernel, by decide +kernel⟩

/-! ### Witnesses: translation, fetch, results and entries -/

/-- Translation tables that map page 1, at 2 MiB of bulk memory. -/
def tables : List Host.Cell :=
  let top : Nat := 2 ^ 48 + 0x200000
  cells top [top + 0x4001] ++ cells (top + 0x4000) [top + 0x8001] ++ cells (top + 0x8000) [top + 0xC001]
    ++ cells (top + 0xC000) [0, 5 * 2 ^ 21 + 5 * 2 ^ 9 + 0x11F]

def slots (n : Nat) : List SlotWord := List.replicate 16 (BitVec.ofNat 32 n)

/-- Contexts 2 and 4 wait for a lookup that hits and one that misses, 5 and 6 for walks, 7, 8 and 9 for lines: 0x10040, one that no
entry maps, and 0x10080. w is the walk in flight, l the lines in the cache. -/
def translating (w : Nat) (l : List (BitVec 7 × Nat × List SlotWord)) (poison : List Nat) (fills : List Walk) (delivs : List Delivery) : State :=
  let wait (t : TlbWait) (f : Option (Nat × Nat)) : Ctx := { thread 0 with tlb := t, freq := f }
  let set (k : Core) (e : Nat × Ctx) : Core := { k with ctxs := k.ctxs.setIfInBounds e.1 e.2 }
  let s := withC (fun k => { ([(2, wait (.lookup 0x20008) none), (4, wait (.lookup 0x50008) none), (5, wait (.walk 0x10048) none), (6, wait (.walk 0x770000) none),
      (7, wait .none (some (0x10040, 3))), (8, wait .none (some (0x770000, 4))), (9, wait .none (some (0x10080, 5)))].foldl set k) with
      root := 0x8001000000200005, utlb := [page 1 (5 * 2 ^ 21) 0x11F 0] })
  { s with
    mem := tables, poison := poison, steps := 9
    clusters := [(0, {
      tlb := [page 2 (5 * 2 ^ 21 + 0x10000) 0x18F 0]
      walks := [{ tag := 5, root := 0x8001000000200005, va := w, on := true }, { tag := 5, root := 0x8001000000200005, va := 0x30000 }]
      icache := l, fills := fills, delivs := delivs })] }

def filling (va : Nat) : Walk := { tag := 5, root := 0x8001000000200005, va := va }

theorem test_witness_TranslationFetchEvents :
    let s := translating 0x10048 [(5, 0x10040, slots 3)] [] [] []
    let other := translating 0x770000 [] [] [filling 0x10040] [{ tag := 5, va := 0x10040, recips := [(5, 7, .line 0x10040 (slots 3)), (5, 9, .empty)], since := 3 }]
    let bad := translating 0x10048 [] [(5 * 2 ^ 21 + 0x40) / 64, (2 ^ 48 + 0x20C008) / 64] [filling 0x10040] []
    (s.shut = false ∧ (s.ctx 5 2).tlb = .lookup 0x20008 ∧ tlbFind (s.cluster (clusterOf 5)).tlb (s.core 5).tag 0x20008 = some (page 2 (5 * 2 ^ 21 + 0x10000) 0x18F 0)
      ∧ (s.ctx 5 4).tlb = .lookup 0x50008 ∧ tlbFind (s.cluster (clusterOf 5)).tlb (s.core 5).tag 0x50008 = none
      ∧ (∀ w ∈ (s.cluster (clusterOf 5)).walks, ¬ (w.tag = (s.core 5).tag ∧ w.va / 2 ^ 16 = 0x50008 / 2 ^ 16)) ∧ (s.cluster 0).walking ≤ 8
      ∧ ∃ w ∈ (s.cluster (clusterOf 5)).walks, w.tag = (s.core 5).tag ∧ w.va / 2 ^ 16 = 0x3FFFF / 2 ^ 16)
    ∧ ((s.cluster 0).walks[1]? = some (filling 0x30000) ∧ (s.cluster 0).walks[0]? = some { filling 0x10048 with on := true } ∧ s.ecc = []
      ∧ (∀ a ∈ (walkFrom s 0x10048 4 0 (entryNext 0x8001000000200005)).2, s.serves a = true) ∧ 5 ∈ coresOf 0 ∧ (s.ctx 5 5).tlb = .walk 0x10048
      ∧ walk s 0x8001000000200005 0x10048 = .leaf 3 (BitVec.ofNat 64 (5 * 2 ^ 21 + 5 * 2 ^ 9 + 0x11F))
      ∧ (other.ctx 5 6).tlb = .walk 0x770000 ∧ walk other 0x8001000000200005 0x770000 = .fault
      ∧ walk bad 0x8001000000200005 0x10048 = .poison (2 ^ 48 + 0x20C000))
    ∧ (∀ kind ∈ [0, 1, 2, 3, 4, 5], ({ s with invs := [inval 4 kind false] } : State).invs[0]? = some (inval 4 kind false))
    ∧ ((s.requests 0 = [(5, 7, 0x10040, 3), (5, 8, 0x770000, 4), (5, 9, 0x10080, 5)])
      ∧ (s.cluster 0).icache.find? (fun l => l.1 == s.fetchTag 5 && l.2.1 == 0x10040) = some (5, 0x10040, slots 3)
      ∧ okB (s.fetchXl 5 7 0x10040) (fun x => x.pa == 5 * 2 ^ 21 + 0x40) = true
      ∧ (∀ l ∈ (bad.cluster 0).icache, ¬ (l.1 = bad.fetchTag 5 ∧ l.2.1 = 0x770000)) ∧ (∀ p ∈ s.fetchPlaces 5 0x770000, s.serves p.1 = true)
      ∧ errB (s.fetchXl 5 8 0x770000) (fun e => e.1 == cTranslation) = true)
    ∧ ((other.cluster 0).fills = [filling 0x10040] ∧ other.fetcher 0 5 0x10040 = some (5, 7) ∧ okB (other.fetchXl 5 7 0x10040) (fun x => other.serves x.pa) = true
      ∧ other.poisoned (5 * 2 ^ 21 + 0x40) 64 = none ∧ bad.poisoned (5 * 2 ^ 21 + 0x40) 64 = some (5 * 2 ^ 21 + 0x40)
      ∧ bad.fetcher 0 5 0x10040 = some (5, 7) ∧ okB (bad.fetchXl 5 7 0x10040) (fun x => bad.serves x.pa) = true)
    ∧ ((((other.cluster 0).delivs.map (fun d => d.recips.map (fun x => (x.1, x.2.1)))).getD 0 []).Nodup ∧ (other.ctx 5 7).freq = some (0x10040, 3)
      ∧ other.fetchTag 5 = 5 ∧ (other.ctx 5 9).freq = some (0x10080, 5)) :=
  ⟨by decide +kernel, by decide +kernel, by decide +kernel, by decide +kernel, by decide +kernel, by decide +kernel⟩

/-- Things of core 5 in flight: each on its own way. -/
def flying (l : List Body) : List Flight := l.zipIdx.map (fun e => { src := 5, dst := dstCluster e.2, body := e.1, pc := 0x90000, gen := 0 })

/-- Results, loads, stores, cell operations and scale operations. -/
def cargo : List Body :=
  [.result 3 true 5 77 none (some 4), .result 3 false 1 77 none none, .result 3 false 0 77 none none, .load 3 true 5 16 false (2 ^ 48 + 0x30010) none false 0xFFFF 9,
   .load 3 false 5 8 false (2 ^ 48 + 0x30010) none true 0xFFFF 9, .load 3 false 5 8 false (6 * 2 ^ 21) none false 0xFFFF 9, .planed 3 5 4 true false (2 ^ 48 + 0x10000) none false,
   .store 3 (2 ^ 48 + 0x30004) [1, 2, 3, 4] 0xD none, .store 3 (2 ^ 49 + 0x10040) [9, 8] 3 none, .cell 3 8 1026 5 6 (some 7) none, .cell 3 1 4099 5 6 none none,
   .scale 3 0 (2 ^ 48 + 0x10080) 0x40000000, .scale 3 1 (2 ^ 48 + 0x100C0) 0]

/-- They are in flight; a record of core 5 waits for 0x30010. -/
def performing (poison : List Nat) (freeze uh : Bool) : State :=
  let s : State := withK (fun k => { k with latSeq := 1, pendX := 0xFFFF, pendV := 0xFFFF, pendQ := 0xF }) (withC (fun k => { k with
    log := { recs := [{ record 4 with pa := BitVec.ofNat 52 (2 ^ 48 + 0x40010) }], tail := 5 } }))
  { s with
    flight := (flying cargo).map (fun f => { f with uh := uh, gen := (now s).gen })
    poison := poison, cores := s.cores ++ [(6, { (Core.reset 6) with freeze := if freeze then 7 else 0 })]
    link := { up := true, gen := 5, width := 4, cxlVer := 31, cache := true }, hostWin := 0x8000000080000003
    hostBuf := [(2 ^ 43 + 1, List.replicate 64 5, [5])] }

theorem test_witness_PerformEvents :
    let s := performing [] false false
    let u := performing [] false true
    let bad := performing [(2 ^ 48 + 0x30010) / 64] true false
    (s.shut = false ∧ s.flight.map (·.body) = cargo ∧ u.flight.map (·.uh) = List.replicate 13 true
      ∧ (s.flight.map (fun f => decide ((s.ctx f.src 3).gen = f.gen))).all id = true ∧ ((withK (fun k => { k with gen := 9 }) s).ctx 5 3).gen ≠ 0
      ∧ (∀ i < 13, s.flightReady i = true) ∧ ({ s with flight := s.flight ++ s.flight } : State).flightReady 16 = false)
    ∧ (s.serves (2 ^ 48 + 0x30010) = true ∧ s.ecc = [] ∧ s.poisoned (2 ^ 48 + 0x30010) 16 = none ∧ kindOf (2 ^ 48 + 0x30010) = 1
      ∧ s.ownRecs 5 (lineOf (2 ^ 48 + 0x30010)) = [] ∧ bad.poisoned (2 ^ 48 + 0x30010) 16 = some (2 ^ 48 + 0x30000)
      ∧ bad.serves (6 * 2 ^ 21) = false ∧ s.poison = [] ∧ s.serves (2 ^ 48 + 0x10000) = true)
    ∧ (Memory.wf s.mem = true ∧ kindOf (2 ^ 48 + 0x30004) = 1 ∧ kindOf (2 ^ 48 + 0x30004 + 15) = 1
      ∧ kindOf (2 ^ 49 + 0x10040) = 2 ∧ kindOf (2 ^ 49 + 0x10040 + 15) = 2)
    ∧ (s.link.up = true ∧ s.hostBuf.find? (fun h => h.1 == 2 ^ 43 + 1) = some (2 ^ 43 + 1, List.replicate 64 5, [5])
      ∧ bit s.hostWin 63 = true ∧ kindOf (64 * (2 ^ 42 + 2 ^ 25)) = 1 ∧ bitsN s.hostWin 30 9 * 2 ^ 30 = 64 * (2 ^ 42 + 2 ^ 25) % 2 ^ 48
      ∧ 64 * (2 ^ 42 + 5 * 2 ^ 24 - 1) % 2 ^ 48 < (bitsN s.hostWin 30 9 + bitsN s.hostWin 0 9) * 2 ^ 30
      ∧ ¬ 64 * (2 ^ 42 + 5 * 2 ^ 24) % 2 ^ 48 < (bitsN s.hostWin 30 9 + bitsN s.hostWin 0 9) * 2 ^ 30) :=
  ⟨by decide +kernel, by decide +kernel, by decide +kernel, by decide +kernel⟩

/-- Context 3 has stopped (s), context 0 too where both; core 5 is in cycle n; a notice waits; context 4 has a user interrupt; the
contexts of a bundle realign. -/
def stopping (both : Bool) (n : Nat) (pend : BitVec 32) (f : Core → Core := id) : State :=
  let q : StopReq := { code := 5, slot := 1, tval := 8, framePc := 0x40, npc := 0x44 }
  withC (fun k => f { k with
    ctxs := ((k.ctxs.setIfInBounds 0 { thread 1 with pc := 0x1000, tvec := 0x2000, qv := 0, stop := if both then some q else none
                                                     fbuf := .line 0x1000 (List.replicate 16 0x800420C3) }).setIfInBounds 3
      { thread 0 with stop := some q, pendV := pend }).setIfInBounds 4
      { thread 0 with status := 0x60, qv := 0, ulvec := 0x3000, uval := 5, fbuf := .line 0x90000 (List.replicate 16 0x800420C3), realign := some 64, realignN := 9 }
    cycle := n, notices := [{ code := 3, evt := true, ctx := 3, npc := 0x44, tval := 7, cyc := n }] })

def faulty (n ctx g : Nat) (f : Option (BitVec 8 × Word)) : MatOp := { operation n none with ctx := ctx, gen := some g, fault := f }

theorem test_witness_StopEntryEvents :
    let s := stopping false 32 0
    let both := stopping true 32 0
    let held := stopping false 32 4 (fun k => { k with mat := [faulty 1 3 0 none, faulty 2 2 0 (some (0x11, 5)), faulty 3 5 9 (some (0x12, 6))], freeze := 77 })
    let gone := stopping false 32 4 (fun k => { k with mat := [faulty 1 3 0 none, faulty 3 5 9 (some (0x12, 6))] })
    let mine := stopping false 32 4 (fun k => { k with mat := [faulty 1 4 0 (some (0x12, 6))] })
    (s.shut = false ∧ someB (s.ctx 5 3).stop (fun q => q.code != 0) = true ∧ (s.ctx 5 3).mode = .running ∧ (s.ctx 5 3).hasPending = false
      ∧ (held.ctx 5 3).hasPending = true ∧ (both.ctx 5 0).stop.isSome ∧ (both.ctx 5 0).mode = .running ∧ (both.ctx 5 0).hasPending = false)
    ∧ (s.noticeDue 5 = true ∧ ((s.core 5).notices[0]?).map (·.op) = some none ∧ (stopping false 3 0).noticeDue 5 = false)
    ∧ (s.userDue 5 4 = true ∧ s.userDue 5 3 = false)
    ∧ ((∀ o ∈ (s.core 5).mat, o.fault = none) ∧ (gone.core 5).mat.length = 2 ∧ (gone.ctx 5 5).gen ≠ 9
      ∧ (mine.ctx 5 4).gen = 0 ∧ (mine.ctx 5 4).mode = .running ∧ (mine.ctx 5 4).stop = none)
    ∧ ((held.core 5).freeze ≠ 0 ∧ (held.core 5).waits = [] ∧ (held.core 5).ctrs = [] ∧ (s.core 5).freeze = 0)
    ∧ ((s.ctx 5 4).realign = some 64 ∧ ((withK (fun k => { k with realign := some 63, realignN := 9 }) (stopping false 3 0)).ctx 5 3).realign = some 63
      ∧ ¬ 9 ≤ (s.alignedAt (clusterOf 5) 7 0x90000).length) :=
  ⟨by decide +kernel, by decide +kernel, by decide +kernel, by decide +kernel, by decide +kernel, by decide +kernel⟩


/-! ### Witnesses: the log, continuations and regions -/

/-- A record of core 6's home page, at offset 0x70000 of bulk memory, in some state. -/
def logged (n : Nat) (st : RecState) (held : Bool := false) (rm : Bool := false) (kind : BitVec 4 := 0) : LogRec :=
  { record n with pa := BitVec.ofNat 52 (2 ^ 48 + 0x70000), st := st, held := held, rm := rm, kind := kind }

def atHome (r : LogRec) : HomeRec := { core := 5, tag := 5, r := r }

/-- Core 5's log and core 6's pending store; a direct record or an ordinary one arrives there; context 3 of core 5 waits for its own
line or acquires. -/
def logState (recs : List LogRec) (home : List HomeRec) (freeze : Nat := 0) (direct : Bool := false) (own : Bool := true) : State :=
  let s := withK (fun k => { k with
    ownLine := if own then some (lineOf (2 ^ 48 + 0x70000)) else none, acq := if own then none else some (0, some [⟨5, 4⟩, ⟨77, 0⟩]) })
    (withC (fun k => { k with log := { recs := recs, tail := 5, front := 4 } }))
  { s with
    cores := s.cores ++ [(6, { (Core.reset 6) with home := home, freeze := freeze, root := 0x8000000000000005 })]
    flight := [{ src := 5, dst := dstHome 6, body := .logRec (atHome { logged 9 .published with direct := direct }) }] }

theorem test_witness_LogEvents :
    let s (st : RecState) (held : Bool) := logState [logged 3 st held] []
    let own := logState [] [atHome (logged 3 .published)]
    let acq := { logState [] [atHome (logged 3 .published)] 0 false false with flight := [] }
    let direct := logState [] [] 0 true
    let full := logState [] (atHome (logged 3 .published) :: List.replicate 6144 (atHome (logged 4 .published)))
    ((s .published false).shut = false ∧ ((s .published false).core 5).log.recs = [logged 3 .published] ∧ ((s .published false).core 5).freeze = 0
      ∧ (s .published false).shipStalled 5 = false ∧ (logged 3 .unpublished).st = .unpublished ∧ (logged 3 .published true).held = true
      ∧ ((s .void false).core 5).log.recs = [logged 3 .void] ∧ (logged 3 .published).reserved = false
      ∧ ({ logged 3 .published with kind := 15 } : LogRec).reserved = true)
    ∧ (own.flight.length = 1 ∧ own.flightReady 0 = true ∧ (own.core 6).freeze = 0 ∧ (own.core 6).home.length < 8192
      ∧ (direct.flight.map (·.body)) = [.logRec (atHome { logged 9 .published with direct := true })]
      ∧ ((logState [] [] 7).core 6).freeze ≠ 0)
    ∧ (own.ownWait 5 3 = some (lineOf (2 ^ 48 + 0x70000)) ∧ (∀ r ∈ own.ownRecs 5 (lineOf (2 ^ 48 + 0x70000)), r.st ≠ .unpublished ∧ r.held = false)
      ∧ (∃ h ∈ (own.core 6).home, (h.tag == (own.core 5).tag && (decide (h.core = 5) && h.r.lines.contains (lineOf (2 ^ 48 + 0x70000)))) = true)
      ∧ acq.ownWait 5 3 = none ∧ acq.acquiring 5 3 = [⟨5, 4⟩, ⟨77, 0⟩] ∧ (∃ h ∈ (acq.core 6).home, (h.tag == 5 && named (acq.acquiring 5 3) h.core h.r) = true)
      ∧ acq.stillComing 6 5 (named (acq.acquiring 5 3)) = false ∧ precedes (acq.core 5).log.frontier 4 = false ∧ acq.tenantLog 77 5 = none
      ∧ ((logState [] []).core 6).home = [])
    ∧ ((full.core 6).freeze = 0 ∧ 6144 < (full.core 6).home.length ∧ (own.core 6).home.length ≤ 6144)
    ∧ (own.ecc = [] ∧ (own.core 6).home.filter (fun _ => true) = [atHome (logged 3 .published)] ∧ (logged 3 .published).kind = 0
      ∧ (logged 3 .published).size.toNat ≤ 4 ∧ kindOf (logged 3 .published).pa.toNat < 2 ∧ Memory.wf own.mem = true) :=
  ⟨by decide +kernel, by decide +kernel, by decide +kernel, by decide +kernel, by decide +kernel⟩

/-- A continuation of region r, waiting at its core since cycle e, loading into context t. -/
def queued (n r e : Nat) (t : Option Nat := none) : Cont :=
  { rcd := { pc := BitVec.ofNat 60 (64 * n), region := BitVec.ofNat 24 r, ext := n = 77 }, entry := e, loading := t }

/-- What stands at core 5, whose contexts are idle but for a steward, one that loads (4), one that migrates (6) and one that has stopped
to migrate (7). The core is in cycle 77; the rest of its cluster is retired. -/
def dispatching (f : Core → Core) (flight : List Flight := []) (disp : List Cont := []) (tenants : List SavedTenant := []) (pend : BitVec 32 := 0) : State :=
  let out : StopReq := { code := 0, slot := 0, tval := 0, framePc := 0x90000, npc := 0x90000 }
  let one (t : Nat) : Ctx :=
    if t = 0 then thread 1 else if t = 4 then { (Ctx.reset 5 4) with mode := .loading, region := 7 }
    else if t = 6 then { thread 0 with stop := some out, pendX := pend }
    else if t = 7 then { thread 0 with stop := some out, mode := .stopped } else { (Ctx.reset 5 t) with mode := .idle }
  let s := withC (fun k => f { k with ctxs := Vector.ofFn (fun (i : Fin 16) => one i.val), cycle := 77, log := { tail := 3, front := 3, ship := 3 } })
  { s with
    cores := s.cores ++ [0, 1, 2, 3, 4, 6, 7].map (fun c => (c, { (Core.reset c) with oos := true })), flight := flight, tenants := tenants
    clusters := [(0, { disp := disp })] }

/-- A record that travels to core 5, or to the dispenser of its cluster. -/
def travelling (cluster : Bool) (r : Nat) : Flight :=
  { src := 9, dst := if cluster then dstCluster 0 else 5, body := .cont { queued 3 r 0 with toCluster := cluster } }

def spillOn : Word := 0x8000000600001000

theorem test_witness_DispatchEvents :
    let own := dispatching id [travelling false 7, travelling false 7]
    let none48 := dispatching (fun k => { k with aq := List.replicate 48 (queued 3 7 70) }) [travelling false 7]
    let some48 := dispatching (fun k => { k with aq := List.replicate 48 (queued 3 7 70), aspill := spillOn, spilled := [queued 8 7 70] }) [travelling false 7]
    let away := { dispatching id [travelling false 9] [] [{ kept 5 6 with aspill := spillOn }] with regions := [(0, {}), (7, region7), (9, { region7 with tag := 6 })] }
    (own.shut = false ∧ own.flight.length = 2 ∧ own.flightReady 0 = true ∧ own.flightReady 1 = false ∧ (dispatching id [travelling true 7]).flightReady 0 = true)
    ∧ ((own.core 5).arrAt ≠ some (own.core 5).cycle ∧ (own.core 5).freeze = 0 ∧ own.dispatchDue 5 = false ∧ (own.core 5).refillDue = false
      ∧ own.tagOf 7 = (own.core 5).tag ∧ (own.core 5).spilled = [] ∧ (own.core 5).aq.length < 48)
    ∧ (none48.dispatchDue 5 = true ∧ bit (none48.core 5).aspill 63 = false ∧ (some48.core 5).spilled ≠ [] ∧ bit (some48.core 5).aspill 63 = true
      ∧ (some48.core 5).spilled.length < 2 ^ bitsN (some48.core 5).aspill 32 5 ∧ (some48.core 5).refillDue = false)
    ∧ (away.tagOf 9 ≠ (away.core 5).tag ∧ away.dispatchDue 5 = false ∧ (away.core 5).refillDue = false
      ∧ (∃ t ∈ away.tenants, (t.core = 5 ∧ t.tag = away.tagOf 9) ∧ bit t.aspill 63 = true ∧ t.spilled.length < 2 ^ bitsN t.aspill 32 5)
      ∧ ∀ t ∈ own.tenants, ¬ (t.core = 5 ∧ t.tag = 6)) :=
  ⟨by decide +kernel, by decide +kernel, by decide +kernel, by decide +kernel⟩

/-- The same of dispatch, the dispenser and migration. -/
theorem test_witness_DispatchEvents_dispatch :
    let aged := { withC (fun k => { k with cycle := 66000 }) (dispatching (fun k => { k with aq := [queued 3 8 5, queued 2 7 5, queued 1 8 1] })) with
      regions := [(0, {}), (7, { region7 with prio := 1 }), (8, { region7 with parent := some 7 })] }
    let load (reap : Bool) (p : Option Point) := (dispatching (fun k => { k with aq := [queued 3 7 5, { queued 2 7 5 (some 4) with pair := p }] })).modCtx 5 4 (fun k => { k with reap := reap })
    let spill := dispatching (fun k => { k with spilled := [queued 8 7 70] })
    let place := dispatching id [] [queued 77 7 0, queued 3 7 0]
    let held := dispatching id [] [] [] 4
    let frame : FrameMsg := { words := 0x20#64 :: List.replicate 143 5, region := 7 }
    let back := dispatching (fun k => { k with frames := [frame] })
    ((spill.core 5).spilled = [queued 8 7 70] ∧ (spill.core 5).aq.length < 48 ∧ (spill.core 5).freeze = 0 ∧ (spill.core 5).refAt ≠ some (spill.core 5).cycle
      ∧ ((dispatching (fun k => { k with spilled := [queued 8 7 70], refAt := some 77 })).core 5).refAt = some 77
      ∧ ((dispatching (fun k => { k with dispAt := some 77 })).core 5).dispAt = some 77)
    ∧ ((aged.core 5).freeze = 0 ∧ (aged.core 5).dispAt ≠ some (aged.core 5).cycle ∧ (aged.core 5).frames = [] ∧ aged.chooseRecord 5 = some 2
      ∧ (aged.core 5).aq[2]? = some (queued 1 8 1) ∧ (aged.ctx 5 1).mode = .idle)
    ∧ (((load false none).core 5).aq = [queued 3 7 5] ++ queued 2 7 5 (some 4) :: [] ∧ ((load false none).ctx 5 4).mode = .loading
      ∧ (load false none).acquireDone 5 (none : Option Point).toList = true ∧ ((load true none).ctx 5 4).reap = true
      ∧ ((load false none).ctx 5 4).reap = false ∧ (load false (some ⟨5, 4⟩)).acquireDone 5 [⟨5, 4⟩] = false)
    ∧ ((place.cluster 0).dispAt ≠ some (place.core 0).cycle ∧ (place.cluster 0).disp = [queued 77 7 0] ++ queued 3 7 0 :: []
      ∧ place.place 0 (queued 77 7 0) = none ∧ place.place 0 (queued 3 7 0) = some 5
      ∧ ((place.modCluster 0 (fun k => { k with dispAt := some 0 })).cluster 0).dispAt = some (place.core 0).cycle)
    ∧ ((place.ctx 5 6).migrating = true ∧ (place.ctx 5 6).mode = .running ∧ (place.ctx 5 6).hasPending = false ∧ (held.ctx 5 6).hasPending = true
      ∧ (place.ctx 5 7).migrating = true ∧ (place.ctx 5 7).mode = .stopped ∧ place.extTarget 5 7 ≠ none ∧ place.frameTarget 5 7 ≠ none)
    ∧ ((back.core 5).frames = [] ++ frame :: [] ∧ (back.core 5).freeze = 0 ∧ (back.core 5).dispAt ≠ some (back.core 5).cycle
      ∧ back.frameFits 5 frame = true ∧ back.idleCtx 5 = some 1) :=
  ⟨by decide +kernel, by decide +kernel, by decide +kernel, by decide +kernel, by decide +kernel, by decide +kernel⟩

/-- What a pre-emption of region r saved on core 5, in a phase of its return. -/
def saving (r phase : Nat) (queue : List Cont) : Saved :=
  { core := 5, region := r, ctxs := [], queue := queue, rings := [(3, { desc := 5 })], phase := phase, ctrs := [] }

/-- Regions 7 (g) and 8, its child; core 5, whose contexts are idle but for the steward. -/
def preempting (g : Region → Region) (f : Core → Core) (saved : List Saved := []) (tenants : List SavedTenant := []) (time : Nat := 40000) : State :=
  let one (t : Nat) : Ctx := if t = 0 then { thread 1 with region := 7 } else { (Ctx.reset 5 t) with mode := .idle }
  let s := withC (fun k => f { k with
    ctxs := Vector.ofFn (fun (i : Fin 16) => one i.val), cycle := 77, root := 0x8001000000200005, log := { tail := 3, front := 3, ship := 3 } })
  { s with
    regions := [(0, {}), (7, g { region7 with idleSince := some 1450 }), (8, { region7 with parent := some 7 })], saved := saved, tenants := tenants
    time := time, chans := [(28672, { (chan 5 [] []) with rwaiter := some { cont := queued 1 7 0, core := 5 } })] }

theorem test_witness_PreemptionEvents :
    let s := preempting (fun g => { g with pq := 1, placed := 1 }) (fun k => { k with halted := [(7, 3)] })
    let live := preempting (fun g => { g with preempted := true, pq := 1 }) (fun k => { k with aq := [queued 3 8 0] })
    let halt := preempting (fun g => { g with preempted := true }) (fun k => { k with halted := [(7, 3)], aq := [queued 3 7 0] })
    let evict := preempting (fun g => { g with preempted := true, evict := true }) (fun k => { k with halted := [(7, 3)] })
    let home := preempting id (fun k => { k with root := 0 }) [] [kept 5 5]
    let back (phase : Nat) (q : List Cont) := preempting id (fun k => { k with aq := [queued 3 7 0] }) [saving 7 phase q]
    (s.shut = false ∧ (s.region 7).idleSince = some 1450 ∧ 1450 + 38550 ≤ s.time ∧ (s.region 7).deadRaised = false ∧ (s.region 7).dead = false
      ∧ s.quiet 7 = true ∧ ¬ 1450 + 38550 ≤ (preempting id id [] [] 39999).time ∧ s.waitingChans 7 = [0])
    ∧ (live.haltsDue 5 = [7] ∧ s.haltsDue 5 = [] ∧ (live.region 7).preempted = true ∧ (live.regions.get? 7).isSome = true
      ∧ ∀ h ∈ (live.core 5).halted, h.1 ≠ 7)
    ∧ ((halt.regions.map (·.1)).filter (fun r => halt.frozenOn 5 r && halt.present 5 r
          && !halt.saved.any (fun v => decide (v.core = 5) && decide (v.region = r) && decide (v.phase = 0))) = [7] ∧ halt.drained 5 7 = true
      ∧ (evict.regions.map (·.1)).filter (fun r => evict.frozenOn 5 r && evict.present 5 r) = [] ∧ evict.canLeave 5 = true ∧ s.canLeave 5 = false)
    ∧ (findIdx (home.mayReturn 5) home.tenants = some 0 ∧ home.tenants[0]? = some (kept 5 5))
    ∧ (findIdx ((back 0 []).mayReturn 5) (back 0 []).tenants = none ∧ (back 0 []).saved = [] ++ saving 7 0 [] :: []
      ∧ (back 0 []).tagOf 7 = ((back 0 []).core 5).tag ∧ (back 0 []).haltedHere 5 7 = false ∧ ((back 1 [queued 4 7 0]).core 5).aq.length < 48
      ∧ (back 1 [queued 4 7 0]).saved = [] ++ saving 7 1 [queued 4 7 0] :: [] ∧ (∀ e ∈ ((back 1 []).core 5).epi, e.reserved = true)
      ∧ s.saved = [] ∧ s.haltStays 5 (7, 3) = false)
    ∧ ((s.region 7).pq ≠ 0 ∧ (s.region 7).pq.toNat ≤ (s.region 7).placed ∧ (live.region 7).pq ≠ 0 ∧ ¬ (live.region 7).pq.toNat ≤ (live.region 7).placed
      ∧ s.placeWaits 7 (.withdraw 5) = true ∧ ({ s with cores := [(9, { (Core.reset 9) with bin := .retired })] } : State).placeWaits 7 (.withdraw 9) = false) :=
  ⟨by decide +kernel, by decide +kernel, by decide +kernel, by decide +kernel, by decide +kernel, by decide +kernel⟩

/-! ### Witnesses: counters, copies and channels -/

/-- A trigger word: value, action and context. -/
def trigger (v act ctx : Nat) : Word := BitVec.ofNat 64 (2 ^ 63 + act * 2 ^ 61 + 2 ^ 57 * 3 + ctx * 2 ^ 48 + 9 * 2 ^ 32 + v)

/-- Core 5 with this counter, these waiting entries, trigger actions, table loads and n messages; registers v24 to v26 of context 3 read
patterns, of which the second has 4 elements, and of v26 four elements are there. -/
def counting (x : Counter) (waits : List WaitEntry) (acts : List TrigAct := []) (tload : List TableLoad := []) (n : Nat := 63) (poison : List Nat := []) : State :=
  let s := put 0x1000 [0x30000, 3 + 2 ^ 16, 16, 64, 1024, 0, 0, 0] (put 0x1100 [0x30000, 3, 16, 64, 1024, 0, 0, 0]
    (withK (fun k => { k with
      bind := #v[0x6000000000001000, 0x6000000004001100, 0x6000000000001000, 0, 0, 0, 0, 0], ahead := [(26, [1, 2, 3, 4])] }) (withC (fun k => { k with
        ctrs := [(2, x)], waits := waits, acts := acts, tload := tload, mail := List.replicate n (msg 5) }))))
  { s with flight := [{ src := 7, dst := 5, body := .ack 3 4 7 }, { src := 9, dst := 5, body := .ack 0x3F 4 7 }], poison := poison, time := 500 }

def action (act : Nat) : TrigAct := { ctr := 3, slot := 1, word := trigger 5 act 4, newVal := 9, region := 7, cyc := 64 }

def loading (ctx table : Nat) : TableLoad := { ctx := ctx, table := table, dec := none, cur := none, before := 5, gen := 0 }

theorem test_witness_CounterTableEvents :
    let up : Counter := { val := 4, inc := 3 }
    let due (act : Nat) : Counter := { val := 4, inc := 3, trig := #v[trigger 5 act 4, 0, 0, 0], regs := #v[7, 0, 0, 0] }
    let s := counting up [waitOn (.counter 2 9 (some 501)), waitOn .place]
    let t := counting { val := 4 } [waitOn (.counter 2 9 (some 501)), waitOn (.counter 2 4 none), waitOn (.counter 2 9 (some 500))]
    (s.shut = false ∧ (s.core 5).freeze = 0 ∧ (s.core 5).ctrDue 3 = false ∧ (∀ i, i < 4 → bit (up.slot i) 63 = false) ∧ up.arms = [] ∧ up.inc ≠ 0
      ∧ up.last ≠ some (s.core 5).cycle ∧ (s.core 5).ctr 2 = up)
    ∧ (∀ act ∈ [1, 3], ((due act).steps.2 = [(0, trigger 5 act 4, 7)] ∧ bitsN (trigger 5 act 4) 61 2 = act
      ∧ (due act).last ≠ some ((counting (due act) []).core 5).cycle ∧ ((counting (due act) []).core 5).acts = [] ∧ ((counting (due act) []).core 5).waits = []
      ∧ ((counting (due act) []).core 5).mail.length < 64 ∧ 64 ≤ ((counting (due act) [] [] [] 64).core 5).mail.length))
    ∧ (((counting {} [] [action 1]).core 5).acts = action 1 :: [] ∧ ((counting {} [] [action 1]).trigger 5 (action 1)).isSome
      ∧ (((counting {} [] [action 1]).modCore 5 (fun k => { k with acts := [] })).trigger 5 (action 1)).isSome)
    ∧ ((∀ n, n < 64 → (t.core 5).ctrPending n = false) ∧ (t.core 5).waits.length = 3 ∧ reached ((t.core 5).ctr 2).val 9 = false
      ∧ reached ((t.core 5).ctr 2).val 4 = true ∧ 500 ≤ t.time ∧ ¬ 501 ≤ t.time)
    ∧ ((s.flight.map (·.body)) = [.ack 3 4 7, .ack 0x3F 4 7] ∧ s.flightReady 0 = true ∧ s.flightReady 1 = true
      ∧ s.tagOf (7 : BitVec 24).toNat = (s.core 5).tag ∧ s.saved = [])
    ∧ (((counting {} [] [] [loading 4 0, loading 3 0]).core 5).tload = [loading 4 0] ++ loading 3 0 :: [] ∧ (loading 4 0).ctx ≠ 3
      ∧ (counting {} [] [] [loading 3 0]).tableHeld 5 (loading 3 0) = false
      ∧ (withC (fun k => { k with mat := [{ operation 1 none with fa := 7 }] }) (counting {} [] [] [loading 3 0])).tableHeld 5 (loading 3 0) = true) :=
  ⟨by decide +kernel, by decide +kernel, by decide +kernel, by decide +kernel, by decide +kernel, by decide +kernel⟩

/-- The same of the elements of a pattern that are read ahead: v24 may, v25 is at its end, v26 has four. -/
theorem test_witness_CounterTableEvents_readahead :
    let s := counting {} []
    let bad := counting {} [] [] [] 63 [(2 ^ 48 + 0x10000) / 64]
    let behind (n : Nat) : State := { s.modCtx 5 3 (fun k => { k with patAt := [(24, 4)] }) with
      flight := [{ src := 5, dst := 2 ^ 60, body := .store 3 (2 ^ 48 + 0x30000) [1] 1 none, gen := (s.ctx 5 3).gen, bun := n }] }
    ((s.ctx 5 3).mode = .running ∧ (s.ctx 5 3).stop = none ∧ (s.ctx 5 3).bindKind 24 = 3 ∧ (s.ctx 5 3).bindKind 25 = 3 ∧ (s.ctx 5 3).bindKind 26 = 3
      ∧ patTotal (s.patDesc 5 3 25) ≤ bindPos ((s.ctx 5 3).rb (25 - 24)) ∧ ((s.ctx 5 3).ahead.getD 26 []).length = 4
      ∧ bindPos ((s.ctx 5 3).rb (24 - 24)) < patTotal (s.patDesc 5 3 24))
    ∧ (okB (translateEngine s 5 (s.ctx 5 3).prv .load (patAddr (s.patDesc 5 3 24) 0).toNat) (fun x => x.pa == 2 ^ 48 + 0x10000 && s.serves x.pa
        && !s.unitBusy 5 x.pa && (s.ownHit 5 (leafL x.leaf) [lineOf x.pa]).isNone && (s.poisoned x.pa 16).isNone && (bad.poisoned x.pa 16).isSome) = true
      ∧ s.ecc = [])
    ∧ ((∀ f ∈ s.flight, f.ofThread 5 3 = false) ∧ (behind 4).patWaits 5 3 24 = true ∧ (behind 5).patWaits 5 3 24 = false
      ∧ ((behind 4).ctx 5 3).bindKind 24 = 3) :=
  ⟨by decide +kernel, by decide +kernel, by decide +kernel⟩

/-- A copy of two rows of 320 bytes, of which packets l have landed and the first has been read, between these addresses. -/
def moving (src dst : Nat) (l : List Nat) (held : List (Nat × List Byte)) (f : Copy → Copy := id) : Copy :=
  f { copyNo 1 4 with src := BitVec.ofNat 60 src, dst := BitVec.ofNat 60 dst, requested := true, landed := l, held := held, tlbs := pages }

def copyState (x : Copy) (mail : Nat := 0) (poison : List Nat := []) (stopped : Bool := false) : State :=
  let s := withC (fun k => { k with copies := [x], mail := List.replicate mail (msg 5), rings := [(3, { desc := BitVec.ofNat 64 (1 + 3 * 2 ^ 40 + 0x20000) })] })
  { s with
    cores := s.cores ++ [(6, { (Core.reset 6) with freeze := if stopped then 5 else 0 })], poison := poison, time := 100 }

/-- Pieces of an engine's access, as a value. -/
def piece (e : Except (BitVec 8) (List (Xl × Nat))) (P : Xl → Nat → Bool) : Bool := okB e (fun l => match l with | [(a, n)] => P a n | _ => false)

theorem test_witness_CopyEvents :
    let x := moving 0x30000 0x20100 [] []
    let bad := moving 0x770000 0x30100 [] []
    let off := moving 0x60000 0x10000 [] []
    let s := copyState x
    (s.shut = false ∧ (s.core 5).copies[0]? = some x ∧ x.total = 4 ∧ x.settled 3 = false ∧ x.isHeld 3 = false ∧ s.ecc = []
      ∧ (copyNo 1 4).requested = false)
    ∧ (s.walked 5 x.tlbs (x.srcOf 3) (x.size 3) = some s
      ∧ piece (s.enginePieces 5 3 .load (x.srcOf 3) (x.size 3) x.tlbs) (fun a n => s.serves a.pa && decide (kindOf a.pa ≤ 1)
          && s.streams (streamerAt a.pa) && (s.poisoned a.pa n).isNone && ((copyState x 0 [(2 ^ 48 + 0x10500) / 64]).poisoned a.pa n).isSome) = true)
    ∧ ((copyState bad).walked 5 bad.tlbs (bad.srcOf 3) (bad.size 3) = some (copyState bad)
      ∧ errB ((copyState bad).enginePieces 5 3 .load (bad.srcOf 3) (bad.size 3) bad.tlbs) (fun e => e == stTranslation) = true
      ∧ piece ((copyState { off with src := 0x70000 } 0 [] true).enginePieces 5 3 .load 0x70000 256 off.tlbs)
          (fun a _ => !(copyState { off with src := 0x70000 } 0 [] true).serves a.pa) = true) :=
  ⟨by decide +kernel, by decide +kernel, by decide +kernel⟩

theorem test_witness_CopyEvents_landing :
    let b := bytes 64 3
    let x := moving 0x30000 0x20100 [0] [(1, b)]
    let bad := moving 0x30000 0x770000 [0] [(1, b)]
    let log := moving 0x30000 0x50000 [] [(1, b)]
    let ring := moving 0x30000 0x10100 [0] [(1, b)] (fun x => { x with ring := some 3, entry := some 2 })
    let s := copyState x
    (x.settled 1 = false ∧ x.held = [] ++ (1, b) :: [] ∧ x.ring = none ∧ x.size 1 = b.length ∧ s.walked 5 x.tlbs (x.dstOf 1) (x.size 1) = some s
      ∧ piece (s.enginePieces 5 3 .store (x.dstOf 1) (x.size 1) x.tlbs) (fun a n => s.serves a.pa && !leafL a.leaf && decide (kindOf a.pa ≤ 1) && decide (n = b.length)) = true
      ∧ Memory.wf s.mem = true)
    ∧ ((copyState bad).walked 5 bad.tlbs (bad.dstOf 1) (bad.size 1) = some (copyState bad)
      ∧ errB ((copyState bad).enginePieces 5 3 .store (bad.dstOf 1) (bad.size 1) bad.tlbs) (fun e => e == stTranslation) = true)
    ∧ (okB ((copyState log).enginePieces 5 3 .store (log.dstOf 1) (log.size 1) log.tlbs) (fun l => l.any (fun b => leafL b.1.leaf)) = true
      ∧ ∃ q ∈ log.before 1, log.settled q = false)
    ∧ ring.ring = some 3 :=
  ⟨by decide +kernel, by decide +kernel, by decide +kernel, by decide +kernel⟩

theorem test_witness_CopyEvents_end :
    let x := moving 0x30000 0x20100 [0, 1, 2] []
    let done (f : Copy → Copy) := moving 0x30000 0x20100 [0, 1, 2, 3] [] f
    let ccan := moving 0x30000 0x20100 [0] [] (fun x => { x with cancelling := some 1, deadline := some 100 })
    let s := copyState ccan
    ((∃ p ∈ List.range 4, p < x.total ∧ x.settled p = false ∧ x.isHeld p = false)
      ∧ (done id).held = [] ∧ (∀ p ∈ List.range 4, (done id).settled p = true) ∧ (done id).mb = false ∧ (done id).stat = 0
      ∧ (done (fun x => { x with mb := true })).mb = true ∧ (done (fun x => { x with stat := 3 })).stat ≠ 0
      ∧ ((copyState (done (fun x => { x with mb := true })) 63).core 5).mail.length < 64
      ∧ 64 ≤ ((copyState (done (fun x => { x with mb := true })) 64).core 5).mail.length)
    ∧ (x.cancelling = none ∧ ccan.cancelling = some 1)
    ∧ (ccan.deadline = some 100 ∧ (s.core 5).freeze = 0 ∧ 100 ≤ s.time ∧ s.time < 101
      ∧ (moving 0x30000 0x20100 [0] [] (fun x => { x with deadline := some 100 })).cancelling = none) := by
  decide +kernel

/-- Core 5 with this command at the head of its queue; channel 0 is point to point, 1 fan-in, 2 a tree in which node 1 takes node 0 and node 2 node 1, 3 a broadcast. -/
def channelState (q : Cmd) (chans : List (Nat × Chan)) (l : List Body) (dst : Nat := 5) (f : Core → Core := id) : State :=
  let s := withC (fun k => f { k with
    cmdq := [q], copies := [copyNo 1 4], mailAt := none, mail := List.replicate 63 (msg 5) })
  { s with
    cores := s.cores ++ [(6, { (Core.reset 6) with freeze := 5 })], chans := chans, mem := tables, trees := [(4, [[], [0], [1]])]
    regions := [(0, {}), (7, { region7 with root := 0x8001000000200005 }), (8, { region7 with cq := 0x770000, root := 0x8001000000200005 }), (9, { region7 with cq := 0 })]
    flight := l.zipIdx.map (fun e => { src := 64 * e.2, dst := dst, body := e.1 }), hostq := some { base := 2 ^ 49 + 0x1000, n := 4, tail := 14 } }

def posting (t : Nat) : Body := .mail (msg t) (some 3) 7 5

/-- Endpoints of core 5 and of core 6, where a sender waits. -/
def twoEnds (kind : Nat) (f : Chan → Chan := id) : Chan := f { (chan 5 [endpoint 5 3 0 none, endpoint 6 0 0 (some waiter)] []) with kind := kind }

def treePart (set node : Nat) (own : Bool) (m : Nat) : TreePart := { set := set, node := node, own := own, data := bytes 64 m, ids := [m], tags := [(0x3F, 1)] }

def treeChan (parts : List TreePart) : Chan :=
  { (chan 5 [endpoint 5 3 0 none, endpoint 6 0 0 none, endpoint 7 0 0 none] []) with kind := 2, tree := 4, parts := parts }

theorem test_witness_ChannelEvents_inject :
    let s := channelState (.send 28672 1 0x30000 false false 3 4 3 7 pages) [(28672, twoEnds 0)] []
    let bad := channelState (.send 28672 1 0x770000 false false 3 4 3 7 []) [(28672, twoEnds 0)] []
    ((∀ q ∈ [Cmd.rcd (queued 3 7 0) 9, .post (msg 5) 9 3 7 5, .copy 1, .send 28672 1 0x30000 true false 3 4 3 7 pages],
        ((channelState q [(28672, twoEnds 0)] []).core 5).cmdq = q :: [] ∧ (channelState q [(28672, twoEnds 0)] []).gatesOpen 5 = true)
      ∧ (s.core 5).copies = [] ++ copyNo 1 4 :: [] ∧ (copyNo 1 4).id = 1 ∧ (copyNo 1 4).ring = none)
    ∧ (s.shut = false ∧ s.chans.get? 28672 = some (twoEnds 0) ∧ (twoEnds 0).eps[1]? = some (endpoint 6 0 0 (some waiter)) ∧ (twoEnds 0).ef4 = false)
    ∧ (someB ((s.modCore 5 (fun k => { k with cmdq := [] })).walked 5 pages 0x30000 64) (fun w => okB (w.enginePieces 5 3 .load 0x30000 64 pages) (fun l =>
        w.servesAll l && okB (w.engineRead 5 l).2 (fun b => decide (b.length = 64)))) = true)
    ∧ (someB ((bad.modCore 5 (fun k => { k with cmdq := [] })).walked 5 [] 0x770000 64) (fun w =>
        errB (w.enginePieces 5 3 .load 0x770000 64 []) (fun e => e == stTranslation)) = true) :=
  ⟨by decide +kernel, by decide +kernel, by decide +kernel, by decide +kernel⟩

theorem test_witness_ChannelEvents :
    let el (key ep : Nat) (token : Bool) : Body := .elem key ep (if token then [] else bytes 64 3) token 0x3F 4 1 1
    let s := channelState (.copy 1) [(28672, twoEnds 0), (28673, { twoEnds 1 with rwaiter := some waiter }), (28674, twoEnds 2), (28675, twoEnds 3 (fun x => { x with bcast := false, bcastLeft := 1 }))]
      [el 28672 0 false, el 28673 1 false, el 28673 1 true, el 28674 1 true, el 28674 1 false, el 28679 0 false, .credit 28672 0, .credit 28672 1,
       .recv 3 5 28672 (element 0 false false) none 9, .recv 3 5 28672 (element 1 true false) (some [(2 ^ 48 + 0x10000, 64)]) 9, .bcast 28675 0 (bytes 64 3) 3 0x3F 1] 5000
    let held := channelState (.copy 1) [(28674, { twoEnds 2 with parts := [treePart 0 0 true 3, treePart 0 1 true 4] }), (28672, twoEnds 0 (fun x => { x with state := 3 }))] []
    (s.shut = false ∧ (s.flight.take 8).length = 8 ∧ (∀ i < 11, s.flightReady i = true) ∧ s.chans.get? 28679 = none ∧ s.chans.get? 28672 = some (twoEnds 0) ∧ (twoEnds 0).rpkg = s.pkg.toNat
      ∧ s.serves (sliceAddr (twoEnds 0).rcore 0) = true ∧ (twoEnds 0).live = true ∧ (twoEnds 0).freeSlot = some 0 ∧ (twoEnds 0).rwaiter = none ∧ s.ecc = [] ∧ s.poison = []
      ∧ (twoEnds 0).cqe = false ∧ (s.chans.get? 28673).bind (·.rwaiter) = some waiter ∧ (twoEnds 1).tokens + 1 < (twoEnds 1).eps.length
      ∧ (twoEnds 2).whole = false ∧ (held.chans.get? 28674).map (·.whole) = some true ∧ (held.chans.get? 28672).map (·.live) = some false)
    ∧ ((twoEnds 0).eps[0]? = some (endpoint 5 3 0 none) ∧ ((twoEnds 0).eps[1]?).bind (·.waiter) = some waiter
      ∧ ((twoEnds 3).eps[0]?).map (·.pkg) = some s.pkg.toNat)
    ∧ (let tree (l : List TreePart) := channelState (.copy 1) [(28674, treeChan l)] []
       let a := treeChan [treePart 1 0 true 3, treePart 1 1 true 5, treePart 1 2 true 9, treePart 2 0 true 8]
       let b := treeChan [treePart 1 1 false 3, treePart 1 2 true 9]
       (tree a.parts).treeOf a = [[], [0], [1]] ∧ a.inputs [[], [0], [1]] 0 1 = some (treePart 1 0 true 3 :: [])
        ∧ a.inputs [[], [0], [1]] 0 2 = some [treePart 2 0 true 8]
        ∧ b.inputs [[], [0], [1]] 2 1 = some (treePart 1 2 true 9 :: [treePart 1 1 false 3]) ∧ b.live = true ∧ b.freeSlot = some 0 ∧ b.rwaiter = none) :=
  ⟨by decide +kernel, by decide +kernel, by decide +kernel⟩

theorem test_witness_ChannelEvents_mail :
    let entry (t : Nat) : WaitEntry := waitOn (.mail (BitVec.ofNat 32 t) 0xFF)
    let s := channelState (.copy 1) [] [posting 5] 5 (fun k => { k with waits := [entry 6] })
    let woken := channelState (.copy 1) [] [posting 5] 5 (fun k => { k with waits := [entry 6, entry 5] })
    let full := channelState (.copy 1) [] [posting 5] 5 (fun k => { k with mail := List.replicate 64 (msg 5) })
    let busy := channelState (.copy 1) [] [posting 5] 5 (fun k => { k with mailAt := some k.cycle })
    let away (n : Nat) := { channelState (.copy 1) [] [.mail (msg 5) (some 3) 7 9] with tenants := [{ kept 5 9 with mail := List.replicate n (msg 5) }] }
    let rec? (r n : Nat) := channelState (.copy 1) [] [.record r 1 2 3 4 n 5 3] (dstQueue r)
    let full7 := (rec? 7 0).modRegion 7 (fun g => { g with cqTail := 64 })
    (s.flight.map (·.body) = [posting 5] ∧ s.flightReady 0 = true ∧ (s.core 5).mailAt ≠ some (s.core 5).cycle ∧ (s.core 5).tag = 5 ∧ (s.core 5).mail.length < 64
      ∧ (busy.core 5).mailAt = some (busy.core 5).cycle ∧ 64 ≤ (full.core 5).mail.length ∧ (woken.core 5).waits = [entry 6] ++ entry 5 :: []
      ∧ (msg 5).tag &&& 0xFF = 5 &&& 0xFF ∧ (msg 5).tag &&& 0xFF ≠ 6 &&& 0xFF)
    ∧ (((away 63).core 5).tag ≠ 9 ∧ (∃ x ∈ (away 63).tenants, (x.core = 5 ∧ x.tag = 9) ∧ x.mail.length < 64)
      ∧ ∀ x ∈ (away 64).tenants, x.core = 5 ∧ x.tag = 9 → 64 ≤ x.mail.length)
    ∧ ((rec? (2 ^ 24) 0).flight.length = 1 ∧ base.hostq = none
      ∧ someB (rec? (2 ^ 24) 0).hostq (fun q => decide (q.tail + 1 < ((rec? (2 ^ 24) 0).rd64 q.base).toNat + 2 ^ q.n)) = true
      ∧ ((rec? 9 0).region 9).cq = 0 ∧ errB ((rec? 8 0).regionXl 8 0x770000) (fun e => e == cTranslation) = true
      ∧ okB ((rec? 7 2).regionXl 7 0x19000) (fun cb => okB ((rec? 7 2).regionXl 7 (0x19000 + 32 + 32 * (0 % 2 ^ 6))) (fun _ =>
          decide (0 + 1 < ((rec? 7 2).rd64 cb.pa).toNat + 2 ^ 6))) = true
      ∧ okB (full7.regionXl 7 0x19000) (fun cb => decide ((full7.rd64 cb.pa).toNat + 2 ^ 6 ≤ (full7.region 7).cqTail + 1)) = true) :=
  ⟨by decide +kernel, by decide +kernel, by decide +kernel⟩

/-! ### Witnesses: routing, the matrix unit and pairing -/

/-- A directory of two layers for region 7 at 0x18800, the second ordered; tables at 0x19000 and 0x19100 (capacity 2 in channel 8, no
capacity in channel 9); sources at 0x19800: clusters 0 and 3. -/
def directory : List Host.Cell :=
  let dir (ord base : Nat) : List Nat := [2 ^ 63 + ord * 2 ^ 62 + 2 * 2 ^ 60 + base, 1 * 2 ^ 6 + 1, 0x19800, 0]
  let ent (cap clus nrep binch : Nat) : List Nat :=
    [cap * 2 ^ 48 + 3 * 2 ^ 30 + clus * 2 ^ 21 + 2 * 2 ^ 17 + nrep * 2 ^ 15 + binch, 2 * 2 ^ 48 + 3 * 2 ^ 21 + 1 * 2 ^ 12 + 10, 0, 0]
  cells (5 * 2 ^ 21 + 0x8800) (dir 0 0x19000 ++ dir 1 0x19100) ++ cells (5 * 2 ^ 21 + 0x9000) (ent 2 0 1 8 ++ ent 2 0 0 9)
    ++ cells (5 * 2 ^ 21 + 0x9100) (ent 2 0 1 8 ++ ent 2 0 0 9) ++ cells (5 * 2 ^ 21 + 0x9800) [3 * 512 + 0, 3 * 512 + 3] ++ tables

def binOf (layer expert core st : Nat) (counts : Tab Nat := []) : Chan :=
  { (chan core [] []) with kind := 3, layer := layer, expert := expert, cntr := 5, half0 := { st := st, size := 2, counts := counts } }

def routeState (routes : List Job) (l : List (Body × Nat)) (chans : List (Nat × Chan) := [(28680, binOf 0 0 5 0)]) (f : State → State := id) : State :=
  f { withC id with
    cores := (withC id).cores ++ [(8, { (Core.reset 8) with root := 0x8000000000000005 })], mem := directory, chans := chans
    regions := [(0, {}), (7, { region7 with root := 0x8001000000200005, expd := 0x18800 })], clusters := [(0, { routes := routes })]
    flight := l.zipIdx.map (fun e => { src := 8192 + 3 * e.2, dst := e.1.2, body := e.1.1 }) }

/-- A job of one token with two choices among two experts of layer 0. -/
def job (close started done : Bool) (l : List Choice := []) : Job :=
  { core := 5, ctx := 3, region := 7, close := close, layer := 0, half := 0, scores := 0x10000, rows := 0x30000, rrec := 0x30400, ntok := 1, k := 2
    sstr := 16, rstr := 64, nexp := 2, rnd := 2, base := 0x19000, started := started, done := done, choices := l, tlbs := pages }

def choice (j e : Nat) (asked : Bool) : Choice := { tok := 0, j := j, exp := e, first := e, asked := asked, tried := [e], st := if asked then 0 else 1 }

def asking (layer expert cluster : Nat) : Permit := { region := 7, layer := layer, expert := expert, half := 0, round := 0, pkg := 3, cluster := cluster, tok := 0, j := 0 }

def reservoir (left : Nat) (ord : Bool) : Resv :=
  { ent := [BitVec.ofNat 64 (2 * 2 ^ 48 + 3 * 2 ^ 30 + 1 * 2 ^ 15 + 8), 2 * 2 ^ 48, 0, 0], left := left, srcs := [(3, 0), (3, 3)], ord := ord }

theorem test_witness_RouterEvents_jobs :
    let s := routeState [job false false false] []
    let done := routeState [job false true true [choice 0 1 false]] []
    let close := routeState [job true false false] []
    let bad := close.modRegion 7 (fun g => { g with expd := 0x770000 })
    (s.shut = false ∧ (s.cluster 0).routes = job false false false :: [] ∧ s.gatesOpen 5 = true
      ∧ someB (s.readEnts (job false false false) 2 0) (fun v => (v.1.readScores v.2 1 0).isSome) = true)
    ∧ ((done.cluster 0).routes = job false true true [choice 0 1 false] :: [] ∧ (job false true true).rowsOut = 0
      ∧ someB (done.writeRecords (job false true true [choice 0 1 false]) 1 0) (fun u => u.2 == 0) = true
      ∧ someB (done.writeRecords { job false true true [choice 0 1 false] with stat := 3 } 1 0) (fun u => u.2 != 0) = true)
    ∧ ((close.cluster 0).routes = job true false false :: []
      ∧ someB (close.jobRead (job true false false) ((close.region 7).expd.toNat + 32 * 0) 32) (fun r => okB r.2.2 (fun bs =>
          (r.1.readEnts { r.2.1 with base := (DirEnt.ofWords (wordsOf bs)).base } (DirEnt.ofWords (wordsOf bs)).nexp 0).isSome)) = true
      ∧ someB (bad.jobRead (job true false false) ((bad.region 7).expd.toNat + 32 * 0) 32) (fun r => errB r.2.2 (fun e => e == stTranslation)) = true) :=
  ⟨by decide +kernel, by decide +kernel, by decide +kernel⟩

theorem test_witness_RouterEvents_permits :
    let p := asking 0 0 0
    let owner (p : Permit) : Nat := dstOwner 3 p.key
    let s := routeState [] [(.permit p, owner p)]
    let used (left : Nat) (ord : Bool) := routeState [] [(.permit p, owner p)] [(28680, binOf 0 0 5 0)] (fun s => { s with resvs := [(p.key, reservoir left ord)] })
    let late := routeState [] [(.permit p, owner p)] [(28680, binOf 0 0 5 0)] (fun s => s.modCluster 0 (fun k => { k with permAt := some ((s.core 0).cycle, 5) }))
    let wait := routeState [] [(.permit p, owner p)] [(28680, binOf 0 0 5 2)] (fun s => { s with permits := [asking 0 1 0] })
    let none' := routeState [] [(.permit p, owner p)] [(28680, binOf 0 0 5 0)] (fun s => s.modCluster 0 (fun k => { k with freeResv := 0 }))
    (s.shut = false ∧ s.flight.map (·.body) = [.permit p] ∧ s.flightReady 0 = true ∧ (s.flight.map (·.dst)) = [dstOwner s.pkg.toNat p.key]
      ∧ s.ownerCluster p = some 0 ∧ someB (s.portNow 8192 0) (fun q => portFollows (s.cluster 0).permAt q) = true
      ∧ someB (late.portNow 8192 0) (fun q => !portFollows (late.cluster 0).permAt q) = true)
    ∧ ((∀ q ∈ s.permits, q.key ≠ p.key) ∧ (wait.servePermit p).isNone ∧ (∃ q ∈ wait.permits, q.key = (asking 0 1 0).key))
    ∧ (someB (s.ownerDir 7 0) (fun d => !d.ord && someB (s.regionWords 7 (d.entryVa 0) 4) (fun w =>
          decide ((ExpEnt.ofWords w).clus < 512 ∧ (ExpEnt.ofWords w).cap ≠ 0 ∧ (s.cluster (ExpEnt.ofWords w).clus).freeResv ≠ 0
            ∧ (none'.cluster (ExpEnt.ofWords w).clus).freeResv = 0) && !s.ownerWaits p (ExpEnt.ofWords w).binch)) = true ∧ s.resvs.get? p.key = none)
    ∧ (someB ((used 1 false).ownerDir 7 0) (fun _ => true) = true ∧ (used 1 false).resvs.get? p.key = some (reservoir 1 false)
      ∧ (used 1 false).ownerWaits p (reservoir 1 false).entry.binch = false ∧ (reservoir 0 false).left = 0 ∧ (p.pkg, p.cluster) ∈ (reservoir 1 true).srcs
      ∧ ((asking 0 0 7).pkg, (asking 0 0 7).cluster) ∉ (reservoir 1 true).srcs)
    ∧ (wait.permits[0]? = some (asking 0 1 0) ∧ ((({ wait with permits := [] } : State).servePermit (asking 0 1 0)).isSome)) :=
  ⟨by decide +kernel, by decide +kernel, by decide +kernel, by decide +kernel, by decide +kernel⟩

theorem test_witness_RouterEvents :
    let p := asking 1 0 0
    let s := routeState [] [(.roundClose 7 1 0 0 0 (3 * 512), dstOwner 3 (resvKey 7 1 0 0))] [(28680, binOf 1 0 5 0)]
    let wait := routeState [] [(.roundClose 7 1 0 0 0 (3 * 512), dstOwner 3 (resvKey 7 1 0 0))] [(28680, binOf 1 0 5 2)]
    let j := job false true false [choice 0 0 true, choice 1 1 true]
    let answer (granted : Bool) := routeState [j] [(.answer (asking 0 1 0) granted 1 0, dstRouter 3 0)]
    let mine (c : Choice) : Bool := c.asked && j.tokb + c.tok == 0 && c.j == 1 && c.exp == 1
    (s.shut = false ∧ s.flightReady 0 = true ∧ (∀ q ∈ s.permits, q.key ≠ p.key) ∧ someB (s.ownerDir 7 1) (fun d => someB (s.ownerEnt 7 d 1 0 0) (fun x =>
        !s.ownerWaits p x.binch && wait.ownerWaits p x.binch && decide (findIdx (fun q => q == ((3, 0) : Nat × Nat)) (s.ownerSrcs 7 d) = some 0))) = true)
    ∧ ((answer true).flightReady 0 = true ∧ ((answer true).cluster 0).routes = j :: [] ∧ j.choices = [choice 0 0 true] ++ choice 1 1 true :: []
      ∧ (∀ d ∈ [choice 0 0 true], ({ asking 0 1 0 with j := 1 }.j = d.j) = false) ∧ ((([choice 0 0 true] : List Choice) ++ []).any (·.asked)) = true
      ∧ mine (choice 0 0 true) = false ∧ mine (choice 1 1 true) = true)
    ∧ (let row (h slot : Nat) := routeState [] [(.row 28680 h slot (bytes 64 3) 0 1 0 0, dstBin 3 28680)] [(28680, binOf 0 0 5 2)]
       (row 0 1).flightReady 0 = true ∧ (row 0 1).serves (sliceAddr 5 0) = true ∧ (binOf 0 0 5 2).live = true ∧ (binOf 0 0 5 2).depth / 2 = 4
        ∧ ((binOf 0 0 5 2).half 0).st = 2 ∧ ((binOf 0 0 5 2).half 0).size = 2 ∧ ((binOf 0 0 5 2).half 1).st = 0 ∧ (binOf 0 0 5 2).kind = 3 ∧ (binOf 0 1 5 2).expert ≠ 0) :=
  ⟨by decide +kernel, by decide +kernel, by decide +kernel⟩

theorem test_witness_RouterEvents_closing :
    let go (dst : Nat) (replica : Bool) (core st : Nat) (counts : Tab Nat) := routeState [] [(.closing 28680 0 (3 * 512 + 3) 3 replica 0 0, dst)] [(28680, binOf 0 0 core st counts)]
    let s := go (dstOwner 3 (resvKey 7 0 0 0)) false 5 0 []
    let last := go (dstOwner 3 (resvKey 7 0 0 0)) false 5 1 [(0, 4)]
    let rep := routeState [] [(.closing 28682 0 0 3 true 0 0, dstBin 3 28682)] [(28682, binOf 0 0 8 0)]
    (s.flightReady 0 = true ∧ (s.core 5).tag = (s.region 7).tag ∧ resvKey 7 0 0 0 < 2 ^ 48 ∧ ((binOf 0 0 5 0).half 0).st ≠ 2 ∧ s.isReplica 28680 (binOf 0 0 5 0) 0 = false
      ∧ someB (s.ownerDir 7 0) (fun d => decide (findIdx (fun q => q == ((3, 3) : Nat × Nat)) (s.ownerSrcs 7 d) = some 1) && decide (d.nsrc = 2)
          && (s.ownerEnt 7 d 0 0 0).isSome) = true)
    ∧ ((((binOf 0 0 5 0).half 0).counts.get? 1 = none) ∧ ((binOf 0 0 5 1 [(1, 4)]).half 0).counts.get? 1 ≠ none ∧ (last.chans.get? 28680) = some (binOf 0 0 5 1 [(0, 4)]))
    ∧ (rep.flightReady 0 = true ∧ (rep.core 8).tag = (rep.region 7).tag ∧ rep.isReplica 28682 (binOf 0 0 8 0) 0 = true) :=
  ⟨by decide +kernel, by decide +kernel, by decide +kernel⟩

/-- Core 5 with these operations and entries; rings 0 and 1 have one full entry each with the tag of format 0, ring 4 one with another
tag, ring 5 is full; channel 9 is a bin with a group of two rows landed and channel 10 one whose groups have all been consumed. -/
def array (mat : List MatOp) (epi : List EpiEntry := []) (run : Option MatRun := none) (freeze : Nat := 0) (poison : List Nat := []) : State :=
  let full (t : BitVec 16) : Ring := { (ring 4 1 1) with tail := 1, ents := [(0, { st := 2, tag := t })] }
  { withC (fun k => { k with
      mat := mat, epi := epi, run := run, freeze := freeze, rings := [(0, full (expectedTag 0 0 false)), (1, full (expectedTag 0 0 false)), (4, full 0xFFFF)
        ,(5, { (ring 4 1 1) with tail := 4, ents := [(0, { st := 2 }), (1, { st := 2 }), (2, { st := 2 }), (3, { st := 2 })] })] }) with
    poison := poison
    chans := [(28681, { (binOf 0 0 5 2) with half0 := { st := 2, size := 2, landed := [0, 1] } }), (28682, { (binOf 0 0 5 2) with half0 := { st := 2, size := 2, consumed := [0] } })] }

def dense (a b : Nat) : MatOp := { op 1 0 with a := some ⟨a, 0, false⟩, b := some ⟨b, 0, false⟩ }

def grouped (w bin : Nat) (f : MatOp → MatOp := id) : MatOp :=
  f { op 1 0 with grp := some { w := BitVec.ofNat 60 w, ks := 1, half := 0, binch := bin, ret := true, cnt := 3, wstr := 64 }, group := some 0, rows := 2 }

/-- An epilogue entry that stores rows of FP32 at an address, or loads the tile from there. -/
def storesAt (kind a : Nat) (mode : BitVec 4 := 1) (f : EpiEntry → EpiEntry := id) : EpiEntry :=
  f { kind := kind, ctx := 3, region := 7, gen := none, tile := 9, desc := { plainDesc (BitVec.ofNat 60 a) 64 3 with mode := mode }, src := BitVec.ofNat 60 a, tlbs := pages }

def fetches (f : Fetch) : Nat := match f with | .wait => 0 | .fault _ _ _ => 1 | .fail _ _ => 2 | .ok _ _ => 3

theorem test_witness_MatrixEvents :
    let s := array [dense 0 1]
    let bad := array [dense 0 4]
    let lost := array [grouped 0x770000 9]
    (s.shut = false ∧ (5 : Nat) < 4096 ∧ (s.core 5).run = none ∧ (s.core 5).freeze = 0 ∧ s.gatesOpen 5 = true ∧ (s.core 5).arrErr = []
      ∧ s.chooseStep 5 = some (dense 0 1, 1) ∧ fetches ((s.modCore 5 (fun k => { k with n0 := 1 })).fetchStep 5 (dense 0 1)) = 3)
    ∧ (bad.chooseStep 5 = some (dense 0 4, 1) ∧ fetches ((bad.modCore 5 (fun k => { k with n0 := 1 })).fetchStep 5 (dense 0 4)) = 1)
    ∧ (lost.chooseStep 5 = some (grouped 0x770000 9, 1) ∧ fetches ((lost.modCore 5 (fun k => { k with n0 := 1 })).fetchStep 5 (grouped 0x770000 9)) = 2)
    ∧ (let run (left : Nat) (bad : Bool) : MatRun := { op := 1, left := left, result := List.replicate 256 0, bad := bad }
       ((array [dense 0 1] [] (some (run 0 true))).core 5).run = some (run 0 true)
        ∧ ((array [dense 0 1] [] (some (run 0 false))).core 5).mat.find? (fun o => o.id == (run 0 false).op) = some (dense 0 1) ∧ (run 1 false).left ≠ 0
        ∧ (dense 0 1).failed = false ∧ (dense 0 1).paired = false ∧ (dense 0 1).grp = none ∧ (dense 0 1).epi = none
        ∧ (grouped 0x30000 9 (fun o => { o with step := 1, running := true })).step = 1) :=
  ⟨by decide +kernel, by decide +kernel, by decide +kernel, by decide +kernel⟩

theorem test_witness_MatrixEvents_groups :
    let take (bin : Nat) (f : MatOp → MatOp) := array [grouped 0x30000 bin (fun o => f { o with group := none })]
    (((take 9 id).core 5).mat[0]? = some (grouped 0x30000 9 (fun o => { o with group := none })) ∧ ((take 9 id).chans.get? (chanKey 7 9)).isSome
      ∧ (take 9 id).frozenOn 5 7 = false
      ∧ someB ((take 9 id).chans.get? (chanKey 7 9)) (fun ch => ((take 9 id).core 5).nextGroup 7 { w := 0x30000, ks := 1, half := 0, binch := 9, ret := true, cnt := 3, wstr := 64 } ch == some (0, 2)
          && !(ch.half 0).finished) = true
      ∧ someB ((take 10 id).chans.get? (chanKey 7 10)) (fun ch => (((take 10 id).core 5).nextGroup 7 { w := 0x30000, ks := 1, half := 0, binch := 10, ret := true, cnt := 3, wstr := 64 } ch).isNone
          && (ch.half 0).finished) = true
      ∧ (grouped 0x30000 9 (fun o => { o with group := none, idled := true })).out = 0) := by
  decide +kernel

theorem test_witness_MatrixEvents_epilogues :
    let vals : List (BitVec 32) := List.replicate 256 0x3F800000
    let row (a : Nat) (f : EpiEntry → EpiEntry) := storesAt 1 a 1 (fun e => f { e with data := some vals })
    let quant (f : EpiEntry → EpiEntry) := storesAt 1 0x30000 2 (fun e => f { e with data := some vals, progress := 16, amax := 0x3F800000 })
    let s (e : EpiEntry) (poison : List Nat := []) := (array [] [e] none 0 poison).modRegion 7 (fun g => { g with scale := 0x30800 })
    let emits (e : EpiEntry) := (s e).emitRow 5 e (e.rowBytes ((s e).core 5) (e.values ((s e).core 5) e.progress))
    let load := storesAt 2 0x30000
    (((s (storesAt 1 0x30000)).core 5).epi = storesAt 1 0x30000 :: [] ∧ (storesAt 1 0x30000).reserved = false ∧ (s load).frozenOn 5 7 = false ∧ (s load).gatesOpen 5 = true
      ∧ (storesAt 1 0x30000).data = none ∧ (storesAt 1 0x30000).op = none ∧ (storesAt 1 0x30000).desc.bi = false ∧ (storesAt 1 0x30000).desc.mode ≠ 2)
    ∧ ((row 0x30000 id).progress < (row 0x30000 id).rows ∧ someB (emits (row 0x30000 id)) (fun r => okB r (fun _ => true)) = true ∧ (row 0x30000 id).paired = false
      ∧ someB (emits (row 0x770000 id)) (fun r => errB r (fun _ => true)) = true ∧ (emits (row 5 (fun e => { e with desc := { e.desc with mode := 3 } }))).isNone
      ∧ (row 0x30000 (fun e => { e with progress := 16 })).rows ≤ (row 0x30000 (fun e => { e with progress := 16 })).progress)
    ∧ (okB ((s (quant id)).epiScale 5 (quant id)) (fun x => (s (quant id)).serves x.pa && ((s (quant id)).poisoned x.pa 64).isNone
          && ((s (quant id) [(2 ^ 48 + 0x10800) / 64]).poisoned x.pa 64).isSome) = true
      ∧ errB (((s (quant id)).modRegion 7 (fun g => { g with scale := 0x770000 })).epiScale 5 (quant id)) (fun _ => true) = true)
    ∧ (load.kind = 2 ∧ (s load).ecc = [] ∧ (s load).poison = [] ∧ ∀ r, r < 16 →
        piece ((s load).enginePieces 5 3 .load (load.src.setWidth 64 + BitVec.ofNat 64 r * load.desc.stride.setWidth 64).toNat 64 load.tlbs)
          (fun x n => (s load).serves x.pa && decide (kindOf x.pa ≤ 1 ∧ n = 64)) = true
        ∧ ((s load).walked 5 load.tlbs (load.src.setWidth 64 + BitVec.ofNat 64 r * load.desc.stride.setWidth 64).toNat 64).isSome = true) :=
  ⟨by decide +kernel, by decide +kernel, by decide +kernel, by decide +kernel⟩

/-- Contexts 3 of cores 5 and 9 run as twins, context 4 of core 13 as the tie-breaker; f, g and h change their parts. -/
def twins (f g h : Pair → Pair) : State :=
  let pair (c t : Nat) (b : Bool) : Pair := { twinCore := c, twinCtx := t, primary := b, waiting := true }
  let s := withK (fun k => { k with pair := some (f (pair 9 3 true)) })
  let twin (c t : Nat) (p : Pair) : Core := { (Core.reset c) with ctxs := (Core.reset c).ctxs.setIfInBounds t { thread 0 with pair := some p } }
  { s with cores := s.cores ++ [(9, twin 9 3 (g (pair 5 3 false))), (13, twin 13 4 (h (pair 5 3 false)))] }

theorem test_witness_PairEvents :
    let two (p : Pair) : Pair := { p with phase := 2, tie := some (13, 4) }
    let s := twins id id id
    let third := twins two id id
    ((s.ctx 5 3).pair.isSome ∧ (s.ctx 9 3).pair.isSome ∧ someB (s.ctx 5 3).pair (fun p => p.primary && decide (p.phase ≠ 2) && p.ready
        && someB (s.ctx p.twinCore p.twinCtx).pair (fun q => q.ready && decide (p.fp = q.fp ∧ p.efp = q.efp))) = true ∧ s.matrixDone 5 3 = true ∧ s.shut = false)
    ∧ (someB ((twins (fun p => { p with phase := 1 }) (fun p => { p with fp := 7 }) id).ctx 9 3).pair (fun q => decide (q.fp = 7)) = true
      ∧ someB ((twins (fun p => { p with waiting := false }) id id).ctx 5 3).pair (fun p => !p.ready) = true)
    ∧ (someB (third.ctx 5 3).pair (fun p => decide (p.phase = 2 ∧ p.tie = some (13, 4)) && someB (third.ctx 13 4).pair (fun x => x.ready && decide (p.fp = x.fp ∧ p.efp = x.efp))) = true
      ∧ someB ((twins two (fun p => { p with fp := 7 }) (fun p => { p with fp := 7 })).ctx 13 4).pair (fun x => x.ready && decide (x.fp = 7)) = true
      ∧ someB ((twins two id (fun p => { p with fp := 7 })).ctx 13 4).pair (fun x => decide (x.fp = 7)) = true
      ∧ someB ((twins two id (fun p => { p with waiting := false })).ctx 13 4).pair (fun x => !x.ready) = true) :=
  ⟨by decide +kernel, by decide +kernel, by decide +kernel⟩
/-! ### Witnesses: the machine as a whole -/

/-- A state whose issuing context has fetched these words, the line at its PC. -/
def fetching (l : List SlotWord) (s : State := base) : State := withK (fun k => { k with fbuf := .line 0x90000 l }) s

/-- The hypotheses of `Issues`, as a value. -/
def issuesB (s : State) : Bool :=
  decide (s.agenda = [] ∧ s.steps % 2 = 0 ∧ s.shut = false ∧ (s.turn < 4096 → (s.cluster (clusterOf s.turn)).stopped = false)
    ∧ (s.core s.turn).freeze = 0 ∧ s.mayIssue s.turn (nowCtx s) = true ∧ (now s).susp = none
    ∧ s.noticeDue s.turn = false ∧ s.userDue s.turn (nowCtx s) = false ∧ bitsN (now s).pc 0 2 = 0)
  && (s.coreDue s.turn).isNone

theorem issues_of {s : State} (h : issuesB s = true) : Issues s := by
  simp only [issuesB, Bool.and_eq_true, decide_eq_true_eq] at h
  obtain ⟨⟨a, b, c, d, e, f, g, i, j, k⟩, l⟩ := h
  exact ⟨⟨a, b⟩, ⟨c, d⟩, none_of l, e, f, g, ⟨i, j⟩, k⟩

theorem is_ok {α ε : Type} [DecidableEq α] {e : Except ε α} {x : α} (h : okB e (fun y => decide (y = x)) = true) : e = .ok x :=
  (ok_of h).elim fun _ h => h.1.trans (by rw [of_decide_eq_true h.2])

theorem is_error {α ε : Type} [DecidableEq ε] {e : Except ε α} {x : ε} (h : errB e (fun y => decide (y = x)) = true) : e = .error x :=
  (err_of h).elim fun _ h => h.1.trans (by rw [of_decide_eq_true h.2])

/-- An addition x1 := x2 + x3 and a reserved word, each the last of its bundle; the addition as the first slot of two, and a second
slot x4 := x5 - x6, the same with x1 as destination, and with an operand code that names nothing. -/
def wAdd : SlotWord := 0x800420C3#32
def wBad : SlotWord := 0x80000030#32
def wAdd1 : SlotWord := 0x000420C0#32
def wSub2 : SlotWord := 0x80105188#32
def wSubClash : SlotWord := 0x80045188#32
def wSubBad : SlotWord := 0x80124188#32

theorem test_witness_StepRunsDecodedInstruction :
    (Issues (fetching [wAdd]) ∧ (now (fetching [wAdd])).fetched = some [wAdd] ∧ frameBundle [wAdd] = .ok [wAdd]
      ∧ decodeWords [wAdd] = .ok (.add ⟨none, 1, 2, 3, 3⟩))
    ∧ (Issues (fetching [wBad]) ∧ Ready (fetching [wBad]) ∧ (now (fetching [wBad])).fetched = some [wBad] ∧ frameBundle [wBad] = .ok [wBad]
      ∧ decodeSlot none wBad = .error .reservedPoint)
    ∧ (Issues (fetching (List.replicate 8 0)) ∧ (now (fetching (List.replicate 8 0))).pair = none
      ∧ (now (fetching (List.replicate 8 0))).fetched = some (List.replicate 8 0) ∧ frameBundle (List.replicate 8 0) = .error (3, 7))
    ∧ (({ base with agenda := [.event .hostLinkDown] } : State).agenda = .event .hostLinkDown :: [] ∧ Instr.hostLinkDown.wellFormed = true
      ∧ encode .hostLinkDown = []) :=
  ⟨⟨issues_of (by decide +kernel), by decide +kernel, is_ok (by decide +kernel), is_ok (by decide +kernel)⟩,
   ⟨issues_of (by decide +kernel), ready_of (by decide +kernel), by decide +kernel, is_ok (by decide +kernel), is_error (by decide +kernel)⟩,
   ⟨issues_of (by decide +kernel), by decide +kernel, by decide +kernel, is_error (by decide +kernel)⟩, rfl, rfl, rfl⟩

theorem test_witness_EncodeDecodeRoundTrip :
    encode (.add ⟨none, 1, 2, 3, 3⟩) ≠ [] ∧ encode (.li ⟨some 0x0048D1, 7, 0x16789⟩) ≠ [] ∧ decodeWords [wAdd] = .ok (.add ⟨none, 1, 2, 3, 3⟩) :=
  ⟨by decide, by decide, is_ok (by decide +kernel)⟩

/-- At the first slot of a bundle only an X prefix can be wrong: no class of slots is limited to none. -/
theorem reason_first {l : List SlotWord} {r : Nat} (h : Reason l 0 r) : isX (l.getD 0 0) = true ∨ classLimit (classOf (l.getD 0 0)) = 0 := by
  rcases h with h | h | h | h | h
  · exact h.2.2.elim fun _ h => absurd h.1 (Nat.not_lt_zero _)
  · exact h.2.elim fun _ h => h.elim fun _ h => h.elim fun _ h => absurd h.1 (Nat.not_lt_zero _)
  · exact .inr (Nat.le_zero.mp h.2.2)
  · exact h.2.2.elim fun _ h => absurd h.1 (Nat.not_lt_zero _)
  · exact .inl h.2.1

/-- A second write of x1, an X prefix with no slot behind it, and a lone addition, at which no reason holds. -/
theorem test_witness_BundleFramingChecks :
    (8 ≤ (List.replicate 8 0#32).length ∧ (∀ w ∈ (List.replicate 8 0#32).take 8, fE w = false))
    ∧ ([wAdd1].length < 8 ∧ [wAdd1] ≠ [] ∧ ∀ w ∈ [wAdd1], fE w = false)
    ∧ (([] : List SlotWord).length < 8 ∧ fE wAdd = true ∧ ∀ j r, j < ([] ++ [wAdd]).length → ¬ Reason ([] ++ [wAdd]) j r)
    ∧ ((∀ x ∈ [wAdd1], fE x = false) ∧ fE wSubClash = true ∧ Reason ([wAdd1] ++ [wSubClash]) 1 1
      ∧ (∀ q, q < 1 → ¬ Reason ([wAdd1] ++ [wSubClash]) 1 q) ∧ ∀ i q, i < 1 → ¬ Reason ([wAdd1] ++ [wSubClash]) i q)
    ∧ (fE 0xFF000007 = true ∧ Reason ([] ++ [0xFF000007]) 0 6) := by
  have one : ∀ x ∈ [wAdd1], fE x = false := fun x h => by rw [List.mem_singleton.mp h]; rfl
  refine ⟨⟨by decide, fun w h => ?_⟩, ⟨by decide, by decide, one⟩, ⟨by decide, by decide, ?_⟩, ⟨one, by decide, ?_, ?_, ?_⟩, by decide, ?_⟩
  · rw [List.eq_of_mem_replicate (List.mem_of_mem_take h)]
    rfl
  · intro j r hj h
    have hj : j = 0 := Nat.lt_one_iff.mp hj
    subst hj
    exact absurd (reason_first h) (by decide +kernel)
  · exact .inl ⟨rfl, by decide +kernel, 0, by decide, by decide +kernel, by decide +kernel⟩
  · intro q hq h
    have : q = 0 := by omega
    subst this
    rcases h with h | h | h | h | h <;> exact absurd h.1 (by decide)
  · intro i q hi h
    have : i = 0 := by omega
    subst this
    exact absurd (reason_first h) (by decide +kernel)
  · exact .inr (.inr (.inr (.inr ⟨rfl, by decide +kernel, .inl rfl⟩)))
/-- The same context with latch q0 invalid and these predicates. -/
def narrow (p : BitVec 8) (s : State) : State := withK (fun k => { k with qv := 0xE, p := p }) s

/-- These two words issue as a bundle. -/
def issuing (s : State) (v w : SlotWord) : Prop := Issues s ∧ Ready s ∧ (now s).fetched = some (v :: w :: []) ∧ fE v = false ∧ fE w = true

theorem issuing_of {s : State} {v w : SlotWord} (h : issuesB s = true ∧ ((now s).mode = .running ∧ (now s).stop = none ∧ (now s).pair = none
    ∧ (now s).pendX = 0 ∧ (now s).pendY = 0 ∧ (now s).pendV = 0 ∧ (now s).pendQ = 0 ∧ (now s).regErr = [])
    ∧ (now s).fetched = some (v :: w :: []) ∧ fE v = false ∧ fE w = true) : issuing s v w := ⟨issues_of h.1, ready_of h.2.1, h.2.2⟩

theorem test_witness_TwoSlotBundles :
    (issuing (fetching [wAdd1, wSub2]) wAdd1 wSub2 ∧ decodeSlot none wAdd1 = .ok (.add ⟨none, 1, 2, 3, 0⟩)
      ∧ decodeSlot none wSub2 = .ok (.sub ⟨none, 4, 5, 6, 0⟩) ∧ Meets (fetching [wAdd1, wSub2]) 0 [2, 3, 5, 6])
    ∧ (issuing (fetching [wAdd1, wSubClash]) wAdd1 wSubClash ∧ decodeSlot none wSubClash = .ok (.sub ⟨none, 1, 5, 6, 0⟩))
    ∧ (issuing (fetching [wAdd1, wSubBad]) wAdd1 wSubBad ∧ decodeSlot none wSubBad = .ok (.sub ⟨none, 4, 36, 6, 0⟩)
      ∧ Meets (fetching [wAdd1, wSubBad]) 0 [2, 3])
    ∧ (issuing (narrow 5 (fetching [0x000420C1, 0x8010518A])) 0x000420C1 0x8010518A ∧ decodeSlot none 0x000420C1 = .ok (.add ⟨none, 1, 2, 3, 1⟩)
      ∧ decodeSlot none 0x8010518A = .ok (.sub ⟨none, 4, 5, 6, 2⟩) ∧ ¬ Guard (narrow 5 (fetching [0x000420C1, 0x8010518A])) 1
      ∧ Guard (narrow 5 (fetching [0x000420C1, 0x8010518A])) 2 ∧ Readable (narrow 5 (fetching [0x000420C1, 0x8010518A])) [2, 3, 5, 6])
    ∧ (issuing (narrow 1 (fetching [0x00060041, wSubBad])) 0x00060041 wSubBad ∧ decodeSlot none 0x00060041 = .ok (.add ⟨none, 1, 32, 1, 1⟩)
      ∧ ¬ Guard (narrow 1 (fetching [0x00060041, wSubBad])) 1 ∧ Guard (narrow 3 (fetching [0x00060041, wSubBad])) 1
      ∧ bit (now (narrow 1 (fetching [0x00060041, wSubBad]))).qv 0 = false) :=
  ⟨⟨issuing_of (by decide +kernel), is_ok (by decide +kernel), is_ok (by decide +kernel), meets_of (by decide +kernel) (by decide)⟩,
   ⟨issuing_of (by decide +kernel), is_ok (by decide +kernel)⟩,
   ⟨issuing_of (by decide +kernel), is_ok (by decide +kernel), meets_of (by decide +kernel) (by decide)⟩,
   ⟨issuing_of (by decide +kernel), is_ok (by decide +kernel), is_ok (by decide +kernel), by unfold Guard; decide +kernel, by unfold Guard; decide +kernel,
     by unfold Readable; decide +kernel⟩,
   issuing_of (by decide +kernel), is_ok (by decide +kernel), by unfold Guard; decide +kernel, by unfold Guard; decide +kernel, by decide +kernel⟩

/-- What the checks of a slot find for an instruction, up to the given row. -/
def freeB (i : Instr) (s : State) : Bool :=
  !(slotOf i).waits (now s) && !(slotOf i).streamWait (envOf i s) && !(slotOf i).tileBusy (envOf i s)

/-- The slot is in order up to its privilege. -/
def soundB (i : Instr) (s : State) : Bool :=
  freeB i s && (slotOf i).badMod.isNone && !(slotOf i).bad && ((slotOf i).illegal (envOf i s)).isNone

theorem test_witness_SlotChecks :
    let add : Instr := .add ⟨none, 1, 2, 3, 3⟩
    let neg : Instr := .vnegF64 ⟨none, 1, 2, 3⟩
    let bound := withK (fun k => { k with bind := #v[0x2000000000000004, 0, 0, 0, 0, 0, 0, 0] }) { base with chans := [(28676, { (chan 5 [] []) with shape := 16 })] }
    let calm (s : State) : Prop := (now s).mode = .running ∧ (now s).stop = none ∧ (now s).pair = none ∧ (now s).regErr = []
    (encode add ≠ [] ∧ encode neg ≠ [] ∧ calm base ∧ calm fp64 ∧ calm bound ∧ calm steward)
    ∧ ((slotOf add).waits (now (withK (fun k => { k with pendX := 4 }))) = true
      ∧ ((slotOf (.vadd ⟨none, 4, 24, 6, 6, 0⟩)).waits (now bound) = false ∧ (slotOf (.vadd ⟨none, 4, 24, 6, 6, 0⟩)).streamWait (envOf (.vadd ⟨none, 4, 24, 6, 6, 0⟩) bound) = true)
      ∧ (slotOf (.mzero ⟨none, 1, 0⟩)).tileBusy (envOf (.mzero ⟨none, 1, 0⟩) (withC (fun k => { k with busy := 0xFFFFFFFF }))) = true)
    ∧ (freeB add base = true ∧ (slotOf (.add ⟨some 8, 1, 2, 3, 3⟩)).badMod = some 8 ∧ freeB (.add ⟨some 8, 1, 2, 3, 3⟩) base = true)
    ∧ (freeB (.vcmpeq ⟨none, 8, 2, 3, 0, 0⟩) base = true ∧ (slotOf (.vcmpeq ⟨none, 8, 2, 3, 0, 0⟩)).bad = true)
    ∧ (freeB (.add ⟨none, 1, 36, 3, 3⟩) base = true ∧ 36 ≤ (36 : BitVec 6).toNat)
    ∧ (soundB (.iinva ⟨none, 0⟩) base = true ∧ (now base).prv < (slotOf (.iinva ⟨none, 0⟩)).lvl ∧ ¬ (now steward).prv < (slotOf (.iinva ⟨none, 0⟩)).lvl)
    ∧ (soundB add falsePreds = true ∧ (now falsePreds).rp (slotOf add).g = false ∧ (slotOf add).streamReads (now falsePreds) = [])
    ∧ (soundB (.add ⟨none, 1, 32, 3, 3⟩) (withK (fun k => { k with qv := 0xE })) = true ∧ (slotOf (.add ⟨none, 1, 32, 3, 3⟩)).lost (now (withK (fun k => { k with qv := 0xE }))) = some 0)
    ∧ (soundB neg base = true ∧ (slotOf neg).fp64 = true ∧ hasFp64 base.turn = false ∧ hasFp64 fp64.turn = true ∧ base.extTarget base.turn 7 = some 7
      ∧ (base.modRegion 7 (fun g => { g with wctx := 0 })).extTarget base.turn 7 = none) := by
  refine ⟨⟨by decide, by decide, ?_⟩, ⟨by decide +kernel, by decide +kernel, by decide +kernel⟩, by decide +kernel, by decide +kernel, by decide +kernel, by decide +kernel, by decide +kernel, by decide +kernel, by decide +kernel⟩
  decide +kernel

/-- A context in a supervisor handler, with x5 awaited or not, on core 5 or on service core 3. -/
def handling (pend : BitVec 32) (s : State) : State := withK (fun k => { k with status := k.status ||| 8, pendX := pend }) s

theorem test_witness_TrapEntry :
    (4096 ≤ firm.turn ∧ bit (firm.ctx 4099 3).status 3 = false ∧ (3 : Nat) < 16)
    ∧ (bit ((handling 0 firm).ctx 4099 3).status 3 = true)
    ∧ ((5 : Nat) < 4096 ∧ bit (steward.ctx 5 0).status 3 = false)
    ∧ (((handling 32 base).ctx 5 3).hasPending = true)
    ∧ ((base.ctx 5 3).hasPending = false ∧ Memory.wf base.mem = true ∧ (base.core 5).notices = [] ++ []
      ∧ (∀ q ∈ ([] : List Notice), q.evt = true ∧ q.cyc = (base.core 5).cycle) ∧ ∀ q, ([] : List Notice).getLast? = some q → ¬ (q.evt = true ∧ q.cyc = (base.core 5).cycle)) :=
  ⟨by decide +kernel, by decide +kernel, by decide +kernel, by decide +kernel, by decide +kernel, by decide +kernel, by decide +kernel, fun _ h => (nomatch h), fun _ h => (nomatch h)⟩

theorem test_witness_DoubleTrap :
    ((5 : Nat) < 4096 ∧ bit ((handling 0 steward).ctx 5 0).status 3 = true ∧ Memory.wf (handling 0 steward).mem = true ∧ ((handling 0 steward).ctx 5 0).hasPending = false)
    ∧ bit ((handling 32 steward).ctx 5 0).status 3 = true ∧ Memory.wf (handling 32 steward).mem = true ∧ ((handling 32 steward).ctx 5 0).hasPending = true := by
  decide +kernel

theorem test_witness_ZeroRegister : Meets base 3 [2, 3] ∧ Unmodified none ∧ Unmodified (some 0) ∧ ((0 : BitVec 6) = 0 ∨ (0 : BitVec 6) = 32) ∧ ((32 : BitVec 6) = 0 ∨ (32 : BitVec 6) = 32) :=
  ⟨meets_of (by decide +kernel) (by decide), .inl rfl, .inr rfl, .inl rfl, .inr rfl⟩

theorem test_witness_RegisterFiles : bit (thread 0x10).status 4 = true ∧ bit (thread 0).status 4 = false ∧ (1 : Nat) ≤ 4 ∧ (31 : Nat) < 32 := by decide +kernel

def nextB (s : State) (P : State → Bool) : Bool :=
  match step s with
  | .next t => P t
  | _ => false

theorem next_of {s : State} {P : State → Bool} (h : nextB s P = true) : ∃ t, step s = .next t ∧ P t = true := by
  unfold nextB at h
  split at h
  · exact ⟨_, ‹_›, h⟩
  all_goals cases h

theorem test_witness_MemoryStaysCanonical : Memory.wf base.mem = true ∧ ∃ t, step (fetching [wAdd]) = .next t ∧ Memory.wf t.mem = true :=
  ⟨by decide +kernel, next_of (by decide +kernel)⟩

theorem test_witness_ShutPackageStaysAtRest :
    AtRest { base with shut := true } ∧ ∃ t, step { base with shut := true } = .next t ∧ t.shut = true :=
  ⟨⟨rfl, by decide +kernel⟩, next_of (by decide +kernel)⟩
/-! ### Single instructions -/

/-- What the instruction leaves in its context. -/
def leaves (i : Instr) (s : State) (P : Ctx → Bool) : Bool :=
  match exec i s with
  | .next t => P (t.ctx s.turn (nowCtx s))
  | _ => false

/-- The instruction goes on to the next bundle and leaves this value in an x register and in latch q0. -/
def gives (i : Instr) (s : State) (r : Nat) (v : Word) : Bool :=
  leaves i s (fun k => k.rx r == v && (k.q.toList.head? == some (v.setWidth 128)) && bit k.qv 0 && k.pc == 0x90004)

def givesV (i : Instr) (s : State) (r : Nat) (v : Vec) (flags : FFlags := 0) : Bool :=
  leaves i s (fun k => k.rv r == v && (k.q.toList.head? == some v) && k.fflags == flags)

/-- The same with predicates: p1 to p7 in bits 1 to 7. -/
def givesP (i : Instr) (s : State) (p : BitVec 8) (flags : FFlags := 0) : Bool :=
  leaves i s (fun k => k.p ||| 1 == p && k.fflags == flags && k.qv == 0)

/-- The steward enters its handler with this cause and value, and goes on there. -/
def raises (i : Instr) (s : State) (cause tval : Word) : Bool :=
  leaves i s (fun k => k.cause == cause && k.tval == tval && k.epc == 0x90000 && k.pc == k.tvec && bit k.status 3)

/-- The steward with some x registers changed. -/
def root (l : List (Nat × Word) := []) : State := withX l steward

/-- R304, R31: wrapping, the products' high parts and the corners of division (the spec's own example for −7 by 2). -/
theorem test_arithmetic :
    gives (.add ⟨none, 1, 2, 3, 3⟩) (withX [(2, 0xFFFFFFFFFFFFFFFF), (3, 1)]) 1 0
    ∧ gives (.sub ⟨none, 1, 2, 3, 3⟩) base 1 0xFFFFFFFFFFFFFFFF
    ∧ gives (.mul ⟨none, 1, 2, 3, 0⟩) (withX [(2, 0xFFFFFFFFFFFFFFFF), (3, 3)]) 1 0xFFFFFFFFFFFFFFFD
    ∧ gives (.mulh ⟨none, 1, 2, 2, 0⟩) (withX [(2, 0xFFFFFFFFFFFFFFFF)]) 1 0
    ∧ gives (.mulhu ⟨none, 1, 2, 2, 0⟩) (withX [(2, 0xFFFFFFFFFFFFFFFF)]) 1 0xFFFFFFFFFFFFFFFE
    ∧ gives (.div ⟨none, 1, 2, 3, 0⟩) (withX [(2, 7), (3, 0)]) 1 0xFFFFFFFFFFFFFFFF
    ∧ gives (.rem ⟨none, 1, 2, 3, 0⟩) (withX [(2, 7), (3, 0)]) 1 7
    ∧ gives (.div ⟨none, 1, 2, 3, 0⟩) (withX [(2, 0xFFFFFFFFFFFFFFF9), (3, 2)]) 1 0xFFFFFFFFFFFFFFFD
    ∧ gives (.rem ⟨none, 1, 2, 3, 0⟩) (withX [(2, 0xFFFFFFFFFFFFFFF9), (3, 2)]) 1 0xFFFFFFFFFFFFFFFF
    ∧ gives (.div ⟨none, 1, 2, 3, 0⟩) (withX [(2, 0x8000000000000000), (3, 0xFFFFFFFFFFFFFFFF)]) 1 0x8000000000000000
    ∧ gives (.rem ⟨none, 1, 2, 3, 0⟩) (withX [(2, 0x8000000000000000), (3, 0xFFFFFFFFFFFFFFFF)]) 1 0
    ∧ gives (.divu ⟨none, 1, 2, 3, 0⟩) (withX [(2, 0xFFFFFFFFFFFFFFF9), (3, 2)]) 1 0x7FFFFFFFFFFFFFFC
    ∧ gives (.remu ⟨none, 1, 2, 3, 0⟩) (withX [(2, 0xFFFFFFFFFFFFFFF9), (3, 0)]) 1 0xFFFFFFFFFFFFFFF9 := by
  decide +kernel

/-- R304, R62, R287: the order of signed and unsigned values; a destination with `N` is left as it was; a latch as an operand. -/
theorem test_operands :
    gives (.min ⟨none, 1, 2, 3, 0⟩) (withX [(2, 0x8000000000000000), (3, 1)]) 1 0x8000000000000000
    ∧ gives (.maxu ⟨none, 1, 2, 3, 0⟩) (withX [(2, 0x8000000000000000), (3, 1)]) 1 0x8000000000000000
    ∧ gives (.andn ⟨none, 1, 2, 3, 0⟩) (withX [(2, 0xF0F0), (3, 0xFF00)]) 1 0xF0
    ∧ leaves (.add ⟨none, 33, 2, 3, 3⟩) base (fun k => k.rx 1 == 1 && k.q.toList.head? == some 5)
    ∧ gives (.xor ⟨none, 1, 34, 3, 0⟩) (withK (fun k => { k with q := k.q.set 2 0xFFFF0000000000000000000000000002 })) 1 1
    ∧ gives (.clz ⟨none, 1, 0, 0⟩) base 1 64 ∧ gives (.ctz ⟨none, 1, 2, 0⟩) (withX [(2, 0x8000000000000000)]) 1 63
    ∧ gives (.popc ⟨none, 1, 2, 0⟩) (withX [(2, 0x8000000000000101)]) 1 3 := by
  decide +kernel

/-- R306: an amount is never reduced; a negative immediate is a large one. -/
theorem test_shifts :
    gives (.sll ⟨none, 1, 2, 3, 0⟩) (withX [(2, 1), (3, 64)]) 1 0
    ∧ gives (.sll ⟨none, 1, 2, 3, 0⟩) (withX [(2, 3), (3, 63)]) 1 0x8000000000000000
    ∧ gives (.srl ⟨none, 1, 2, 3, 0⟩) (withX [(2, 0xFFFFFFFFFFFFFFFF), (3, 0x100000000)]) 1 0
    ∧ gives (.sra ⟨none, 1, 2, 3, 0⟩) (withX [(2, 0x8000000000000000), (3, 0x8000000000000000)]) 1 0xFFFFFFFFFFFFFFFF
    ∧ gives (.sra ⟨none, 1, 2, 3, 0⟩) (withX [(2, 0xFFFFFFFFFFFFFFF9), (3, 1)]) 1 0xFFFFFFFFFFFFFFFC
    ∧ gives (.slli ⟨none, 1, 2, 63, 0⟩) (withX [(2, 3)]) 1 0x8000000000000000 ∧ gives (.srli ⟨none, 1, 2, 0x1FF, 0⟩) (withX [(2, 3)]) 1 0
    ∧ gives (.srai ⟨none, 1, 2, 0x1FF, 0⟩) (withX [(2, 0x8000000000000000)]) 1 0xFFFFFFFFFFFFFFFF := by
  decide +kernel

/-- R308: the spec's worked example, and a field that ends at bit 63. -/
theorem test_bit_fields :
    gives (.bextu ⟨none, 4, 2, 3, 0⟩) (withX [(2, 0xABCD00), (3, 0xB08)]) 4 0xBCD
    ∧ gives (.bext ⟨none, 4, 2, 3, 0⟩) (withX [(2, 0xABCD00), (3, 0xB08)]) 4 0xFFFFFFFFFFFFFBCD
    ∧ gives (.bins ⟨none, 4, 2, 3, 0⟩) (withX [(2, 0xABCD00), (3, 0xB08), (4, 0)]) 4 0xD0000
    ∧ gives (.bextu ⟨none, 4, 2, 3, 0⟩) (withX [(2, 0xF000000000000000), (3, 0x3F3C)]) 4 0xF
    ∧ gives (.bins ⟨none, 4, 2, 3, 0⟩) (withX [(2, 0), (3, 0x3F3C), (4, 0xFFFFFFFFFFFFFFFF)]) 4 0x0FFFFFFFFFFFFFFF := by
  decide +kernel

/-- R291, R305, R314: sign-extended immediates, also under a prefix, and the spec's example of `li`; addresses count from the first slot
of the bundle, the prefix included. -/
theorem test_immediates :
    gives (.addi ⟨none, 1, 2, 0x1FF, 0⟩) base 1 1
    ∧ leaves (.addi ⟨some 0x800000, 1, 0, 0, 0⟩) base (fun k => k.rx 1 == 0xFFFFFFFF00000000 && k.pc == 0x90008)
    ∧ gives (.xori ⟨none, 1, 2, 0x1FF, 0⟩) base 1 0xFFFFFFFFFFFFFFFD ∧ gives (.andi ⟨none, 1, 31, 0x0FF, 0⟩) base 1 31
    ∧ leaves (.li ⟨some 0x0048D1, 7, 0x16789⟩) base (fun k => k.rx 7 == 0x123456789)
    ∧ gives (.li ⟨none, 7, 0x20000⟩) base 7 0xFFFFFFFFFFFE0000 ∧ gives (.adr ⟨none, 7, 0x3FFFF⟩) base 7 0x8FFFC
    ∧ leaves (.adr ⟨some 0, 7, 2⟩) base (fun k => k.rx 7 == 0x90008) := by
  decide +kernel

/-- R309: a predicate pair, at both ends of the registers; a write of p0 is discarded; odd, large and `N` destinations are illegal. -/
theorem test_compares :
    givesP (.cmplt ⟨none, 2, 2, 3, 0⟩) (withX [(2, 0xFFFFFFFFFFFFFFFF), (3, 0)]) 0xF7
    ∧ givesP (.cmpltu ⟨none, 2, 2, 3, 0⟩) (withX [(2, 0xFFFFFFFFFFFFFFFF), (3, 0)]) 0xFB
    ∧ givesP (.cmpge ⟨none, 6, 2, 2, 0⟩) base 0x7F ∧ givesP (.cmpne ⟨none, 0, 2, 2, 0⟩) (withK (fun k => { k with p := 0 })) 0x03
    ∧ givesP (.cmpltui ⟨none, 4, 2, 0x1FF, 0⟩) base 0xDF ∧ givesP (.cmplti ⟨none, 4, 2, 0x1FF, 0⟩) base 0xEF
    ∧ raises (.cmpeq ⟨none, 7, 2, 3, 0⟩) (root []) 0x02 0x851C20C0 ∧ raises (.cmpeq ⟨none, 8, 2, 3, 0⟩) (root []) 0x02 0x852020C0
    ∧ raises (.cmpeqi ⟨none, 34, 2, 3, 0⟩) (root []) 0x02 0x92882018 := by
  decide +kernel

/-- R310: negation and clearing; operand 8 and `N` are illegal. -/
theorem test_predicate_logic :
    givesP (.pxor ⟨none, 1, 2, 0, 0⟩) base 0xFD ∧ givesP (.pandn ⟨none, 7, 0, 0, 0⟩) base 0x7F ∧ givesP (.pand ⟨none, 0, 1, 2, 0⟩) base 0xFF
    ∧ givesP (.por ⟨none, 3, 7, 7, 0⟩) (withK (fun k => { k with p := 0x80 })) 0x89
    ∧ raises (.pand ⟨none, 1, 8, 2, 0⟩) (root []) 0x02 0x86048080 ∧ raises (.pand ⟨none, 33, 1, 2, 0⟩) (root []) 0x02 0x86841080 := by
  decide +kernel

/-- R289, R72: a false guard leaves the context as it was, but for an invalid latch. -/
theorem test_guard : leaves (.add ⟨none, 1, 2, 3, 5⟩) (withK (fun k => { k with p := 0xDF })) (fun k => k.rx 1 == 1 && k.qv == 0 && k.pc == 0x90004) := by
  decide +kernel

/-- R311, R52: sums and quotients, with the flag for a division by zero; the square root of −0; one rounding in a fused sum; NaNs. -/
theorem test_floats :
    gives (.faddF32 ⟨none, 1, 2, 3, 0⟩) (withX [(2, 0xAAAAAAAA3F800000), (3, 0x3F800000)]) 1 0x40000000
    ∧ leaves (.fdivF32 ⟨none, 1, 2, 3, 0⟩) (withX [(2, 0xBF800000), (3, 0)]) (fun k => k.rx 1 == 0xFF800000 && k.fflags == 8)
    ∧ leaves (.fdivF32 ⟨none, 1, 2, 3, 0⟩) (withX [(2, 0), (3, 0)]) (fun k => k.rx 1 == 0x7FC00000 && k.fflags == 16)
    ∧ gives (.fsqrtF32 ⟨none, 1, 2, 0⟩) (withX [(2, 0x80000000)]) 1 0x80000000
    ∧ leaves (.fsqrtF32 ⟨none, 1, 2, 0⟩) (withX [(2, 0x40000000)]) (fun k => k.rx 1 == 0x3FB504F3 && k.fflags == 1)
    ∧ gives (.fmaddF32 ⟨none, 1, 2, 3, 0⟩) (withX [(1, 0x3F800000), (2, 0x40000000), (3, 0x40400000)]) 1 0x40E00000
    ∧ gives (.fnmsubF32 ⟨none, 1, 2, 3, 0⟩) (withX [(1, 0x3F800000), (2, 0x40000000), (3, 0x40400000)]) 1 0xC0A00000
    ∧ gives (.fminF32 ⟨none, 1, 2, 3, 0⟩) (withX [(2, 0), (3, 0x80000000)]) 1 0x80000000
    ∧ leaves (.fmaxF32 ⟨none, 1, 2, 3, 0⟩) (withX [(2, 0x7FA00000), (3, 0)]) (fun k => k.rx 1 == 0x7FC00000 && k.fflags == 16)
    ∧ leaves (.fmulF32 ⟨none, 1, 2, 3, 0⟩) (withX [(2, 0x7F7FFFFF), (3, 0x40000000)]) (fun k => k.rx 1 == 0x7F800000 && k.fflags == 5) := by
  decide +kernel

/-- R312: equality of zeros; a NaN is unordered. -/
theorem test_float_compares :
    givesP (.fcmpeqF32 ⟨none, 2, 2, 3, 0⟩) (withX [(2, 0), (3, 0x80000000)]) 0xF7
    ∧ givesP (.fcmpltF32 ⟨none, 2, 2, 3, 0⟩) (withX [(2, 0x7FC00000), (3, 0)]) 0xFB 16
    ∧ givesP (.fcmpeqF32 ⟨none, 2, 2, 3, 0⟩) (withX [(2, 0x7FC00000), (3, 0)]) 0xFB
    ∧ givesP (.fcmpunF32 ⟨none, 2, 2, 3, 0⟩) (withX [(2, 0x7FC00000), (3, 0)]) 0xF7
    ∧ givesP (.fcmpleF32 ⟨none, 2, 2, 3, 0⟩) (withX [(2, 0xBF800000), (3, 0x3F800000)]) 0xF7 := by
  decide +kernel

/-- R313: the spec's three examples, and exact conversions. -/
theorem test_conversions :
    gives (.fcvtI64F32 ⟨none, 1, 2, 0⟩) (withX [(2, 0xCF000001)]) 1 0xFFFFFFFF7FFFFF00
    ∧ leaves (.fcvtU64F32 ⟨none, 1, 2, 0⟩) (withX [(2, 0xBF800000)]) (fun k => k.rx 1 == 0 && k.fflags == 16)
    ∧ leaves (.fcvtBf16F32 ⟨none, 1, 2, 0⟩) (withX [(2, 0x3F808000)]) (fun k => k.rx 1 == 0x3F80 && k.fflags == 1)
    ∧ gives (.fcvtF32Bf16 ⟨none, 1, 2, 0⟩) (withX [(2, 0xFFFF3F80)]) 1 0x3F800000 ∧ gives (.fcvtF32F16 ⟨none, 1, 2, 0⟩) (withX [(2, 0x3C00)]) 1 0x3F800000
    ∧ gives (.fcvtF32I64 ⟨none, 1, 2, 0⟩) (withX [(2, 0xFFFFFFFFFFFFFFFF)]) 1 0xBF800000
    ∧ gives (.fcvtF32U64 ⟨none, 1, 2, 0⟩) (withX [(2, 0x8000000000000000)]) 1 0x5F000000 := by
  decide +kernel

/-- R314 to R318: targets count from the bundle's first slot; a call leaves the next bundle's address in x31; the state of a loop. -/
theorem test_control :
    leaves (.br ⟨none, 0, 0xFFFFF⟩) base (fun k => k.pc == 0x8FFFC && k.qv == 0)
    ∧ leaves (.br ⟨none, 2, 4⟩) falsePreds (fun k => k.pc == 0x90004) ∧ leaves (.brn ⟨none, 2, 4⟩) falsePreds (fun k => k.pc == 0x90010)
    ∧ leaves (.brn ⟨none, 0, 4⟩) base (fun k => k.pc == 0x90004)
    ∧ leaves (.call ⟨some 0x800000, 0, 0⟩) base (fun k => k.pc == 0xFFFE00000090000 && k.rx 31 == 0x90008)
    ∧ leaves (.calln ⟨none, 1, 4⟩) base (fun k => k.pc == 0x90004 && k.rx 31 == 31)
    ∧ leaves (.callr ⟨none, 31, 0⟩) (withX [(31, 0x4000)]) (fun k => k.pc == 0x4000 && k.rx 31 == 0x90004)
    ∧ raises (.jr ⟨none, 5, 0⟩) (root [(5, 2)]) 0x05 2 ∧ raises (.jr ⟨none, 5, 0⟩) (root [(5, 0x1000000000000000)]) 0x06 0x1000000000000000
    ∧ leaves (.loop ⟨none, 0, 0x3FFFF⟩) base (fun k => k.lc == 1 && k.ls == 0x90004 && k.le == 0x8FFFC)
    ∧ leaves (.loop ⟨none, 9, 8⟩) base (fun k => k.lc == 9 && k.le == 0x90020) := by
  decide +kernel

/-- R86, R90, R319, R102: reads and writes of control registers; a number that names none, and a level too low. -/
theorem test_control_registers :
    gives (.crr ⟨none, 1, 0, 0⟩) base 1 3 ∧ gives (.crr ⟨none, 1, 1, 0⟩) base 1 5 ∧ gives (.crr ⟨none, 1, 5, 0⟩) base 1 7
    ∧ leaves (.crw ⟨none, 9, 0x11, 0⟩) (withX [(9, 0xFF)]) (fun k => k.fflags == 0x1F && k.qv == 0)
    ∧ leaves (.crw ⟨none, 9, 0x84, 0⟩) (root [(9, 0xF000000000001236 + 1)]) (fun k => k.tvec == 0x1234)
    ∧ leaves (.crw ⟨none, 9, 0x05, 0⟩) (withX [(9, 0xFF)]) (fun k => k.region == 7)
    ∧ raises (.crr ⟨none, 1, 0x06, 0⟩) (root []) 0x02 0x200000006
    ∧ raises (.brk ⟨none, 0x1FF, 0⟩) (root []) 0x17 0x1FF ∧ raises (.sys ⟨none, 5, 0⟩) (root []) 0x18 5 := by
  decide +kernel

/-- R95, R97: `tret` goes back to where the trap was taken. -/
theorem test_trap_return : leaves (.tret ⟨none, 0⟩) (withK (fun k => { k with status := 9, epc := 0x4440 }) steward) (fun k => k.pc == 0x4440 && !bit k.status 3) := by
  decide +kernel
/-- R325, R326, R322: elements wrap, saturate, and stay as they were where the mask excludes them. -/
theorem test_vector_arithmetic :
    givesV (.vadd ⟨none, 1, 2, 3, 0, 0⟩) (withV [(2, 0xFF01), (3, 0x0102)]) 1 0x0003
    ∧ givesV (.vadd ⟨none, 1, 2, 3, 1, 0⟩) (withV [(2, 0xFFFF8000), (3, 0x00018000)]) 1 0
    ∧ givesV (.vadds ⟨none, 1, 2, 3, 0, 0⟩) (withV [(2, 0x807F), (3, 0xFF01)]) 1 0x807F
    ∧ givesV (.vadds ⟨none, 1, 2, 3, 4, 0⟩) (withV [(2, 0xFF7F), (3, 0x0101)]) 1 0xFF80
    ∧ givesV (.vsubs ⟨none, 1, 2, 3, 4, 0⟩) (withV [(2, 0x01), (3, 0x02)]) 1 0
    ∧ givesV (.vmul ⟨none, 1, 2, 3, 2, 0⟩) (withV [(2, 0x10000), (3, 0x10001)]) 1 0x10000
    ∧ givesV (.vmla ⟨none, 1, 2, 3, 0, 0⟩) (withV [(1, 5), (2, 0x10), (3, 0x11)]) 1 0x15
    ∧ givesV (.vfma ⟨none, 1, 2, 3, 2, 0⟩) (withV [(1, 0x3F800000), (2, 0x40000000), (3, 0x40400000)]) 1 0x40E00000
    ∧ givesV (.vdiv ⟨none, 1, 2, 3, 0, 0⟩) (withV [(2, 0x3F80), (3, 0x3F803F803F803F803F803F803F800000)]) 1 0x7F80 8
    ∧ givesV (.vadd ⟨some 3, 1, 2, 3, 2, 0⟩) (withK (fun k => { k with m := k.m.setIfInBounds 3 0xF0F0 })
        (withV [(1, 0x00000001000000020000000300000004), (2, 0x00000010000000200000003000000040), (3, 0)])) 1 0x00000010000000020000003000000004 := by
  decide +kernel

/-- R326 to R328: signed and unsigned order; the selector excludes nothing; amounts are not reduced. -/
theorem test_vector_selection :
    givesV (.vmin ⟨none, 1, 2, 3, 0, 0⟩) (withV [(2, 0x0180), (3, 0x8001)]) 1 0x8080
    ∧ givesV (.vmaxu ⟨none, 1, 2, 3, 0, 0⟩) (withV [(2, 0x0180), (3, 0x8001)]) 1 0x8080
    ∧ givesV (.vsel ⟨some 2, 1, 2, 3, 0⟩) (withK (fun k => { k with m := k.m.setIfInBounds 2 0x0005 }) (withV [(2, 0x11223344), (3, 0xAABBCCDD)])) 1 0xAA22CC44
    ∧ givesV (.vsll ⟨none, 1, 2, 3, 0, 0⟩) (withV [(2, 0x0101), (3, 0x0807)]) 1 0x0080
    ∧ givesV (.vsra ⟨none, 1, 2, 3, 1, 0⟩) (withV [(2, 0x80008000), (3, 0x0001FFFF)]) 1 0xC000FFFF
    ∧ givesV (.vandn ⟨none, 1, 2, 3, 0⟩) (withV [(2, 0xFF), (3, 0x0F)]) 1 0xF0 := by
  decide +kernel

/-- What the instruction leaves in the masks. -/
def givesM (i : Instr) (s : State) (r : Nat) (m : BitVec 16) (flags : FFlags := 0) : Bool :=
  leaves i s (fun k => k.rm r == m && k.fflags == flags && k.qv == 0)

/-- R329, R330, R70: w bits for each element; a NaN compares false; a write of m0 is discarded; mask 8 is illegal. -/
theorem test_masks :
    givesM (.vcmpeq ⟨none, 3, 2, 3, 6, 0⟩) (withV [(2, 0x7FC000003F80000000000000), (3, 0x7FC000003F80000080000000)]) 3 0xF0FF
    ∧ givesM (.vcmplt ⟨none, 3, 2, 3, 6, 0⟩) (withV [(2, 0x7FC00000), (3, 0x7FC00000)]) 3 0 16
    ∧ givesM (.vcmpltu ⟨none, 3, 2, 3, 3, 0⟩) (withV [(2, 1), (3, 0x80000000000000000000000000000000)]) 3 0xFF00
    ∧ givesM (.mset ⟨none, 0, 2, 0⟩) base 0 0xFFFF ∧ givesM (.mset ⟨none, 7, 2, 0⟩) (withX [(2, 0xABCD1234)]) 7 0x1234
    ∧ givesM (.mandn ⟨none, 1, 0, 2, 0⟩) (withK (fun k => { k with m := k.m.setIfInBounds 2 0xFF })) 1 0xFF00
    ∧ raises (.vcmpeq ⟨none, 8, 2, 3, 0, 0⟩) (root []) 0x02 0xBD2020C0 := by
  decide +kernel

/-- R331, R332: an index of 16 or more gives 0; elements from 0 upward; element 2 of a `vget` does not exist. -/
theorem test_moves :
    givesV (.vshuf ⟨none, 1, 2, 3, 0⟩) (withV [(2, 0x0F0E0D0C0B0A09080706050403020100), (3, 0xFF10000102030405060708090A0B0C0F)]) 1 0x0000000102030405060708090A0B0C0F
    ∧ givesV (.vzipl ⟨none, 1, 2, 3, 0⟩) (withV [(2, 0x44444444333333332222222211111111), (3, 0x88888888777777776666666655555555)]) 1 0x66666666222222225555555511111111
    ∧ givesV (.vuzpo ⟨none, 1, 2, 3, 0⟩) (withV [(2, 0x44444444333333332222222211111111), (3, 0x88888888777777776666666655555555)]) 1 0x88888888666666664444444422222222
    ∧ givesV (.vsplat ⟨none, 1, 2, 1, 0⟩) (withX [(2, 0x98765)]) 1 0x87658765876587658765876587658765
    ∧ gives (.vget ⟨none, 1, 2, 1, 0⟩) (withV [(2, 0x00000000000000050000000000000006)]) 1 5
    ∧ givesV (.vput ⟨none, 1, 2, 1, 0⟩) (withV [(1, 7)]) 1 0x00000000000000020000000000000007
    ∧ raises (.vget ⟨none, 1, 2, 2, 0⟩) (root []) 0x02 0xC3042010 := by
  decide +kernel

/-- R333 to R335: the narrow formats, with a tie to even, an overflow (R53) and the canonical NaN. -/
theorem test_vector_conversions :
    givesV (.vcvtBf16F32 ⟨none, 1, 2, 3, 0⟩) (withV [(2, 0x3F808000), (3, 0x3F818000)]) 1 0x3F820000000000003F80 1
    ∧ givesV (.vcvtF32Bf16 ⟨none, 1, 2, 1, 0⟩) (withV [(2, 0x3F800000000000000000)]) 1 0x3F800000
    ∧ givesV (.vcvtE2m1F32 ⟨none, 1, 2, 3, 0⟩) (withV [(2, 0xC0C000003FC000003F800000), (3, 0x3F000000)]) 1 0x10F32
    ∧ givesV (.vcvtF32E4m3 ⟨none, 1, 2, 0, 0⟩) (withV [(2, 0x7F38)]) 1 0x7FC000003F800000
    ∧ givesV (.vcvtF32E2m1 ⟨none, 1, 2, 7, 0⟩) (withV [(2, 0xF0010000000000000000000000000000)]) 1 0xC0C0000000000000000000003F000000
    ∧ raises (.vcvtF32E4m3 ⟨none, 1, 2, 4, 0⟩) (root []) 0x02 0xC6042120
    ∧ givesV (.vcvtI32F32 ⟨none, 1, 2, 0⟩) (withV [(2, 0x4F000000)]) 1 0x7FFFFFFF 16 := by
  decide +kernel

/-- R337, R339 to R341, R343: sums in each lane; a whole destination; the order of scored entries; sign bits. -/
theorem test_reductions :
    givesV (.vdotI8 ⟨none, 1, 2, 3, 0⟩) (withV [(1, 10), (2, 0x04030201), (3, 0x010101FF)]) 1 18
    ∧ givesV (.vdotBf16 ⟨none, 1, 2, 3, 0⟩) (withV [(1, 0x3F800000), (2, 0x3F803F80), (3, 0x40003F80)]) 1 0x40800000
    ∧ givesV (.vhsumI32 ⟨none, 1, 2, 0⟩) (withV [(1, 0xFFFFFFFF00000000), (2, 0xFFFFFFFF000000030000000200000001)]) 1 5
    ∧ givesV (.vhminF32 ⟨none, 1, 2, 0⟩) (withV [(2, 0x80000000400000003F80000000000000)]) 1 0x80000000
    ∧ givesV (.vtopkF32 ⟨none, 1, 2, 3, 0⟩) (withV [(2, 0x7FC00000000000013F80000000000005), (3, 0x3F800000000000034000000000000009)]) 1
        0x3F800000000000034000000000000009
    ∧ givesV (.vamaxF32 ⟨none, 1, 2, 3, 0⟩) (withV [(2, 0xC0000000), (3, 0x3F800000)]) 1 0x40000000
    ∧ givesV (.vabsI32 ⟨none, 1, 2, 0⟩) (withV [(2, 0x80000000FFFFFFFF)]) 1 0x8000000000000001
    ∧ givesV (.vnegF32 ⟨none, 1, 2, 0⟩) (withV [(2, 0x7FA00000)]) 1 0x800000008000000080000000FFA00000 := by
  decide +kernel

/-- What the instruction leaves at an offset of core 5's slice. -/
def stores (i : Instr) (s : State) (a n v : Nat) : Bool :=
  match exec i s with
  | .next t => (List.range n).all (fun j => Mem.read t.mem (5 * 2 ^ 21 + a + j) == BitVec.ofNat 8 (v / 2 ^ (8 * j)))
  | _ => false

/-- R347, R349, R351: signs, widths and offsets in units of the access; a masked store; an address that is no multiple of the size. -/
theorem test_memory :
    gives (.ldI8I ⟨none, 6, 1, 3, 0⟩) (put 0x20 [0x80FFFFFF] (withX [(1, 0x10020)])) 6 0xFFFFFFFFFFFFFF80
    ∧ gives (.ldU16I ⟨none, 6, 1, 0x1FF, 0⟩) (put 0x20 [0x80FFFFFF] (withX [(1, 0x10024)])) 6 0x80FF
    ∧ gives (.ldU64R ⟨none, 6, 1, 2, 0⟩) (put 0x20 [0x123456789ABCDEF0] (withX [(1, 0x10000), (2, 0x20)])) 6 0x123456789ABCDEF0
    ∧ stores (.stU16I ⟨none, 3, 1, 1, 0⟩) (put 0x20 [0x1111111111111111] (withX [(1, 0x10020), (3, 0xABCDE)])) 0x20 8 0x11111111BCDE1111
    ∧ stores (.vstR ⟨some 1, 3, 1, 0, 0⟩) (put 0x20 [0x1111111111111111] (withX [(1, 0x10020)] (withK (fun k => { k with m := k.m.setIfInBounds 1 0x0A })
        (withV [(3, 0xAAAAAAAAAAAAAAAA)])))) 0x20 8 0x11111111AA11AA11
    ∧ raises (.ldU64I ⟨none, 6, 1, 0, 0⟩) (root [(1, 0x10024)]) 0x05 0x10024
    ∧ raises (.stU64I ⟨none, 6, 1, 0, 0⟩) (root [(1, 0x1000000000010000)]) 0x06 0x1000000000010000 := by
  decide +kernel

/-- R44, R358: the spec's example: planes 0x3C, 0x01, 0x80 of element 88, read with the guard plane and without; 92 is no multiple of 8. -/
theorem test_planes :
    let s := withX [(8, 0x20058), (9, 0)] { base with mem := [(5 * 2 ^ 21 + 0x10058, 0x3C), (5 * 2 ^ 21 + 0x10158, 0x01), (5 * 2 ^ 21 + 0x10258, 0x80)] }
    leaves (.ldpn ⟨none, 3, 8, 9, 1, 0⟩) s (fun k => (k.rv 3).setWidth 16 == 0x3C02#16)
    ∧ leaves (.ldpt ⟨none, 3, 8, 9, 1, 0⟩) s (fun k => (k.rv 3).setWidth 16 == 0x3C01#16)
    ∧ raises (.ldpn ⟨none, 3, 8, 9, 1, 0⟩) (root [(8, 0x2005C), (9, 0)]) 0x05 0x2005C := by
  decide +kernel

/-- A counter of the issuing core after an instruction. -/
def counterB (i : Instr) (s : State) (n : Nat) (P : Counter → Bool) : Bool :=
  match exec i s with
  | .next t => P ((t.core s.turn).ctr n)
  | _ => false

/-- R421, R266, R422: a value, an increment that waits for its step, a value read; a counter already reached; bits that must be zero. -/
theorem test_counters :
    counterB (.cset ⟨none, 9, 3, 0⟩) (withX [(3, 0xFFFFFFFF80000001)]) 9 (fun x => x.val == 0x80000001)
    ∧ counterB (.cadd ⟨none, 9, 3, 0⟩) (withX [(3, 0x1FFFFFFFF)]) 9 (fun x => x.val == 0 && x.inc == 0xFFFFFFFF)
    ∧ leaves (.crd ⟨none, 4, 9, 0⟩) (withC (fun k => { k with ctrs := [(9, { val := 7 })] })) (fun k => k.rx 4 == 7 && k.qv == 0)
    ∧ leaves (.waitc ⟨none, 9, 3, 0⟩) (withK (fun k => { k with p := 0 }) (withX [(3, 0)])) (fun k => k.rp 1 && k.mode == .running)
    ∧ raises (.cdisarm ⟨none, 9, 3, 0⟩) (root [(3, 4)]) 0x02 0xFB0090E0 := by
  decide +kernel

/-- R420: a spawn at an address that is no multiple of 4, and at a core number that does not exist. -/
theorem test_spawn_operands :
    raises (.spawn ⟨none, 4, 5, 0⟩) (root [(4, 6), (5, 0x2002)]) 0x05 0x2002 ∧ raises (.spawn ⟨none, 4, 5, 0⟩) (root [(4, 4096), (5, 0x2000)]) 0x02 0xFA004148 := by
  decide +kernel

/-- What an event leaves. -/
def happens (i : Instr) (s : State) (P : State → Bool) : Bool :=
  match exec i s with
  | .next t => P t
  | _ => false

/-- R266: the increments of a cycle are one sum modulo 2^32. R87, R469: the link down; the rate of `time` is limited. R213: a credit comes
back. -/
theorem test_events :
    happens (.counterCycleUpdate 5 9) (withC (fun k => { k with ctrs := [(9, { val := 0xFFFFFFFF, inc := 3 })] })) (fun t => ((t.core 5).ctr 9).val == 2 && ((t.core 5).ctr 9).inc == 0)
    ∧ happens .hostLinkDown { base with link := { up := true, gen := 5, width := 16, cxlVer := 31, cache := true } } (fun t => !t.link.up)
    ∧ happens (.gomondPortTrain 35 2) base (fun t => (t.ports.getD 35 {}).gen == 2)
    ∧ happens (.thermalThrottle 511 true) base (fun t => (t.cluster 511).stopped && !(t.cluster 0).stopped)
    ∧ happens (.timeRateAdjust (-200)) base (fun t => t.ppm == -200) := by
  decide +kernel

/-! ### Encodings -/

/-- The words decode to the instruction. -/
noncomputable def decodes (ws : List SlotWord) (i : Instr) : Bool := okB (decodeWords ws) (fun j => decide (j = i))

noncomputable def rejects (w : SlotWord) (r : Reject) : Bool := errB (decodeSlot none w) (fun q => decide (q = r))

/-- R286, R291, R292, R297: the two words of the spec's `li`, a reserved minor, a held bit, an unused field, and modifier bits. -/
theorem test_decode_refusals :
    decodes [0x7F0048D1, 0x951D6789] (.li ⟨some 0x48D1, 7, 0x16789⟩) ∧ rejects 0x80000030 .reservedPoint ∧ rejects 0x80000038 .reservedPoint
    ∧ rejects 0xD0000000 .heldBitOne ∧ rejects 0x83000060 .unusedField ∧ rejects 0xEF000000 .reservedPoint := by
  decide +kernel

theorem test_decode_integer :
    decodes [0x8058B845] (.add { d := 22, a := 11, b := 33, g := 5 })
    ∧ decodes [0x8058B84D] (.sub { d := 22, a := 11, b := 33, g := 5 })
    ∧ decodes [0x8058B855] (.and { d := 22, a := 11, b := 33, g := 5 })
    ∧ decodes [0x8058B85D] (.or { d := 22, a := 11, b := 33, g := 5 })
    ∧ decodes [0x8058B865] (.xor { d := 22, a := 11, b := 33, g := 5 })
    ∧ decodes [0x8058B86D] (.andn { d := 22, a := 11, b := 33, g := 5 })
    ∧ decodes [0x8158B845] (.sll { d := 22, a := 11, b := 33, g := 5 })
    ∧ decodes [0x8158B84D] (.srl { d := 22, a := 11, b := 33, g := 5 })
    ∧ decodes [0x8158B855] (.sra { d := 22, a := 11, b := 33, g := 5 })
    ∧ decodes [0x8258B845] (.mul { d := 22, a := 11, b := 33, g := 5 })
    ∧ decodes [0x8258B84D] (.mulh { d := 22, a := 11, b := 33, g := 5 })
    ∧ decodes [0x8258B855] (.mulhu { d := 22, a := 11, b := 33, g := 5 })
    ∧ decodes [0x8258B85D] (.div { d := 22, a := 11, b := 33, g := 5 })
    ∧ decodes [0x8258B865] (.divu { d := 22, a := 11, b := 33, g := 5 })
    ∧ decodes [0x8258B86D] (.rem { d := 22, a := 11, b := 33, g := 5 })
    ∧ decodes [0x8258B875] (.remu { d := 22, a := 11, b := 33, g := 5 })
    ∧ decodes [0x8358B845] (.min { d := 22, a := 11, b := 33, g := 5 })
    ∧ decodes [0x8358B84D] (.max { d := 22, a := 11, b := 33, g := 5 })
    ∧ decodes [0x8358B855] (.minu { d := 22, a := 11, b := 33, g := 5 })
    ∧ decodes [0x8358B85D] (.maxu { d := 22, a := 11, b := 33, g := 5 })
    ∧ decodes [0x8358B025] (.clz { d := 22, a := 11, g := 5 })
    ∧ decodes [0x8358B02D] (.ctz { d := 22, a := 11, g := 5 })
    ∧ decodes [0x8358B035] (.popc { d := 22, a := 11, g := 5 })
    ∧ decodes [0x8458B845] (.bext { d := 22, a := 11, b := 33, g := 5 })
    ∧ decodes [0x8458B84D] (.bextu { d := 22, a := 11, b := 33, g := 5 })
    ∧ decodes [0x8458B855] (.bins { d := 22, a := 11, b := 33, g := 5 }) := by
  decide +kernel

theorem test_decode_compare :
    decodes [0x8558B845] (.cmpeq { d := 22, a := 11, b := 33, g := 5 })
    ∧ decodes [0x8558B84D] (.cmpne { d := 22, a := 11, b := 33, g := 5 })
    ∧ decodes [0x8558B855] (.cmplt { d := 22, a := 11, b := 33, g := 5 })
    ∧ decodes [0x8558B85D] (.cmpge { d := 22, a := 11, b := 33, g := 5 })
    ∧ decodes [0x8558B865] (.cmpltu { d := 22, a := 11, b := 33, g := 5 })
    ∧ decodes [0x8558B86D] (.cmpgeu { d := 22, a := 11, b := 33, g := 5 })
    ∧ decodes [0x8658B845] (.pand { d := 22, a := 11, b := 33, g := 5 })
    ∧ decodes [0x8658B84D] (.por { d := 22, a := 11, b := 33, g := 5 })
    ∧ decodes [0x8658B855] (.pxor { d := 22, a := 11, b := 33, g := 5 })
    ∧ decodes [0x8658B85D] (.pandn { d := 22, a := 11, b := 33, g := 5 }) := by
  decide +kernel

theorem test_decode_scalarFloat :
    decodes [0x8758B845] (.faddF32 { d := 22, a := 11, b := 33, g := 5 })
    ∧ decodes [0x8758B84D] (.fsubF32 { d := 22, a := 11, b := 33, g := 5 })
    ∧ decodes [0x8758B855] (.fmulF32 { d := 22, a := 11, b := 33, g := 5 })
    ∧ decodes [0x8758B85D] (.fdivF32 { d := 22, a := 11, b := 33, g := 5 })
    ∧ decodes [0x8758B865] (.fminF32 { d := 22, a := 11, b := 33, g := 5 })
    ∧ decodes [0x8758B86D] (.fmaxF32 { d := 22, a := 11, b := 33, g := 5 })
    ∧ decodes [0x8758B035] (.fsqrtF32 { d := 22, a := 11, g := 5 })
    ∧ decodes [0x8858B845] (.fcmpeqF32 { d := 22, a := 11, b := 33, g := 5 })
    ∧ decodes [0x8858B84D] (.fcmpltF32 { d := 22, a := 11, b := 33, g := 5 })
    ∧ decodes [0x8858B855] (.fcmpleF32 { d := 22, a := 11, b := 33, g := 5 })
    ∧ decodes [0x8858B85D] (.fcmpunF32 { d := 22, a := 11, b := 33, g := 5 })
    ∧ decodes [0x8958B845] (.fmaddF32 { d := 22, a := 11, b := 33, g := 5 })
    ∧ decodes [0x8958B84D] (.fmsubF32 { d := 22, a := 11, b := 33, g := 5 })
    ∧ decodes [0x8958B855] (.fnmaddF32 { d := 22, a := 11, b := 33, g := 5 })
    ∧ decodes [0x8958B85D] (.fnmsubF32 { d := 22, a := 11, b := 33, g := 5 })
    ∧ decodes [0x8A58B005] (.fcvtF32I64 { d := 22, a := 11, g := 5 })
    ∧ decodes [0x8A58B00D] (.fcvtF32U64 { d := 22, a := 11, g := 5 })
    ∧ decodes [0x8A58B015] (.fcvtI64F32 { d := 22, a := 11, g := 5 })
    ∧ decodes [0x8A58B01D] (.fcvtU64F32 { d := 22, a := 11, g := 5 })
    ∧ decodes [0x8A58B025] (.fcvtBf16F32 { d := 22, a := 11, g := 5 })
    ∧ decodes [0x8A58B02D] (.fcvtF32Bf16 { d := 22, a := 11, g := 5 })
    ∧ decodes [0x8A58B035] (.fcvtF16F32 { d := 22, a := 11, g := 5 })
    ∧ decodes [0x8A58B03D] (.fcvtF32F16 { d := 22, a := 11, g := 5 }) := by
  decide +kernel

theorem test_decode_immediate :
    decodes [0x8B58BADD] (.addi { d := 22, a := 11, i := 0x15B, g := 5 })
    ∧ decodes [0x8C58BADD] (.andi { d := 22, a := 11, i := 0x15B, g := 5 })
    ∧ decodes [0x8D58BADD] (.ori { d := 22, a := 11, i := 0x15B, g := 5 })
    ∧ decodes [0x8E58BADD] (.xori { d := 22, a := 11, i := 0x15B, g := 5 })
    ∧ decodes [0x8F58BADD] (.slli { d := 22, a := 11, i := 0x15B, g := 5 })
    ∧ decodes [0x9058BADD] (.srli { d := 22, a := 11, i := 0x15B, g := 5 })
    ∧ decodes [0x9158BADD] (.srai { d := 22, a := 11, i := 0x15B, g := 5 })
    ∧ decodes [0x9258BADD] (.cmpeqi { d := 22, a := 11, i := 0x15B, g := 5 })
    ∧ decodes [0x9358BADD] (.cmplti { d := 22, a := 11, i := 0x15B, g := 5 })
    ∧ decodes [0x9458BADD] (.cmpltui { d := 22, a := 11, i := 0x15B, g := 5 })
    ∧ decodes [0x955AA5C3] (.li { d := 22, i := 0x2A5C3 })
    ∧ decodes [0x965AA5C3] (.adr { d := 22, i := 0x2A5C3 }) := by
  decide +kernel

theorem test_decode_branch :
    decodes [0x975AA5C3] (.loop { d := 22, i := 0x2A5C3 })
    ∧ decodes [0x9869ABCD] (.br { c := 3, o := 0x9ABCD })
    ∧ decodes [0x9879ABCD] (.brn { c := 3, o := 0x9ABCD })
    ∧ decodes [0x9969ABCD] (.call { c := 3, o := 0x9ABCD })
    ∧ decodes [0x9979ABCD] (.calln { c := 3, o := 0x9ABCD })
    ∧ decodes [0x9A00B005] (.jr { a := 11, g := 5 })
    ∧ decodes [0x9A00B00D] (.callr { a := 11, g := 5 }) := by
  decide +kernel

theorem test_decode_control :
    decodes [0x9B580ADD] (.crr { d := 22, i := 0x15B, g := 5 })
    ∧ decodes [0x9C00BADD] (.crw { a := 11, i := 0x15B, g := 5 })
    ∧ decodes [0x9D000005] (.yield { g := 5 })
    ∧ decodes [0x9D00000D] (.waitw { g := 5 })
    ∧ decodes [0x9D00B015] (.migr { a := 11, g := 5 })
    ∧ decodes [0x9E000ADD] (.realign { i := 0x15B, g := 5 })
    ∧ decodes [0x9F000ADD] (.brk { i := 0x15B, g := 5 })
    ∧ decodes [0xA0000ADD] (.sys { i := 0x15B, g := 5 })
    ∧ decodes [0xA1000005] (.tret { g := 5 })
    ∧ decodes [0xA100000D] (.uiret { g := 5 })
    ∧ decodes [0xA100B015] (.start { a := 11, g := 5 })
    ∧ decodes [0xA100B01D] (.reap { a := 11, g := 5 })
    ∧ decodes [0xA1000025] (.pairon { g := 5 })
    ∧ decodes [0xA100002D] (.pairoff { g := 5 })
    ∧ decodes [0xA1000035] (.placept { g := 5 })
    ∧ decodes [0xA200B00D] (.ldtab { a := 11, t := 1, g := 5 })
    ∧ decodes [0xA200B02D] (.ldcurve { a := 11, t := 1, g := 5 }) := by
  decide +kernel

theorem test_decode_system :
    decodes [0xA300B005] (.iinv { a := 11, g := 5 })
    ∧ decodes [0xA300000D] (.iinva { g := 5 })
    ∧ decodes [0xA358B855] (.chinst { d := 22, a := 11, b := 33, g := 5 })
    ∧ decodes [0xA358B01D] (.rgcmd { d := 22, a := 11, g := 5 })
    ∧ decodes [0xAD00B005] (.xinvl { a := 11, g := 5 })
    ∧ decodes [0xAD00B00D] (.xinvc { a := 11, g := 5 })
    ∧ decodes [0xAD00B015] (.xinva { a := 11, g := 5 })
    ∧ decodes [0xAD00001D] (.xinvt { g := 5 })
    ∧ decodes [0xAD000025] (.xsync { g := 5 }) := by
  decide +kernel

theorem test_decode_vectorArithmetic :
    decodes [0xB058B84D] (.vadd { d := 22, a := 11, b := 33, t := 1, g := 5 })
    ∧ decodes [0xB158B84D] (.vsub { d := 22, a := 11, b := 33, t := 1, g := 5 })
    ∧ decodes [0xB258B84D] (.vmul { d := 22, a := 11, b := 33, t := 1, g := 5 })
    ∧ decodes [0xB358B84D] (.vmla { d := 22, a := 11, b := 33, t := 1, g := 5 })
    ∧ decodes [0xB358B86D] (.vfma { d := 22, a := 11, b := 33, t := 1, g := 5 })
    ∧ decodes [0xB458B84D] (.vdiv { d := 22, a := 11, b := 33, t := 1, g := 5 })
    ∧ decodes [0xB458B02D] (.vsqrt { d := 22, a := 11, t := 1, g := 5 })
    ∧ decodes [0xB558B84D] (.vmin { d := 22, a := 11, b := 33, t := 1, g := 5 })
    ∧ decodes [0xB658B84D] (.vmax { d := 22, a := 11, b := 33, t := 1, g := 5 })
    ∧ decodes [0xB758B84D] (.vminu { d := 22, a := 11, b := 33, t := 1, g := 5 })
    ∧ decodes [0xB758B86D] (.vmaxu { d := 22, a := 11, b := 33, t := 1, g := 5 })
    ∧ decodes [0xB858B84D] (.vadds { d := 22, a := 11, b := 33, t := 1, g := 5 })
    ∧ decodes [0xB958B84D] (.vsubs { d := 22, a := 11, b := 33, t := 1, g := 5 }) := by
  decide +kernel

theorem test_decode_vectorMove :
    decodes [0xBA58B845] (.vand { d := 22, a := 11, b := 33, g := 5 })
    ∧ decodes [0xBA58B84D] (.vor { d := 22, a := 11, b := 33, g := 5 })
    ∧ decodes [0xBA58B855] (.vxor { d := 22, a := 11, b := 33, g := 5 })
    ∧ decodes [0xBA58B85D] (.vandn { d := 22, a := 11, b := 33, g := 5 })
    ∧ decodes [0xBA58B865] (.vsel { d := 22, a := 11, b := 33, g := 5 })
    ∧ decodes [0xBB58B84D] (.vsll { d := 22, a := 11, b := 33, t := 1, g := 5 })
    ∧ decodes [0xBB58B86D] (.vsrl { d := 22, a := 11, b := 33, t := 1, g := 5 })
    ∧ decodes [0xBC58B84D] (.vsra { d := 22, a := 11, b := 33, t := 1, g := 5 })
    ∧ decodes [0xBD58B84D] (.vcmpeq { d := 22, a := 11, b := 33, t := 1, g := 5 })
    ∧ decodes [0xBE58B84D] (.vcmplt { d := 22, a := 11, b := 33, t := 1, g := 5 })
    ∧ decodes [0xBF58B84D] (.vcmpltu { d := 22, a := 11, b := 33, t := 1, g := 5 })
    ∧ decodes [0xBF58B86D] (.vcmple { d := 22, a := 11, b := 33, t := 1, g := 5 })
    ∧ decodes [0xC058B845] (.mand { d := 22, a := 11, b := 33, g := 5 })
    ∧ decodes [0xC058B84D] (.mor { d := 22, a := 11, b := 33, g := 5 })
    ∧ decodes [0xC058B855] (.mxor { d := 22, a := 11, b := 33, g := 5 })
    ∧ decodes [0xC058B85D] (.mandn { d := 22, a := 11, b := 33, g := 5 })
    ∧ decodes [0xC058B025] (.mset { d := 22, a := 11, g := 5 })
    ∧ decodes [0xC158B845] (.vshuf { d := 22, a := 11, b := 33, g := 5 })
    ∧ decodes [0xC158B84D] (.vzipl { d := 22, a := 11, b := 33, g := 5 })
    ∧ decodes [0xC158B855] (.vziph { d := 22, a := 11, b := 33, g := 5 })
    ∧ decodes [0xC158B85D] (.vuzpe { d := 22, a := 11, b := 33, g := 5 })
    ∧ decodes [0xC158B865] (.vuzpo { d := 22, a := 11, b := 33, g := 5 })
    ∧ decodes [0xC258B00D] (.vsplat { d := 22, a := 11, t := 1, g := 5 })
    ∧ decodes [0xC358BADD] (.vget { d := 22, a := 11, i := 0x15B, g := 5 })
    ∧ decodes [0xC458BADD] (.vput { d := 22, a := 11, i := 0x15B, g := 5 }) := by
  decide +kernel

theorem test_decode_vectorConvert :
    decodes [0xC558B845] (.vcvtBf16F32 { d := 22, a := 11, b := 33, g := 5 })
    ∧ decodes [0xC558B84D] (.vcvtF32Bf16 { d := 22, a := 11, b := 33, g := 5 })
    ∧ decodes [0xC558B855] (.vcvtF16F32 { d := 22, a := 11, b := 33, g := 5 })
    ∧ decodes [0xC558B85D] (.vcvtF32F16 { d := 22, a := 11, b := 33, g := 5 })
    ∧ decodes [0xC558B025] (.vcvtI32F32 { d := 22, a := 11, g := 5 })
    ∧ decodes [0xC558B02D] (.vcvtF32I32 { d := 22, a := 11, g := 5 })
    ∧ decodes [0xC558B875] (.vcvtF64F32 { d := 22, a := 11, b := 33, g := 5 })
    ∧ decodes [0xC558B87D] (.vcvtF32F64 { d := 22, a := 11, b := 33, g := 5 })
    ∧ decodes [0xC658B845] (.vcvtE4m3F32 { d := 22, a := 11, b := 33, g := 5 })
    ∧ decodes [0xC658B84D] (.vcvtsE4m3F32 { d := 22, a := 11, b := 33, g := 5 })
    ∧ decodes [0xC658B855] (.vcvtE5m2F32 { d := 22, a := 11, b := 33, g := 5 })
    ∧ decodes [0xC658B85D] (.vcvtE2m1F32 { d := 22, a := 11, b := 33, g := 5 })
    ∧ decodes [0xC658B865] (.vcvtF32E4m3 { d := 22, a := 11, b := 33, g := 5 })
    ∧ decodes [0xC658B86D] (.vcvtF32E5m2 { d := 22, a := 11, b := 33, g := 5 })
    ∧ decodes [0xC658B875] (.vcvtF32E2m1 { d := 22, a := 11, b := 33, g := 5 })
    ∧ decodes [0xC758B84D] (.vdec { d := 22, a := 11, b := 33, t := 1, g := 5 })
    ∧ decodes [0xC758B86D] (.vquant { d := 22, a := 11, b := 33, t := 1, g := 5 })
    ∧ decodes [0xC858B845] (.vbsc { d := 22, a := 11, b := 33, g := 5 }) := by
  decide +kernel

theorem test_decode_vectorReduce :
    decodes [0xC958B845] (.vdotE2m1 { d := 22, a := 11, b := 33, g := 5 })
    ∧ decodes [0xC958B84D] (.vdotE4m3 { d := 22, a := 11, b := 33, g := 5 })
    ∧ decodes [0xC958B855] (.vdotE5m2 { d := 22, a := 11, b := 33, g := 5 })
    ∧ decodes [0xC958B85D] (.vdotI8 { d := 22, a := 11, b := 33, g := 5 })
    ∧ decodes [0xC958B865] (.vdotBf16 { d := 22, a := 11, b := 33, g := 5 })
    ∧ decodes [0xC958B86D] (.vdotF16 { d := 22, a := 11, b := 33, g := 5 })
    ∧ decodes [0xC958B875] (.vdotb { d := 22, a := 11, b := 33, g := 5 })
    ∧ decodes [0xCA58B005] (.vhsumF32 { d := 22, a := 11, g := 5 })
    ∧ decodes [0xCA58B00D] (.vhminF32 { d := 22, a := 11, g := 5 })
    ∧ decodes [0xCA58B015] (.vhmaxF32 { d := 22, a := 11, g := 5 })
    ∧ decodes [0xCA58B01D] (.vhamaxF32 { d := 22, a := 11, g := 5 })
    ∧ decodes [0xCA58B025] (.vhsumI32 { d := 22, a := 11, g := 5 })
    ∧ decodes [0xCA58B02D] (.vhsumF16 { d := 22, a := 11, g := 5 })
    ∧ decodes [0xCA58B035] (.vhsumBf16 { d := 22, a := 11, g := 5 })
    ∧ decodes [0xCA58B03D] (.vhsumF64 { d := 22, a := 11, g := 5 })
    ∧ decodes [0xCB58B845] (.vtopkF32 { d := 22, a := 11, b := 33, g := 5 })
    ∧ decodes [0xCB58B84D] (.vtopkBf16 { d := 22, a := 11, b := 33, g := 5 })
    ∧ decodes [0xCB58B855] (.vamaxF32 { d := 22, a := 11, b := 33, g := 5 })
    ∧ decodes [0xCB58B85D] (.vamaxBf16 { d := 22, a := 11, b := 33, g := 5 })
    ∧ decodes [0xCB58B865] (.vamaxF16 { d := 22, a := 11, b := 33, g := 5 })
    ∧ decodes [0xCC58B00D] (.vcurve { d := 22, a := 11, t := 1, g := 5 })
    ∧ decodes [0xCD58B005] (.vabsF32 { d := 22, a := 11, g := 5 })
    ∧ decodes [0xCD58B00D] (.vnegF32 { d := 22, a := 11, g := 5 })
    ∧ decodes [0xCD58B015] (.vabsI32 { d := 22, a := 11, g := 5 })
    ∧ decodes [0xCD58B01D] (.vnegI32 { d := 22, a := 11, g := 5 })
    ∧ decodes [0xCD58B025] (.vabsF16 { d := 22, a := 11, g := 5 })
    ∧ decodes [0xCD58B02D] (.vnegF16 { d := 22, a := 11, g := 5 })
    ∧ decodes [0xCD58B035] (.vabsF64 { d := 22, a := 11, g := 5 })
    ∧ decodes [0xCD58B03D] (.vnegF64 { d := 22, a := 11, g := 5 }) := by
  decide +kernel

theorem test_decode_load :
    decodes [0xD858B845] (.ldU8R { d := 22, a := 11, b := 33, g := 5 })
    ∧ decodes [0xD858B84D] (.ldI8R { d := 22, a := 11, b := 33, g := 5 })
    ∧ decodes [0xD858B855] (.ldU16R { d := 22, a := 11, b := 33, g := 5 })
    ∧ decodes [0xD858B85D] (.ldI16R { d := 22, a := 11, b := 33, g := 5 })
    ∧ decodes [0xD858B865] (.ldU32R { d := 22, a := 11, b := 33, g := 5 })
    ∧ decodes [0xD858B86D] (.ldI32R { d := 22, a := 11, b := 33, g := 5 })
    ∧ decodes [0xD858B875] (.ldU64R { d := 22, a := 11, b := 33, g := 5 })
    ∧ decodes [0xD858B87D] (.vldR { d := 22, a := 11, b := 33, g := 5 })
    ∧ decodes [0xD958B845] (.stU8R { d := 22, a := 11, b := 33, g := 5 })
    ∧ decodes [0xD958B84D] (.stU16R { d := 22, a := 11, b := 33, g := 5 })
    ∧ decodes [0xD958B855] (.stU32R { d := 22, a := 11, b := 33, g := 5 })
    ∧ decodes [0xD958B85D] (.stU64R { d := 22, a := 11, b := 33, g := 5 })
    ∧ decodes [0xD958B865] (.vstR { d := 22, a := 11, b := 33, g := 5 })
    ∧ decodes [0xDA58BADD] (.ldU8I { d := 22, a := 11, i := 0x15B, g := 5 })
    ∧ decodes [0xDB58BADD] (.ldI8I { d := 22, a := 11, i := 0x15B, g := 5 })
    ∧ decodes [0xDC58BADD] (.ldU16I { d := 22, a := 11, i := 0x15B, g := 5 })
    ∧ decodes [0xDD58BADD] (.ldI16I { d := 22, a := 11, i := 0x15B, g := 5 })
    ∧ decodes [0xDE58BADD] (.ldU32I { d := 22, a := 11, i := 0x15B, g := 5 })
    ∧ decodes [0xDF58BADD] (.ldI32I { d := 22, a := 11, i := 0x15B, g := 5 })
    ∧ decodes [0xE058BADD] (.ldU64I { d := 22, a := 11, i := 0x15B, g := 5 })
    ∧ decodes [0xE158BADD] (.vldI { d := 22, a := 11, i := 0x15B, g := 5 }) := by
  decide +kernel

theorem test_decode_store :
    decodes [0xE258BADD] (.stU8I { d := 22, a := 11, i := 0x15B, g := 5 })
    ∧ decodes [0xE358BADD] (.stU16I { d := 22, a := 11, i := 0x15B, g := 5 })
    ∧ decodes [0xE458BADD] (.stU32I { d := 22, a := 11, i := 0x15B, g := 5 })
    ∧ decodes [0xE558BADD] (.stU64I { d := 22, a := 11, i := 0x15B, g := 5 })
    ∧ decodes [0xE658BADD] (.vstI { d := 22, a := 11, i := 0x15B, g := 5 })
    ∧ decodes [0xE7580005] (.rel { d := 22, g := 5 })
    ∧ decodes [0xE700B00D] (.acq { a := 11, g := 5 })
    ∧ decodes [0xE7000015] (.acqall { g := 5 })
    ∧ decodes [0xE758001D] (.lmark { d := 22, g := 5 })
    ∧ decodes [0xE700B025] (.ldrop { a := 11, g := 5 })
    ∧ decodes [0xE700002D] (.fence { g := 5 })
    ∧ decodes [0xE7000035] (.drain { g := 5 })
    ∧ decodes [0xE700B87D] (.pref { a := 11, b := 33, g := 5 })
    ∧ decodes [0xE858B84D] (.radd { d := 22, a := 11, b := 33, t := 1, g := 5 })
    ∧ decodes [0xE958B84D] (.vradd { d := 22, a := 11, b := 33, t := 1, g := 5 }) := by
  decide +kernel

theorem test_decode_planed :
    decodes [0xEA58B855] (.ldpt { d := 22, a := 11, b := 33, n := 2, g := 5 })
    ∧ decodes [0xEA58B875] (.ldpn { d := 22, a := 11, b := 33, n := 2, g := 5 })
    ∧ decodes [0xEB58B845] (.pupd { d := 22, a := 11, b := 33, g := 5 })
    ∧ decodes [0xEB58B84D] (.padam { d := 22, a := 11, b := 33, g := 5 })
    ∧ decodes [0xEB58B855] (.stq { d := 22, a := 11, b := 33, g := 5 })
    ∧ decodes [0xEB00B01D] (.scommit { a := 11, g := 5 })
    ∧ decodes [0xEB58B025] (.scalc { d := 22, a := 11, g := 5 })
    ∧ decodes [0xEC58B005] (.rpush { d := 22, a := 11, g := 5 })
    ∧ decodes [0xEC00B00D] (.rpop { a := 11, g := 5 })
    ∧ decodes [0xEC58B015] (.sbind { d := 22, a := 11, g := 5 })
    ∧ decodes [0xEC58001D] (.sfree { d := 22, g := 5 })
    ∧ decodes [0xED58B005] (.scld { d := 22, a := 11, g := 5 })
    ∧ decodes [0xED00B84D] (.scst { a := 11, b := 33, g := 5 })
    ∧ decodes [0xED58B855] (.scadd { d := 22, a := 11, b := 33, g := 5 })
    ∧ decodes [0xED58B85D] (.scswp { d := 22, a := 11, b := 33, g := 5 })
    ∧ decodes [0xED58B865] (.sccas { d := 22, a := 11, b := 33, g := 5 })
    ∧ decodes [0xED58B86D] (.scmin { d := 22, a := 11, b := 33, g := 5 })
    ∧ decodes [0xED58B875] (.scmax { d := 22, a := 11, b := 33, g := 5 })
    ∧ decodes [0xED58B87D] (.scminu { d := 22, a := 11, b := 33, g := 5 })
    ∧ decodes [0xEE58B845] (.scmaxu { d := 22, a := 11, b := 33, g := 5 }) := by
  decide +kernel

theorem test_decode_matrix :
    decodes [0xF058B845] (.mmE2m1 { d := 22, a := 11, b := 33, g := 5 })
    ∧ decodes [0xF058B84D] (.mmE4m3 { d := 22, a := 11, b := 33, g := 5 })
    ∧ decodes [0xF058B855] (.mmE5m2 { d := 22, a := 11, b := 33, g := 5 })
    ∧ decodes [0xF058B85D] (.mmBf16 { d := 22, a := 11, b := 33, g := 5 })
    ∧ decodes [0xF058B865] (.mmF16 { d := 22, a := 11, b := 33, g := 5 })
    ∧ decodes [0xF058B86D] (.mmd { d := 22, a := 11, b := 33, g := 5 })
    ∧ decodes [0xF058B875] (.mmb { d := 22, a := 11, b := 33, g := 5 })
    ∧ decodes [0xF158B845] (.mspE2m1 { d := 22, a := 11, b := 33, g := 5 })
    ∧ decodes [0xF158B84D] (.mspE4m3 { d := 22, a := 11, b := 33, g := 5 })
    ∧ decodes [0xF158B855] (.mspE5m2 { d := 22, a := 11, b := 33, g := 5 })
    ∧ decodes [0xF158B85D] (.mspBf16 { d := 22, a := 11, b := 33, g := 5 })
    ∧ decodes [0xF158B865] (.mspF16 { d := 22, a := 11, b := 33, g := 5 })
    ∧ decodes [0xF158B86D] (.mspd { d := 22, a := 11, b := 33, g := 5 })
    ∧ decodes [0xF158B875] (.mspb { d := 22, a := 11, b := 33, g := 5 })
    ∧ decodes [0xF258B845] (.mmgE2m1 { d := 22, a := 11, b := 33, g := 5 })
    ∧ decodes [0xF258B84D] (.mmgE4m3 { d := 22, a := 11, b := 33, g := 5 })
    ∧ decodes [0xF258B855] (.mmgE5m2 { d := 22, a := 11, b := 33, g := 5 })
    ∧ decodes [0xF258B85D] (.mmgBf16 { d := 22, a := 11, b := 33, g := 5 })
    ∧ decodes [0xF258B865] (.mmgF16 { d := 22, a := 11, b := 33, g := 5 })
    ∧ decodes [0xF258B86D] (.mmgd { d := 22, a := 11, b := 33, g := 5 })
    ∧ decodes [0xF258B875] (.mmgb { d := 22, a := 11, b := 33, g := 5 })
    ∧ decodes [0xF3580005] (.mzero { d := 22, g := 5 })
    ∧ decodes [0xF358B84D] (.mtld { d := 22, a := 11, b := 33, g := 5 })
    ∧ decodes [0xF358B855] (.mtst { d := 22, a := 11, b := 33, g := 5 })
    ∧ decodes [0xF358B01D] (.mepi { d := 22, a := 11, g := 5 }) := by
  decide +kernel

theorem test_decode_engine :
    decodes [0xF458B845] (.copy { d := 22, a := 11, b := 33, g := 5 })
    ∧ decodes [0xF458B84D] (.copy2 { d := 22, a := 11, b := 33, g := 5 })
    ∧ decodes [0xF458B855] (.copyr { d := 22, a := 11, b := 33, g := 5 })
    ∧ decodes [0xF400B01D] (.ccan { a := 11, g := 5 })
    ∧ decodes [0xF558BADD] (.send { d := 22, a := 11, i := 0x15B, g := 5 })
    ∧ decodes [0xF658BADD] (.recv { d := 22, a := 11, i := 0x15B, g := 5 })
    ∧ decodes [0xF7000ADD] (.eos { i := 0x15B, g := 5 })
    ∧ decodes [0xF858BADD] (.bcast { d := 22, a := 11, i := 0x15B, g := 5 })
    ∧ decodes [0xF900B005] (.route { a := 11, g := 5 })
    ∧ decodes [0xF900B00D] (.rclose { a := 11, g := 5 })
    ∧ decodes [0xFA00B845] (.launch { a := 11, b := 33, g := 5 })
    ∧ decodes [0xFA00B84D] (.spawn { a := 11, b := 33, g := 5 })
    ∧ decodes [0xFA00B855] (.spawnc { a := 11, b := 33, g := 5 })
    ∧ decodes [0xFB00B845] (.cset { a := 11, b := 33, g := 5 })
    ∧ decodes [0xFB00B84D] (.cadd { a := 11, b := 33, g := 5 })
    ∧ decodes [0xFB58B015] (.crd { d := 22, a := 11, g := 5 })
    ∧ decodes [0xFB00B85D] (.carm { a := 11, b := 33, g := 5 })
    ∧ decodes [0xFB00B865] (.cdisarm { a := 11, b := 33, g := 5 })
    ∧ decodes [0xFB00B86D] (.cstage { a := 11, b := 33, g := 5 })
    ∧ decodes [0xFB00B875] (.waitc { a := 11, b := 33, g := 5 })
    ∧ decodes [0xFB58B87D] (.waitct { d := 22, a := 11, b := 33, g := 5 })
    ∧ decodes [0xFC58B845] (.mpost { d := 22, a := 11, b := 33, g := 5 })
    ∧ decodes [0xFC58B84D] (.mtake { d := 22, a := 11, b := 33, g := 5 }) := by
  decide +kernel

/-! ### Terms that are not well formed -/

theorem test_illFormed_0 :
    (Instr.hostLinkTrain 4 4 20 false).wellFormed = false
    ∧ (Instr.hostLinkTrain 5 5 20 false).wellFormed = false
    ∧ (Instr.hostLinkTrain 5 4 30 false).wellFormed = false
    ∧ (Instr.gomondPortTrain 36 1).wellFormed = false
    ∧ (Instr.gomondPortTrain 0 0).wellFormed = false
    ∧ (Instr.gomondPortTrain 0 3).wellFormed = false
    ∧ (Instr.gomondPortDown 36).wellFormed = false
    ∧ (Instr.channelRouteLoss 16777216 0).wellFormed = false
    ∧ (Instr.channelRouteLoss 0 4096).wellFormed = false
    ∧ (Instr.thermalThrottle 512 false).wellFormed = false
    ∧ (Instr.thermalShutdown 8).wellFormed = false
    ∧ (Instr.temperatureSample 8 0).wellFormed = false
    ∧ (Instr.temperatureSample 0 126).wellFormed = false
    ∧ (Instr.timeRateAdjust 201).wellFormed = false
    ∧ (Instr.timeRateAdjust (-201)).wellFormed = false
    ∧ (Instr.translationRootWrite 4096 0).wellFormed = false
    ∧ (Instr.ringDescriptorWrite 4096 0 0).wellFormed = false
    ∧ (Instr.ringDescriptorWrite 0 32 0).wellFormed = false
    ∧ (Instr.logDescriptorWrite 4096 0).wellFormed = false
    ∧ (Instr.logDescriptorEffect 4096).wellFormed = false
    ∧ (Instr.logSpillDescriptorWrite 4096 0).wellFormed = false
    ∧ (Instr.arrivalSpillDescriptorWrite 4096 0).wellFormed = false
    ∧ (Instr.mhbWrite 8 0 0).wellFormed = false
    ∧ (Instr.mhbWrite 0 16 0).wellFormed = false
    ∧ (Instr.chronographRequest 4096 0).wellFormed = false
    ∧ (Instr.hostLaunchPost 128 0).wellFormed = false
    ∧ (Instr.probationCommit 3).wellFormed = false
    ∧ (Instr.heartbeatFallback 3).wellFormed = false
    ∧ (Instr.bodyRestart 3).wellFormed = false := by
  decide

theorem test_illFormed_1 :
    (Instr.clusterTlbLookup 4096 0).wellFormed = false
    ∧ (Instr.clusterTlbLookup 0 16).wellFormed = false
    ∧ (Instr.walkComplete 512 0).wellFormed = false
    ∧ (Instr.fetchPortServe 512).wellFormed = false
    ∧ (Instr.fetchLineDeliver 512).wellFormed = false
    ∧ (Instr.icacheFillComplete 512).wellFormed = false
    ∧ (Instr.realignRelease 4096 0).wellFormed = false
    ∧ (Instr.realignRelease 0 16).wellFormed = false
    ∧ (Instr.workerTrapStop 4096 0).wellFormed = false
    ∧ (Instr.workerTrapStop 0 16).wellFormed = false
    ∧ (Instr.trapHandlerEntry 4096).wellFormed = false
    ∧ (Instr.userInterruptEntry 4096 0).wellFormed = false
    ∧ (Instr.userInterruptEntry 0 16).wellFormed = false
    ∧ (Instr.matrixFaultStop 4096).wellFormed = false
    ∧ (Instr.freezeEnd 4096).wellFormed = false
    ∧ (Instr.hostLineWriteback 281474976710656).wellFormed = false
    ∧ (Instr.hostSnoop 281474976710656).wellFormed = false
    ∧ (Instr.hostCxlMemAccess 549755813888 false 0).wellFormed = false
    ∧ (Instr.shipperSend 4096).wellFormed = false
    ∧ (Instr.batchApply 4096 0 0).wellFormed = false
    ∧ (Instr.batchApply 0 16 0).wellFormed = false
    ∧ (Instr.batchApply 0 0 4096).wellFormed = false
    ∧ (Instr.forcedCompaction 4096).wellFormed = false
    ∧ (Instr.spillRefill 4096).wellFormed = false
    ∧ (Instr.dispatch 4096).wellFormed = false
    ∧ (Instr.loadComplete 4096 0).wellFormed = false
    ∧ (Instr.loadComplete 0 16).wellFormed = false := by
  decide

theorem test_illFormed_2 :
    (Instr.dispenserPlace 512).wellFormed = false
    ∧ (Instr.extensionMigrate 4096 0).wellFormed = false
    ∧ (Instr.extensionMigrate 0 16).wellFormed = false
    ∧ (Instr.frameRestoreDispatch 4096).wellFormed = false
    ∧ (Instr.frameMoveRetry 4096 0).wellFormed = false
    ∧ (Instr.frameMoveRetry 0 16).wellFormed = false
    ∧ (Instr.deadlockDetect 16777216).wellFormed = false
    ∧ (Instr.preemptArrive 4096).wellFormed = false
    ∧ (Instr.preemptSave 4096).wellFormed = false
    ∧ (Instr.resumeRestore 4096).wellFormed = false
    ∧ (Instr.placementApply 16777216 []).wellFormed = false
    ∧ (Instr.counterCycleUpdate 4096 0).wellFormed = false
    ∧ (Instr.counterCycleUpdate 0 64).wellFormed = false
    ∧ (Instr.triggerActionResume 4096).wellFormed = false
    ∧ (Instr.waitcTimeout 4096 0).wellFormed = false
    ∧ (Instr.copyPacketLand 4096 0 0).wellFormed = false
    ∧ (Instr.copyEnd 4096 0).wellFormed = false
    ∧ (Instr.copyCancelArrive 4096 0 []).wellFormed = false
    ∧ (Instr.copyTimeout 4096 0).wellFormed = false
    ∧ (Instr.sendEngineInject 4096).wellFormed = false
    ∧ (Instr.treeNodeCombine 16777216 0 0).wellFormed = false
    ∧ (Instr.treeNodeCombine 0 4096 0).wellFormed = false
    ∧ (Instr.tableLoadEffect 4096 0).wellFormed = false
    ∧ (Instr.tableLoadEffect 0 16).wellFormed = false
    ∧ (Instr.patternReadahead 4096 0 24).wellFormed = false
    ∧ (Instr.patternReadahead 0 16 24).wellFormed = false
    ∧ (Instr.patternReadahead 0 0 32).wellFormed = false
    ∧ (Instr.patternReadahead 0 0 23).wellFormed = false := by
  decide

theorem test_illFormed_3 :
    (Instr.routeJobStart 512).wellFormed = false
    ∧ (Instr.routeJobEnd 512).wellFormed = false
    ∧ (Instr.rcloseRun 512).wellFormed = false
    ∧ (Instr.matrixStepStart 4096).wellFormed = false
    ∧ (Instr.matrixStepRetire 4096).wellFormed = false
    ∧ (Instr.mmgGroupTake 4096 0).wellFormed = false
    ∧ (Instr.mmgComplete 4096 0).wellFormed = false
    ∧ (Instr.epilogueStart 4096).wellFormed = false
    ∧ (Instr.epilogueRowEmit 4096).wellFormed = false
    ∧ (Instr.epilogueComplete 4096).wellFormed = false
    ∧ (Instr.mtldComplete 4096).wellFormed = false
    ∧ (Instr.comparePoint 4096 0).wellFormed = false
    ∧ (Instr.comparePoint 0 16).wellFormed = false
    ∧ (Instr.tieBreakResult 4096 0).wellFormed = false
    ∧ (Instr.tieBreakResult 0 16).wellFormed = false
    ∧ (Instr.binMove 4096).wellFormed = false
    ∧ (Instr.selfTestResult 4096 false 0).wellFormed = false
    ∧ (Instr.binRecovery 4096).wellFormed = false := by
  decide

/-- R436, R437: an operation issued after the checkpoint leaves the old contents in the shadow, an earlier one does not; a rollback takes
them back in both cores. -/
theorem test_checkpoint_tiles :
    let p : Pair := { twinCore := 4, twinCtx := 6, primary := true, ckOp := 10 }
    let s := (base.modCore 5 (fun k => k.setTile 2 [7])).modCtx 5 3 (fun k => { k with pair := some p })
    let late := s.writeTile 5 3 2 true 10 [8]
    let early := s.writeTile 5 3 2 true 9 [8]
    ((late.core 5).tile 2 = [8] ∧ (late.core 4).tile 2 = [8] ∧ (late.ctx 5 3).pair.map (·.shadow) = some [(2, [7])])
    ∧ ((early.core 5).tile 2 = [8] ∧ (early.ctx 5 3).pair.map (·.shadow) = some [])
    ∧ (((late.restoreTiles 5 { p with shadow := [(2, [7])] }).core 5).tile 2 = [7]
      ∧ ((late.restoreTiles 5 { p with shadow := [(2, [7])] }).core 4).tile 2 = [7]) := by
  decide +kernel

/-- R405: an element that crosses a page goes to both pages' places. -/
theorem test_receive_pieces :
    let s := base.wrPieces [(0x2FFF0, 16), (0x50000, 16)] (List.replicate 16 1 ++ List.replicate 16 2)
    pagePieces 0x2FFF0 32 = [(0x2FFF0, 16), (0x30000, 16)] ∧ Mem.read s.mem 0x2FFFF = 1 ∧ Mem.read s.mem 0x50000 = 2
    ∧ Mem.read s.mem 0x30000 = Mem.read base.mem 0x30000 := by
  decide +kernel

end Sys2Proof.Tests
end

section
/-! The x file's zero register (R62): what a read of it gives, what a write to it leaves, and the form of `d` that names it. -/

namespace Sys2Proof.Machine

/-! ### x0 of a context -/

@[simp] theorem Ctx.rx_zero (k : Ctx) : k.rx 0 = 0 := rfl

@[simp] theorem Ctx.wx_zero (k : Ctx) (v : Word) : k.wx 0 v = k := rfl

/-! ### x0 as an operand -/

/-- The code 0 of an x-file operand names a register, not a latch (R287). -/
@[simp] theorem Env.xa_zero (e : Env) : e.xa 0 = 0 := by
  have hreg : (0 : BitVec 6).toNat < 32 := by decide
  rw [Env.xa, if_pos hreg]
  exact Ctx.rx_zero _

/-- A field `d` names x0 with `N` clear (0) and with `N` set (32). -/
theorem dReg_of_x0 {d : BitVec 6} (hd : d = 0 ∨ d = 32) : dReg d = 0 := by
  rcases hd with rfl | rfl <;> rfl

theorem Env.xOld_of_x0 (e : Env) {d : BitVec 6} (hd : d = 0 ∨ d = 32) : e.xOld d = 0 := by
  rw [Env.xOld, dReg_of_x0 hd, Ctx.rx_zero]

/-! ### x0 as a destination -/

/-- The result of an E slot changes its context by the write that `N` may withhold, and by nothing else (R62). -/
theorem Work.outE_ctx (w : Work) (e : Env) (d : BitVec 6) (v : Word) :
    (w.outE e d v).s.ctx e.c e.t = if dN d then w.s.ctx e.c e.t else (w.s.ctx e.c e.t).wx (dReg d) v := by
  unfold Work.outE
  split
  · rfl
  · exact State.ctx_modCtx_self _ _ _ _

/-- A result with a latch leaves the machine as a result without one does (R71). -/
theorem Work.outX_s (w : Work) (e : Env) (d : BitVec 6) (v : Word) : (w.outX e d v).s = (w.outE e d v).s := rfl

theorem Work.outE_ctx_of_x0 (w : Work) (e : Env) {d : BitVec 6} (hd : d = 0 ∨ d = 32) (v : Word) :
    (w.outE e d v).s.ctx e.c e.t = w.s.ctx e.c e.t := by
  rw [Work.outE_ctx, dReg_of_x0 hd, Ctx.wx_zero, ite_self]

/-- An instruction whose result goes to x0 changes its latch and the PC only (R62, R71). -/
theorem givesCtx_of_givesX_x0 {i : Instr} {s : State} {d : BitVec 6} {v : Word} (h : GivesX i s d v) (hd : d = 0 ∨ d = 32) :
    GivesCtx i s (.val (v.setWidth 128)) (now s) := by
  rwa [GivesX, dReg_of_x0 hd, Ctx.wx_zero, ite_self] at h

/-- Settles O55: each clause is a rule of x0 above; the `add` completes as any x, x slot does, with its write discarded. -/
theorem zeroRegister : Obligations.ZeroRegister := by
  unfold Obligations.ZeroRegister
  refine ⟨Ctx.rx_zero, fun e => ⟨Env.xa_zero e, e.xOld_of_x0 (.inl rfl)⟩, Ctx.wx_zero, ?_, ?_⟩
  · intro w e d v hd
    exact ⟨by rw [Work.outX_s, Work.outE_ctx_of_x0 w e hd], Work.outX_lat w e d v, Work.outE_ctx_of_x0 w e hd v⟩
  · intro s o hready hguard hmod hread hd
    have hadd : GivesX (.add o) s o.d (X s o.a + X s o.b) :=
      givesX_sBin (slot_exec rfl rfl) hready hguard hmod hread
    exact givesCtx_of_givesX_x0 hadd hd

end Sys2Proof.Machine
end

section
/-! The save area (R80, R95, R103): the words that a read of memory gives after words have been written there, and what the frame of
a context is and leaves. -/

namespace Sys2Proof.Machine

/-! ### Bytes of a number -/

/-- The n low bytes of a number hold it modulo 2^(8n) (R5). -/
theorem ofBytes_toBytes (n x : Nat) : ofBytes (toBytes n x) = x % 256 ^ n := by
  induction n generalizing x with
  | zero => simp [toBytes, ofBytes, Nat.mod_one]
  | succ n ih =>
    have hbyte : (BitVec.ofNat 8 x).toNat = x % 256 := BitVec.toNat_ofNat x 8
    rw [toBytes, ofBytes, ih, hbyte, Nat.pow_succ', Nat.mod_mul]

theorem ofNat_ofBytes_toBytes (v : Word) : BitVec.ofNat 64 (ofBytes (toBytes 8 v.toNat)) = v := by
  have hfits : v.toNat % 256 ^ 8 = v.toNat := Nat.mod_eq_of_lt v.isLt
  rw [ofBytes_toBytes, hfits, BitVec.ofNat_toNat, BitVec.setWidth_eq]

/-! ### Words of memory -/

theorem Mem.bytes_congr {m m' : List Host.Cell} {a n : Nat} (h : ∀ b, a ≤ b → b < a + n → Mem.read m b = Mem.read m' b) :
    Mem.bytes m a n = Mem.bytes m' a n := by
  induction n generalizing a with
  | zero => rfl
  | succ n ih =>
    rw [Mem.bytes, Mem.bytes, h a (by omega) (by omega), ih fun b h1 h2 => h b (by omega) (by omega)]

/-- The bytes read where bytes have just been stored are those. -/
theorem Mem.bytes_store_self (bs : List Byte) {m : List Host.Cell} (hwf : Memory.wf m = true) (a : Nat) :
    Mem.bytes (Mem.store m a bs) a bs.length = bs := by
  induction bs generalizing m a with
  | nil => rfl
  | cons b bs ih =>
    have hwf' : Memory.wf (Mem.write m a b) = true := Mem.wfFrom_write b hwf (Nat.zero_le a)
    have hfirst : Mem.read (Mem.store (Mem.write m a b) (a + 1) bs) a = b := by
      rw [Mem.read_store_outside _ _ _ hwf' (by omega), Mem.read_write b hwf, if_pos rfl]
    rw [Mem.store, List.length_cons, Mem.bytes, ih hwf', hfirst]

theorem State.rd64_congr {s u : State} {pa : Nat} (h : ∀ b, pa ≤ b → b < pa + 8 → Mem.read s.mem b = Mem.read u.mem b) :
    s.rd64 pa = u.rd64 pa := by
  rw [State.rd64, State.rd64, State.rdN, State.rdN, Mem.bytes_congr h]

/-- A change of a context changes no word of memory. -/
@[simp] theorem State.rd64_modCtx (s : State) (c t : Nat) (f : Ctx → Ctx) (pa : Nat) : (s.modCtx c t f).rd64 pa = s.rd64 pa := rfl

theorem State.rd64_wr64_self {s : State} (hwf : Memory.wf s.mem = true) (pa : Nat) (v : Word) : (s.wr64 pa v).rd64 pa = v := by
  have hbytes : Mem.bytes (Mem.store s.mem pa (toBytes 8 v.toNat)) pa 8 = toBytes 8 v.toNat := by
    simpa using Mem.bytes_store_self (toBytes 8 v.toNat) hwf pa
  rw [State.rd64, State.rdN, State.wr64, State.wrBytes, hbytes, ofNat_ofBytes_toBytes]

theorem State.read_wr64_outside {s : State} (hwf : Memory.wf s.mem = true) (v : Word) {pa b : Nat} (hb : b < pa ∨ pa + 8 ≤ b) :
    Mem.read (s.wr64 pa v).mem b = Mem.read s.mem b :=
  Mem.read_store_outside _ s.mem pa hwf (by simpa using hb)

theorem State.read_wrWords_outside (ws : List Word) {s : State} (hwf : Memory.wf s.mem = true) {pa b : Nat}
    (hb : b < pa ∨ pa + 8 * ws.length ≤ b) : Mem.read (s.wrWords pa ws).mem b = Mem.read s.mem b := by
  induction ws generalizing s pa with
  | nil => rfl
  | cons w ws ih =>
    rw [List.length_cons] at hb
    rw [State.wrWords, ih (State.wf_wr64 hwf pa w) (by omega), State.read_wr64_outside hwf w (by omega)]

/-- A read of the word numbered j, after words have been written from `pa` upward, gives that word. -/
theorem State.rd64_wrWords (ws : List Word) {s : State} (hwf : Memory.wf s.mem = true) {j : Nat} (hj : j < ws.length) (pa : Nat) :
    (s.wrWords pa ws).rd64 (pa + 8 * j) = ws.getD j 0 := by
  induction ws generalizing s pa j with
  | nil => exact absurd hj (Nat.not_lt_zero j)
  | cons w ws ih =>
    have hwf' := State.wf_wr64 hwf pa w
    cases j with
    | zero =>
      have hlater : ((s.wr64 pa w).wrWords (pa + 8) ws).rd64 pa = (s.wr64 pa w).rd64 pa :=
        State.rd64_congr fun b _ hb => State.read_wrWords_outside ws hwf' (.inl hb)
      exact hlater.trans (State.rd64_wr64_self hwf pa w)
    | succ j =>
      have haddr : pa + 8 * (j + 1) = pa + 8 + 8 * j := by omega
      rw [State.wrWords, haddr, ih hwf' (Nat.lt_of_succ_lt_succ hj), List.getD_cons_succ]

@[simp] theorem State.wrWords_cores (ws : List Word) (s : State) (pa : Nat) : (s.wrWords pa ws).cores = s.cores := by
  induction ws generalizing s pa with
  | nil => rfl
  | cons w ws ih => exact ih (s.wr64 pa w) (pa + 8)

@[simp] theorem State.wrWords_faults (ws : List Word) (s : State) (pa : Nat) : (s.wrWords pa ws).faults = s.faults := by
  induction ws generalizing s pa with
  | nil => rfl
  | cons w ws ih => exact ih (s.wr64 pa w) (pa + 8)

/-! ### The frame of a context -/

/-- Registers of two words each take twice as many words. -/
theorem length_flatten_pairs {α β : Type} (l : List α) (f g : α → β) :
    (l.map fun a => [f a, g a]).flatten.length = 2 * l.length := by
  induction l with
  | nil => rfl
  | cons a l ih =>
    rw [List.map_cons, List.flatten_cons, List.length_append, ih, List.length_cons, List.length_cons, List.length_cons, List.length_nil]
    omega

theorem Ctx.length_frameWords (k : Ctx) (w0 w1 : Word) (stop : BitVec 8) : (k.frameWords w0 w1 stop).length = 128 := by
  simp only [Ctx.frameWords, List.length_append, List.length_map, List.length_range, length_flatten_pairs, List.length_cons,
    List.length_nil]

/-- A frame and its extension block are 0x480 bytes (R80, R103). -/
theorem State.length_image (s : State) (c t : Nat) (pc : BitVec 60) (stop : BitVec 8) : (s.image c t pc stop).length = 144 := by
  rw [State.image, List.length_append, Ctx.length_frameWords]
  rfl

/-- `STOP` is word 127 of the frame (R80). -/
theorem State.image_stop (s : State) (c t : Nat) (pc : BitVec 60) (stop : BitVec 8) :
    (s.image c t pc stop).getD 127 0 = stop.setWidth 64 := rfl

@[simp] theorem State.core_writeFrame (s : State) (c t : Nat) (pc : BitVec 60) (stop : BitVec 8) (d : Nat) :
    (s.writeFrame c t pc stop).core d = s.core d := by
  simp [State.writeFrame, State.core]

@[simp] theorem State.ctx_writeFrame (s : State) (c t : Nat) (pc : BitVec 60) (stop : BitVec 8) (d j : Nat) :
    (s.writeFrame c t pc stop).ctx d j = s.ctx d j := by
  simp [State.ctx]

@[simp] theorem State.faults_writeFrame (s : State) (c t : Nat) (pc : BitVec 60) (stop : BitVec 8) :
    (s.writeFrame c t pc stop).faults = s.faults := State.wrWords_faults _ _ _

theorem State.rd64_writeFrame {s : State} (hwf : Memory.wf s.mem = true) (c t : Nat) (pc : BitVec 60) (stop : BitVec 8) {j : Nat}
    (hj : j < 144) :
    (s.writeFrame c t pc stop).rd64 (s.frameSlot c t (s.ctx c t).region.toNat + 8 * j) = (s.image c t pc stop).getD j 0 :=
  State.rd64_wrWords _ hwf (by rwa [State.length_image]) _

theorem State.read_writeFrame_outside {s : State} (hwf : Memory.wf s.mem = true) (c t : Nat) (pc : BitVec 60) (stop : BitVec 8) {a : Nat}
    (ha : a < s.frameSlot c t (s.ctx c t).region.toNat ∨ s.frameSlot c t (s.ctx c t).region.toNat + 0x480 ≤ a) :
    Mem.read (s.writeFrame c t pc stop).mem a = Mem.read s.mem a :=
  State.read_wrWords_outside _ hwf (by rwa [State.length_image])

/-! ### The report of a region's fault -/

@[simp] theorem State.core_regionFault (s : State) (r : Nat) (code : BitVec 8) (d : Nat) : (s.regionFault r code).core d = s.core d := rfl

@[simp] theorem State.ctx_regionFault (s : State) (r : Nat) (code : BitVec 8) (d j : Nat) :
    (s.regionFault r code).ctx d j = s.ctx d j := rfl

@[simp] theorem State.mem_regionFault (s : State) (r : Nat) (code : BitVec 8) : (s.regionFault r code).mem = s.mem := rfl

@[simp] theorem State.rd64_regionFault (s : State) (r : Nat) (code : BitVec 8) (pa : Nat) :
    (s.regionFault r code).rd64 pa = s.rd64 pa := rfl

@[simp] theorem State.faults_regionFault (s : State) (r : Nat) (code : BitVec 8) :
    (s.regionFault r code).faults = s.faults ++ [{ region := r, code := code }] := rfl

/-! ### The priority in a frame -/

theorem State.effPrio_congr {s u : State} (h : u.regions = s.regions) (n r : Nat) : u.effPrio n r = s.effPrio n r := by
  have hregion (r : Nat) : u.region r = s.region r := by rw [State.region, State.region, h]
  induction n generalizing r with
  | zero => rfl
  | succ n ih => simp only [State.effPrio, hregion, ih]

/-- The effective priority of a region is a matter of the regions alone (R232). -/
theorem State.prio_congr {s u : State} (h : u.regions = s.regions) (r : Nat) : u.prio r = s.prio r := by
  rw [State.prio, State.prio, State.effPrio_congr h, State.depth, State.depth, h]

end Sys2Proof.Machine
end

section
/-! A trap in context 0 while its handler runs (R81, R98): the stop it requests, what the stop leaves once no result is pending. -/

namespace Sys2Proof.Machine

/-! ### The request -/

/-- The context whose trap asks for a stop: it drops what it was doing and keeps its registers (R81). -/
def Ctx.stopping (k : Ctx) (q : StopReq) : Ctx :=
  { k with stop := some q, tlb := .none, acq := none, ownLine := none, realign := none, susp := none }

/-- The context once its stop is complete (R81). -/
def Ctx.stopped (k : Ctx) : Ctx :=
  { k with mode := .stopped, stop := none, fbuf := .empty, freq := none, tlb := .none, acq := none, ownLine := none, realign := none }

/-- The stop that a trap of the bundle at the context's PC asks for (R95). -/
def Ctx.trapStop (k : Ctx) (code : BitVec 8) (slot : BitVec 3) (tval : Word) : StopReq :=
  { code := code, slot := slot, tval := tval, framePc := k.pc, npc := k.pc }

/-- The frame of a context that is asked to stop is the frame it had before. -/
theorem State.image_stopping (s : State) (c t : Nat) (q : StopReq) (pc : BitVec 60) (stop : BitVec 8) :
    (s.modCtx c t (·.stopping q)).image c t pc stop = s.image c t pc stop := by
  have hrec : (s.modCtx c t (·.stopping q)).recOf c t pc = s.recOf c t pc := by
    simp only [State.recOf, State.ctx_modCtx_self, State.prio_congr (State.modCtx_regions s c t _)]
    rfl
  simp only [State.image, hrec, State.ctx_modCtx_self]
  rfl

/-- The frame of a context that is asked to stop lies where its region keeps it and holds what the context held (R80, R95). -/
theorem State.rd64_writeFrame_stopping {s : State} (hwf : Memory.wf s.mem = true) (c t : Nat) (q : StopReq) (pc : BitVec 60)
    (stop : BitVec 8) {j : Nat} (hj : j < 144) :
    ((s.modCtx c t (·.stopping q)).writeFrame c t pc stop).rd64 (s.frameSlot c t (s.ctx c t).region.toNat + 8 * j)
      = (s.image c t pc stop).getD j 0 := by
  have hword := State.rd64_writeFrame (s := s.modCtx c t (·.stopping q)) hwf c t pc stop hj
  rwa [State.ctx_modCtx_self, State.image_stopping] at hword

theorem State.read_writeFrame_stopping_outside {s : State} (hwf : Memory.wf s.mem = true) (c t : Nat) (q : StopReq) (pc : BitVec 60)
    (stop : BitVec 8) {a : Nat}
    (ha : a < s.frameSlot c t (s.ctx c t).region.toNat ∨ s.frameSlot c t (s.ctx c t).region.toNat + 0x480 ≤ a) :
    Mem.read ((s.modCtx c t (·.stopping q)).writeFrame c t pc stop).mem a = Mem.read s.mem a :=
  State.read_writeFrame_outside (s := s.modCtx c t (·.stopping q)) hwf c t pc stop (by rwa [State.ctx_modCtx_self])

/-- A trap in context 0 of a compute core while `TH` = 1 enters no handler: it asks for a stop (R98). -/
theorem State.takeTrap_double {s : State} {c : Nat} (hc : c < 4096) (hth : bit (s.ctx c 0).status 3 = true) (code : BitVec 8)
    (slot : BitVec 3) (tval : Word) :
    s.takeTrap c 0 code slot tval
      = (s.modCtx c 0 (·.stopping ((s.ctx c 0).trapStop code slot tval))).finishStop c 0 := by
  have hcompute : ¬ 4096 ≤ c := by omega
  have hbusy : ¬ ((0 : Nat) = 0 ∧ (!bit (s.ctx c 0).status 3) = true) := by simp [hth]
  rw [State.takeTrap, State.takeTrapAt, if_neg hcompute, if_neg hbusy]
  rfl

/-! ### Its completion -/

/-- A stop waits for the results that are pending (R81). -/
theorem State.finishStop_of_pending {s : State} {c t : Nat} (h : (s.ctx c t).hasPending = true) : s.finishStop c t = s := by
  cases hstop : (s.ctx c t).stop <;> simp [State.finishStop, hstop, h]

/-- Context 0 stops with its frame written and the fault of its region reported, and with no notice (R98). -/
theorem State.finishStop_ctx0 {s : State} {c : Nat} {q : StopReq} (hstop : (s.ctx c 0).stop = some q)
    (hidle : (s.ctx c 0).hasPending = false) :
    s.finishStop c 0
      = ((s.writeFrame c 0 q.framePc q.code).modCtx c 0 Ctx.stopped).regionFault (s.ctx c 0).region.toNat q.code := by
  simp only [State.finishStop, hstop, hidle]
  rfl

/-- What a double trap leaves while results are pending: the request alone (R81, R98). -/
theorem State.takeTrap_double_pending {s : State} {c : Nat} (hc : c < 4096) (hth : bit (s.ctx c 0).status 3 = true)
    (hpend : (s.ctx c 0).hasPending = true) (code : BitVec 8) (slot : BitVec 3) (tval : Word) :
    s.takeTrap c 0 code slot tval = s.modCtx c 0 (·.stopping ((s.ctx c 0).trapStop code slot tval)) := by
  rw [State.takeTrap_double hc hth]
  exact State.finishStop_of_pending (by rwa [State.ctx_modCtx_self])

/-- What a double trap leaves when no result is pending: the frame, the stopped context, the fault of its region (R98). -/
theorem State.takeTrap_double_idle {s : State} {c : Nat} (hc : c < 4096) (hth : bit (s.ctx c 0).status 3 = true)
    (hidle : (s.ctx c 0).hasPending = false) (code : BitVec 8) (slot : BitVec 3) (tval : Word) :
    s.takeTrap c 0 code slot tval
      = (((s.modCtx c 0 (·.stopping ((s.ctx c 0).trapStop code slot tval))).writeFrame c 0 (s.ctx c 0).pc code).modCtx c 0
          Ctx.stopped).regionFault (s.ctx c 0).region.toNat code := by
  have hstop : ((s.modCtx c 0 (·.stopping ((s.ctx c 0).trapStop code slot tval))).ctx c 0).stop
      = some ((s.ctx c 0).trapStop code slot tval) := by rw [State.ctx_modCtx_self]; rfl
  rw [State.takeTrap_double hc hth, State.finishStop_ctx0 hstop (by rwa [State.ctx_modCtx_self]), State.ctx_modCtx_self]
  rfl

/-! ### What both keep -/

theorem State.notices_modCtx (s : State) (c t : Nat) (f : Ctx → Ctx) : ((s.modCtx c t f).core c).notices = (s.core c).notices := by
  rw [State.core_modCtx_self]

/-- A double trap leaves the notices queued (R98). -/
theorem State.notices_takeTrap_double {s : State} {c : Nat} (hc : c < 4096) (hth : bit (s.ctx c 0).status 3 = true)
    (code : BitVec 8) (slot : BitVec 3) (tval : Word) :
    ((s.takeTrap c 0 code slot tval).core c).notices = (s.core c).notices := by
  cases hp : (s.ctx c 0).hasPending with
  | true => rw [State.takeTrap_double_pending hc hth hp, State.notices_modCtx]
  | false =>
    rw [State.takeTrap_double_idle hc hth hp, State.core_regionFault, State.notices_modCtx, State.core_writeFrame, State.notices_modCtx]

theorem State.ctx_takeTrap_double_ne {s : State} {c : Nat} (hc : c < 4096) (hth : bit (s.ctx c 0).status 3 = true)
    (code : BitVec 8) (slot : BitVec 3) (tval : Word) {j : Nat} (hj : 0 < j) (hj' : j < 16) :
    (s.takeTrap c 0 code slot tval).ctx c j = s.ctx c j := by
  have hne : j % 16 ≠ 0 % 16 := by omega
  cases hp : (s.ctx c 0).hasPending with
  | true => rw [State.takeTrap_double_pending hc hth hp, State.ctx_modCtx_ne _ _ _ hne]
  | false =>
    rw [State.takeTrap_double_idle hc hth hp, State.ctx_regionFault, State.ctx_modCtx_ne _ _ _ hne, State.ctx_writeFrame,
      State.ctx_modCtx_ne _ _ _ hne]

/-! ### The statement -/

/-- Settles O54: while results are pending the trap leaves its request alone; else the stop completes at once, and its frame is read
back from the save area word by word. -/
theorem doubleTrap : Obligations.DoubleTrap := by
  unfold Obligations.DoubleTrap
  intro s c code slot tval hc hth hwf
  refine ⟨fun hpend => ?_, fun hidle => ?_, State.notices_takeTrap_double hc hth code slot tval,
    fun j hj hj' => State.ctx_takeTrap_double_ne hc hth code slot tval hj hj'⟩
  · rw [State.takeTrap_double_pending hc hth hpend, State.ctx_modCtx_self]
    exact ⟨rfl, rfl, rfl, rfl⟩
  · rw [State.takeTrap_double_idle hc hth hidle, State.ctx_regionFault, State.ctx_modCtx_self]
    refine ⟨rfl, ?_, fun j hj => ?_, State.image_stop s c 0 _ code, fun a ha => ?_⟩
    · rw [State.faults_regionFault, State.modCtx_faults, State.faults_writeFrame, State.modCtx_faults]
    · rw [State.rd64_regionFault, State.rd64_modCtx]
      exact State.rd64_writeFrame_stopping hwf c 0 _ _ code hj
    · rw [State.mem_regionFault, State.modCtx_mem]
      exact State.read_writeFrame_stopping_outside hwf c 0 _ _ code ha

end Sys2Proof.Machine
end

section
/-! The framing of a bundle and the checks of its slots (R279 to R284): where the scan stops, what the check knows at each slot, the
reasons it finds there, and the trap of a bundle at which one holds. -/

namespace Sys2Proof.Machine

/-! ### The scan (R280) -/

theorem frameFrom_end (n : Nat) (w : SlotWord) (ws : List SlotWord) (hw : fE w = true) : frameFrom n (w :: ws) = .ok [w] := by
  rw [frameFrom, if_pos hw]

theorem frameFrom_eighth {w : SlotWord} (ws : List SlotWord) (hw : fE w = false) : frameFrom 7 (w :: ws) = .error (3, 7) := by
  simp [frameFrom, hw]

theorem frameFrom_open {n : Nat} {w : SlotWord} (ws : List SlotWord) (hn : n < 7) (hw : fE w = false) :
    frameFrom n (w :: ws) = (frameFrom (n + 1) ws).map (w :: ·) := by
  have hne : n ≠ 7 := by omega
  rw [frameFrom, hw, if_neg Bool.false_ne_true, if_neg hne]
  cases frameFrom (n + 1) ws <;> rfl

/-- Eight slots without `E` are reason 3, whatever follows them. -/
theorem frameFrom_eight_open {n : Nat} {ws : List SlotWord} (hn : n < 8) (hlen : 8 ≤ n + ws.length)
    (hopen : ∀ w ∈ ws.take (8 - n), fE w = false) : frameFrom n ws = .error (3, 7) := by
  induction ws generalizing n with
  | nil => exact absurd hlen (by simpa using hn)
  | cons w ws ih =>
    obtain ⟨m, hm⟩ : ∃ m, 8 - n = m + 1 := ⟨7 - n, by omega⟩
    rw [hm, List.take_succ_cons, List.forall_mem_cons] at hopen
    obtain ⟨hw, hrest⟩ := hopen
    rw [List.length_cons] at hlen
    by_cases hlast : n = 7
    · subst hlast
      exact frameFrom_eighth ws hw
    · have hm' : m = 8 - (n + 1) := by omega
      rw [frameFrom_open ws (by omega) hw, ih (by omega) (by omega) (hm' ▸ hrest)]
      rfl

/-- A line that ends before its eighth slot, without `E`, is reason 4 at its last slot. -/
theorem frameFrom_short {n : Nat} {ws : List SlotWord} (hlen : n + ws.length < 8) (hopen : ∀ w ∈ ws, fE w = false) :
    frameFrom n ws = .error (4, n + ws.length - 1) := by
  induction ws generalizing n with
  | nil => rfl
  | cons w ws ih =>
    rw [List.forall_mem_cons] at hopen
    rw [List.length_cons] at hlen ⊢
    rw [frameFrom_open ws (by omega) hopen.1, ih (by omega) hopen.2, Nat.add_right_comm n 1, ← Nat.add_assoc]
    rfl

/-- The bundle ends with its first `E` slot, if that is one of the first eight. -/
theorem frameFrom_framed {n : Nat} {l : List SlotWord} {w : SlotWord} (rest : List SlotWord) (hlen : n + l.length < 8)
    (hopen : ∀ x ∈ l, fE x = false) (hw : fE w = true) : frameFrom n (l ++ w :: rest) = .ok (l ++ [w]) := by
  induction l generalizing n with
  | nil => exact frameFrom_end n w rest hw
  | cons x l ih =>
    rw [List.forall_mem_cons] at hopen
    rw [List.length_cons] at hlen
    rw [List.cons_append, frameFrom_open _ (by omega) hopen.1, ih (by omega) hopen.2]
    rfl

theorem frameBundle_unframed {ws : List SlotWord} {e : Nat × Nat} (h : frameFrom 0 ws = .error e) : frameBundle ws = .error e := by
  rw [frameBundle, h]

theorem frameBundle_ok {ws l : List SlotWord} (h : frameFrom 0 ws = .ok l) (hc : frameCheck {} 0 l = none) : frameBundle ws = .ok l := by
  simp only [frameBundle, h, hc]

theorem frameBundle_bad {ws l : List SlotWord} {e : Nat × Nat} (h : frameFrom 0 ws = .ok l) (hc : frameCheck {} 0 l = some e) :
    frameBundle ws = .error e := by
  simp only [frameBundle, h, hc]

/-! ### One slot of the check (R282) -/

theorem isControl_of_isX {w : SlotWord} (h : isX w = true) : isControl w = false := by
  have hmajor : fMajor w = 0x7F#7 := beq_iff_eq.mp h
  simp [isControl, hmajor]

theorem not_isX_of_isControl {w : SlotWord} (h : isControl w = true) : isX w = false := by
  cases hx : isX w with
  | false => rfl
  | true => exact absurd ((isControl_of_isX hx).symm.trans h) Bool.false_ne_true

/-- The reasons that the check looks for at a slot with these words behind it, given what it knows of the earlier slots. -/
def FrameSeen.finds (y : FrameSeen) (w : SlotWord) (ws : List SlotWord) : Nat → Bool
  | 1 => !isX w && (writeSet y.pre w).any (fun a => y.writes.contains a)
  | 2 => (headClass (w :: ws)).any (fun c => decide (c < y.cls))
  | 3 => !isX w && decide (classLimit (classOf w) ≤ (y.count.filter (· == classOf w)).length)
  | 5 => isControl w && y.control
  | 6 => isX w && ws.head?.all isX
  | _ => false

/-- What the check knows once a slot has passed. -/
def FrameSeen.pass (y : FrameSeen) (w : SlotWord) (ws : List SlotWord) : FrameSeen :=
  if isX w then { y with cls := (headClass (w :: ws)).getD y.cls, pre := some (fI24 w) }
  else
    { writes := writeSet y.pre w ++ y.writes, cls := classOf w, count := classOf w :: y.count
      control := y.control || isControl w, pre := none }

theorem FrameSeen.pass_of_isX (y : FrameSeen) {w : SlotWord} (ws : List SlotWord) (hx : isX w = true) :
    y.pass w ws = { y with cls := (headClass (w :: ws)).getD y.cls, pre := some (fI24 w) } := if_pos hx

theorem FrameSeen.pass_of_not_isX (y : FrameSeen) {w : SlotWord} (ws : List SlotWord) (hx : isX w = false) :
    y.pass w ws = { writes := writeSet y.pre w ++ y.writes, cls := classOf w, count := classOf w :: y.count
                    control := y.control || isControl w, pre := none } := if_neg (by simp [hx])

theorem headClass_of_isX {w : SlotWord} (ws : List SlotWord) (hx : isX w = true) : headClass (w :: ws) = headClass ws := if_pos hx

theorem headClass_of_not_isX {w : SlotWord} (ws : List SlotWord) (hx : isX w = false) : headClass (w :: ws) = some (classOf w) :=
  if_neg (by simp [hx])

theorem frameCheck_of_isX (y : FrameSeen) (j : Nat) {w : SlotWord} (ws : List SlotWord) (hx : isX w = true) :
    frameCheck y j (w :: ws)
      = if y.finds w ws 2 then some (2, j) else if y.finds w ws 6 then some (6, j) else frameCheck (y.pass w ws) (j + 1) ws := by
  rw [y.pass_of_isX ws hx, frameCheck.eq_def]
  cases hc : headClass (w :: ws) <;> cases ws <;> simp only [FrameSeen.finds, hx, hc, if_true] <;> rfl

theorem frameCheck_of_not_isX (y : FrameSeen) (j : Nat) {w : SlotWord} (ws : List SlotWord) (hx : isX w = false) :
    frameCheck y j (w :: ws)
      = if y.finds w ws 1 then some (1, j) else if y.finds w ws 2 then some (2, j) else if y.finds w ws 3 then some (3, j)
        else if y.finds w ws 5 then some (5, j) else frameCheck (y.pass w ws) (j + 1) ws := by
  rw [y.pass_of_not_isX ws hx, frameCheck.eq_def]
  simp only [FrameSeen.finds, hx, headClass_of_not_isX ws hx, Bool.not_false, Bool.true_and, decide_eq_true_eq,
    Bool.false_eq_true, if_false, Option.any_some]

/-- The check goes on behind a slot at which it finds no reason. -/
theorem frameCheck_cons_none {y : FrameSeen} {w : SlotWord} {ws : List SlotWord} (j : Nat) (h : ∀ r, y.finds w ws r = false) :
    frameCheck y j (w :: ws) = frameCheck (y.pass w ws) (j + 1) ws := by
  cases hx : isX w with
  | true => simp [frameCheck_of_isX, hx, h]
  | false => simp [frameCheck_of_not_isX, hx, h]

/-- What the check can find at an X slot, and what at another. -/
theorem FrameSeen.finds_cases {y : FrameSeen} {w : SlotWord} {ws : List SlotWord} {r : Nat} (h : y.finds w ws r = true) :
    (isX w = true ∧ (r = 2 ∨ r = 6)) ∨ (isX w = false ∧ (r = 1 ∨ r = 2 ∨ r = 3 ∨ r = 5)) := by
  unfold FrameSeen.finds at h
  split at h
  case h_1 | h_3 =>
    rw [Bool.and_eq_true, Bool.not_eq_true'] at h
    simp [h.1]
  case h_2 => cases isX w <;> simp
  case h_4 =>
    rw [Bool.and_eq_true] at h
    simp [not_isX_of_isControl h.1]
  case h_5 =>
    rw [Bool.and_eq_true] at h
    simp [h.1]
  case h_6 => exact absurd h Bool.false_ne_true

/-- The check reports the lowest reason that it finds at a slot. -/
theorem frameCheck_cons_some {y : FrameSeen} {w : SlotWord} {ws : List SlotWord} (j : Nat) {r : Nat} (hr : y.finds w ws r = true)
    (hmin : ∀ q, q < r → y.finds w ws q = false) : frameCheck y j (w :: ws) = some (r, j) := by
  obtain ⟨hx, rfl | rfl⟩ | ⟨hx, rfl | rfl | rfl | rfl⟩ := FrameSeen.finds_cases hr
  all_goals simp [frameCheck_of_isX, frameCheck_of_not_isX, hx, hr, hmin]

/-! ### What the check knows at a slot of a bundle -/

/-- The bits of the X slot before slot i (R291). -/
def prefixAt (l : List SlotWord) (i : Nat) : Option (BitVec 24) :=
  if i = 0 then none else if isX (l.getD (i - 1) 0) then some (fI24 (l.getD (i - 1) 0)) else none

/-- The slots of a class before slot j, X slots left out. -/
def slotsOfClass (l : List SlotWord) (j c : Nat) : List Nat :=
  (List.range j).filter (fun i => !isX (l.getD i 0) && classOf (l.getD i 0) == c)

/-- A slot before slot j that is no X slot has a class behind d. -/
def Passed (l : List SlotWord) (j d : Nat) : Prop :=
  ∃ i, i < j ∧ isX (l.getD i 0) = false ∧ ∃ c, headClass (l.drop i) = some c ∧ d < c

/-- y is what the check knows at slot j of a bundle when no reason holds at an earlier slot. -/
structure FrameSeen.At (l : List SlotWord) (j : Nat) (y : FrameSeen) : Prop where
  writes : ∀ x, x ∈ y.writes ↔ ∃ i, i < j ∧ isX (l.getD i 0) = false ∧ x ∈ writeSet (prefixAt l i) (l.getD i 0)
  cls : ∀ d, headClass (l.drop j) = some d → (d < y.cls ↔ Passed l j d)
  count : ∀ c, (y.count.filter (· == c)).length = (slotsOfClass l j c).length
  control : y.control = true ↔ ∃ i, i < j ∧ isControl (l.getD i 0) = true
  pre : y.pre = prefixAt l j

theorem FrameSeen.at_zero (l : List SlotWord) : FrameSeen.At l 0 {} where
  writes := by simp
  cls := by simp [Passed]
  count := by simp [slotsOfClass]
  control := by simp
  pre := rfl

/-! ### A bundle's slots one by one -/

theorem getD_of_drop {l : List SlotWord} {j : Nat} {w : SlotWord} {ws : List SlotWord} (h : l.drop j = w :: ws) : l.getD j 0 = w := by
  have hj : (l.drop j)[0]? = some w := by rw [h]; rfl
  rw [List.getElem?_drop, Nat.add_zero] at hj
  rw [List.getD_eq_getElem?_getD, hj, Option.getD_some]

theorem drop_succ_of_drop {l : List SlotWord} {j : Nat} {w : SlotWord} {ws : List SlotWord} (h : l.drop j = w :: ws) :
    l.drop (j + 1) = ws := by
  rw [← List.drop_drop, h]
  rfl

theorem lt_length_of_drop {l : List SlotWord} {j : Nat} {w : SlotWord} {ws : List SlotWord} (h : l.drop j = w :: ws) : j < l.length := by
  refine Nat.lt_of_not_le fun hj => ?_
  rw [List.drop_eq_nil_of_le hj] at h
  cases h

/-- Slot j ends the bundle, or an X slot follows it: reason 6 at an X slot. -/
theorem lone_iff {l : List SlotWord} {j : Nat} {w : SlotWord} {ws : List SlotWord} (h : l.drop j = w :: ws) :
    (j + 1 = l.length ∨ isX (l.getD (j + 1) 0) = true) ↔ ws.head?.all isX = true := by
  have hj := lt_length_of_drop h
  have hws := drop_succ_of_drop h
  cases ws with
  | nil =>
    rw [List.drop_eq_nil_iff] at hws
    exact iff_of_true (.inl (by omega)) rfl
  | cons v vs =>
    have hlt := lt_length_of_drop hws
    rw [getD_of_drop hws, List.head?_cons, Option.all_some]
    exact or_iff_right (by omega)

/-- The reasons of R282 in terms of what precedes a slot. -/
theorem reason_iff {l : List SlotWord} {j : Nat} {w : SlotWord} {ws : List SlotWord} (h : l.drop j = w :: ws) (r : Nat) :
    Reason l j r ↔
      (r = 1 ∧ isX w = false ∧ ∃ i, i < j ∧ isX (l.getD i 0) = false
        ∧ ∃ x ∈ writeSet (prefixAt l j) w, x ∈ writeSet (prefixAt l i) (l.getD i 0))
      ∨ (r = 2 ∧ ∃ d, headClass (w :: ws) = some d ∧ Passed l j d)
      ∨ (r = 3 ∧ isX w = false ∧ classLimit (classOf w) ≤ (slotsOfClass l j (classOf w)).length)
      ∨ (r = 5 ∧ isControl w = true ∧ ∃ i, i < j ∧ isControl (l.getD i 0) = true)
      ∨ (r = 6 ∧ isX w = true ∧ ws.head?.all isX = true) := by
  have horder : (∃ i c d, i < j ∧ isX (l.getD i 0) = false ∧ headClass (l.drop i) = some c ∧ headClass (l.drop j) = some d ∧ d < c)
      ↔ ∃ d, headClass (w :: ws) = some d ∧ Passed l j d := by
    rw [← h]
    exact ⟨fun ⟨i, c, d, hi, hs, hc, hd, hlt⟩ => ⟨d, hd, i, hi, hs, c, hc, hlt⟩,
      fun ⟨d, hd, i, hi, hs, c, hc, hlt⟩ => ⟨i, c, d, hi, hs, hc, hd, hlt⟩⟩
  rw [← horder, ← lone_iff h, ← getD_of_drop h]
  rfl

/-- What the check finds at a slot are the reasons that hold there. -/
theorem FrameSeen.At.finds_iff {l : List SlotWord} {j : Nat} {y : FrameSeen} {w : SlotWord} {ws : List SlotWord} (hy : y.At l j)
    (h : l.drop j = w :: ws) (r : Nat) : y.finds w ws r = true ↔ Reason l j r := by
  have hcls : (∃ d, headClass (w :: ws) = some d ∧ d < y.cls) ↔ ∃ d, headClass (w :: ws) = some d ∧ Passed l j d :=
    exists_congr fun d => and_congr_right fun hd => hy.cls d (h ▸ hd)
  have hwrites : (∃ x ∈ writeSet y.pre w, x ∈ y.writes) ↔ ∃ i, i < j ∧ isX (l.getD i 0) = false
      ∧ ∃ x ∈ writeSet y.pre w, x ∈ writeSet (prefixAt l i) (l.getD i 0) := by
    simp only [hy.writes]
    exact ⟨fun ⟨x, hx, i, hi, hs, hxi⟩ => ⟨i, hi, hs, x, hx, hxi⟩, fun ⟨i, hi, hs, x, hx, hxi⟩ => ⟨x, hx, i, hi, hs, hxi⟩⟩
  rw [reason_iff h, ← hy.pre, ← hwrites, ← hcls, ← hy.count, ← hy.control]
  unfold FrameSeen.finds
  split
  case h_1 => simp
  case h_2 => simp [Option.any_eq_true]
  case h_3 => simp
  case h_4 => simp
  case h_5 => simp
  case h_6 => simp_all

/-! ### What it knows behind a slot -/

theorem prefixAt_succ (l : List SlotWord) (j : Nat) :
    prefixAt l (j + 1) = if isX (l.getD j 0) then some (fI24 (l.getD j 0)) else none := rfl

theorem length_slotsOfClass_succ (l : List SlotWord) (j c : Nat) :
    (slotsOfClass l (j + 1) c).length
      = (slotsOfClass l j c).length + if !isX (l.getD j 0) && classOf (l.getD j 0) == c then 1 else 0 := by
  rw [slotsOfClass, List.range_succ, List.filter_append, List.length_append, List.filter_cons, List.filter_nil, ← slotsOfClass]
  cases !isX (l.getD j 0) && classOf (l.getD j 0) == c <;> rfl

theorem passed_succ (l : List SlotWord) (j d : Nat) :
    Passed l (j + 1) d ↔ Passed l j d ∨ (isX (l.getD j 0) = false ∧ ∃ c, headClass (l.drop j) = some c ∧ d < c) :=
  Nat.exists_lt_succ_right

/-- The check knows what precedes the next slot, once no reason has held at an X slot. -/
theorem FrameSeen.At.pass_isX {l : List SlotWord} {j : Nat} {y : FrameSeen} {w : SlotWord} {ws : List SlotWord} (hy : y.At l j)
    (h : l.drop j = w :: ws) (hno : ∀ r, ¬ Reason l j r) (hx : isX w = true) : (y.pass w ws).At l (j + 1) := by
  have hw := getD_of_drop h
  rw [y.pass_of_isX ws hx]
  constructor
  case writes =>
    intro x
    rw [Nat.exists_lt_succ_right, ← hy.writes, hw]
    simp [hx]
  case cls =>
    intro d hd
    rw [drop_succ_of_drop h, ← headClass_of_isX ws hx] at hd
    have hpassed : ¬ Passed l j d := fun hp => hno 2 ((reason_iff h 2).mpr (.inr (.inl ⟨rfl, d, hd, hp⟩)))
    rw [passed_succ, hw, hd]
    simp [hx, hpassed]
  case count =>
    intro c
    rw [length_slotsOfClass_succ, ← hy.count, hw]
    simp [hx]
  case control =>
    rw [Nat.exists_lt_succ_right, ← hy.control, hw]
    simp [isControl_of_isX hx]
  case pre => rw [prefixAt_succ, hw, if_pos hx]

/-- The same for another slot. -/
theorem FrameSeen.At.pass_not_isX {l : List SlotWord} {j : Nat} {y : FrameSeen} {w : SlotWord} {ws : List SlotWord} (hy : y.At l j)
    (h : l.drop j = w :: ws) (hno : ∀ r, ¬ Reason l j r) (hx : isX w = false) : (y.pass w ws).At l (j + 1) := by
  have hw := getD_of_drop h
  have hhead : headClass (l.drop j) = some (classOf w) := h ▸ headClass_of_not_isX ws hx
  rw [y.pass_of_not_isX ws hx]
  constructor
  case writes =>
    intro x
    rw [Nat.exists_lt_succ_right, ← hy.writes, hw, ← hy.pre]
    simp [hx, or_comm]
  case cls =>
    intro d hd
    rw [passed_succ, hw, hhead]
    have hlast : Passed l j d → d < classOf w := by
      rintro ⟨i, hi, hs, c, hc, hlt⟩
      refine Nat.lt_of_not_le fun hge => ?_
      exact hno 2 ((reason_iff h 2).mpr (.inr (.inl ⟨rfl, classOf w, h ▸ hhead, i, hi, hs, c, hc, by omega⟩)))
    simpa [hx] using hlast
  case count =>
    intro c
    rw [length_slotsOfClass_succ, ← hy.count, hw, List.filter_cons]
    cases classOf w == c <;> simp [hx]
  case control =>
    rw [Nat.exists_lt_succ_right, ← hy.control, hw, Bool.or_eq_true]
  case pre => rw [prefixAt_succ, hw, if_neg (by simp [hx])]

theorem FrameSeen.At.pass {l : List SlotWord} {j : Nat} {y : FrameSeen} {w : SlotWord} {ws : List SlotWord} (hy : y.At l j)
    (h : l.drop j = w :: ws) (hno : ∀ r, ¬ Reason l j r) : (y.pass w ws).At l (j + 1) := by
  cases hx : isX w with
  | true => exact hy.pass_isX h hno hx
  | false => exact hy.pass_not_isX h hno hx

/-! ### The check of a bundle (R282) -/

theorem FrameSeen.At.not_finds {l : List SlotWord} {j : Nat} {y : FrameSeen} {w : SlotWord} {ws : List SlotWord} (hy : y.At l j)
    (h : l.drop j = w :: ws) {r : Nat} (hno : ¬ Reason l j r) : y.finds w ws r = false := by
  rwa [← hy.finds_iff h, Bool.not_eq_true] at hno

/-- From a slot on, at and behind which no reason holds, the check finds nothing. -/
theorem FrameSeen.At.frameCheck_none {l ws : List SlotWord} {j : Nat} {y : FrameSeen} (hy : y.At l j) (h : l.drop j = ws)
    (hno : ∀ i r, j ≤ i → i < l.length → ¬ Reason l i r) : frameCheck y j ws = none := by
  induction ws generalizing j y with
  | nil => rw [frameCheck]
  | cons w ws ih =>
    have hnow (r : Nat) : ¬ Reason l j r := hno j r (Nat.le_refl j) (lt_length_of_drop h)
    rw [frameCheck_cons_none j fun r => hy.not_finds h (hnow r)]
    exact ih (hy.pass h hnow) (drop_succ_of_drop h) fun i r hi => hno i r (by omega)

/-- From a slot on, the check reports the first slot at which a reason holds, and the lowest reason there. -/
theorem FrameSeen.At.frameCheck_some {l ws : List SlotWord} {j k r : Nat} {y : FrameSeen} (hy : y.At l j) (h : l.drop j = ws)
    (hjk : j ≤ k) (hk : k < l.length) (hr : Reason l k r) (hmin : ∀ q, q < r → ¬ Reason l k q)
    (hfirst : ∀ i q, i < k → ¬ Reason l i q) : frameCheck y j ws = some (r, k) := by
  induction ws generalizing j y with
  | nil =>
    rw [List.drop_eq_nil_iff] at h
    omega
  | cons w ws ih =>
    obtain rfl | hlt := Nat.eq_or_lt_of_le hjk
    · exact frameCheck_cons_some j ((hy.finds_iff h r).mpr hr) fun q hq => hy.not_finds h (hmin q hq)
    · have hnow (q : Nat) : ¬ Reason l j q := hfirst j q hlt
      rw [frameCheck_cons_none j fun q => hy.not_finds h (hnow q)]
      exact ih (hy.pass h hnow) (drop_succ_of_drop h) hlt

/-! ### The trap of a bundle that fails (R94, R282) -/

theorem issueNext_of_issues {s : State} {line : List SlotWord} (h : Issues s) (hline : (now s).fetched = some line) :
    s.issueNext s.turn (nowCtx s) = s.issueWords s.turn (nowCtx s) line := by
  have hsusp : (s.ctx s.turn (nowCtx s)).susp = none := h.whole
  have haligned : bitsN (s.ctx s.turn (nowCtx s)).pc 0 2 = 0 := h.aligned
  simp only [State.issueNext, hsusp, haligned, hline, ne_eq, not_true_eq_false, if_false]

theorem coreCycle_of_issues {s : State} (h : Issues s) : s.coreCycle s.turn = .to (s.issueNext s.turn (nowCtx s)) := by
  obtain ⟨hshut, hclock⟩ := h.on
  obtain ⟨hnotice, huser⟩ := h.entry
  have hstopped : ¬ (s.turn < 4096 ∧ (s.cluster (clusterOf s.turn)).stopped = true) :=
    fun ⟨hc, hs⟩ => Bool.false_ne_true ((hclock hc).symm.trans hs)
  rw [State.coreCycle, hshut, if_neg Bool.false_ne_true, if_neg hstopped, State.runCycle]
  simp [h.warm, h.may, hnotice, huser]

/-- The step of a context that issues is the issue of the words it has fetched (R21, R179, R182). -/
theorem step_of_issues {s : State} {line : List SlotWord} (h : Issues s) (hline : (now s).fetched = some line) :
    step s = noted (.next (s.issueWords s.turn (nowCtx s) line)) := by
  obtain ⟨hagenda, heven⟩ := h.first
  have hmove : s.move = .to (s.issueWords s.turn (nowCtx s) line) := by
    rw [State.move, hagenda, ← issueNext_of_issues h hline, ← coreCycle_of_issues h]
    simp only [heven, if_true, State.coreMove, h.due]
  rw [step, hmove]

/-- A context that runs alone has no twin to tell of its trap. -/
theorem bundleTrap_alone {s : State} (hp : (now s).pair = none) (slot : Nat) {code : BitVec 8} (hcode : code ≠ cPoison) (tval : Word) :
    (s.bundleTrap s.turn (nowCtx s) slot code tval).endCycle s.turn = trapped s code slot tval := by
  simp only [State.bundleTrap, if_neg hcode, dropTwin_countIssue hp, ite_self]
  rfl

/-- A cause found before any slot is evaluated traps at once in a context that runs alone. -/
theorem frontTrap_alone {s : State} (hp : (now s).pair = none) (slot : Nat) {code : BitVec 8} (hcode : code ≠ cPoison) (tval : Word) :
    (s.frontTrap s.turn (nowCtx s) slot code tval).endCycle s.turn = trapped s code slot tval := by
  have hfront : s.frontTrap s.turn (nowCtx s) slot code tval = s.bundleTrap s.turn (nowCtx s) slot code tval := by
    simp [State.frontTrap, Ctx.appends, hp]
  rw [hfront, bundleTrap_alone hp slot hcode]

theorem issueWords_bad {s : State} {line : List SlotWord} {e : Nat × Nat} (hp : (now s).pair = none)
    (he : frameBundle line = .error e) :
    s.issueWords s.turn (nowCtx s) line = trapped s cIllegalBundle 0 (bundleVal e) := by
  have hcode : cIllegalBundle ≠ cPoison := by decide
  simp only [State.issueWords, he]
  exact frontTrap_alone hp 0 hcode (bundleVal e)

/-! ### The statement -/

/-- Settles O50: the scan either fails as R280 says or ends at the first `E` slot; the check then keeps, slot by slot, what precedes
the slot, and finds there the reasons that hold; a bundle that fails traps before any slot is evaluated. -/
theorem bundleFramingChecks : Obligations.BundleFramingChecks := by
  unfold Obligations.BundleFramingChecks
  refine ⟨fun line => ⟨fun hlen hopen => ?_, fun hlen _ hopen => ?_⟩, fun l rest w hlen hopen hw => ?_, fun s line e hs hp hline he => ?_⟩
  · exact frameBundle_unframed (frameFrom_eight_open (by decide) (by omega) hopen)
  · have hshort := frameFrom_short (n := 0) (by omega) hopen
    rw [Nat.zero_add] at hshort
    exact frameBundle_unframed hshort
  · have hframed : frameFrom 0 (l ++ [w] ++ rest) = .ok (l ++ [w]) := by
      rw [List.append_assoc]
      exact frameFrom_framed rest (by omega) hopen hw
    have hstart := FrameSeen.at_zero (l ++ [w])
    refine ⟨fun hno => ?_, fun j r hj hr hmin hfirst => ?_⟩
    · exact frameBundle_ok hframed (hstart.frameCheck_none rfl fun i r _ hi => hno i r hi)
    · exact frameBundle_bad hframed (hstart.frameCheck_some rfl (Nat.zero_le j) hj hr hmin hfirst)
  · rw [StepTraps, step_of_issues hs hline, issueWords_bad hp he]
    rfl

end Sys2Proof.Machine
end
